-- ==== Sys2Proof/Word.lean ====
section
/-! DEFINITION. The word types of the part: bytes and two-byte fields of the link (R191), samples of the
converter (R44), times in milliseconds since power-on, and fixed banks of records. -/

namespace Sys2Proof

/-- One byte of a frame (R181, R191). -/
abbrev Byte := BitVec 8

/-- A field of two bytes, sent high byte first (R191). -/
abbrev Word16 := BitVec 16

/-- A raw value of the converter, 0 to 1023 counts (R44). -/
abbrev Sample := BitVec 10

/-- A moment, in whole milliseconds since power-on. -/
abbrev Time := Nat

/-- A fixed number of like records, numbered from 1 as the manual numbers them. -/
abbrev Bank (α : Type) (n : Nat) := Vector α n

end Sys2Proof
end

