-- ==== Sys2Proof/Config.lean ====
section
/-! DEFINITION. What the manual fixes for every part of this type. -/

namespace Sys2Proof.Config

/-- R44: samples of one channel are this far apart, in ms. -/
def scanPeriod : Nat := 4

/-- R104: the regenerated pulse minimum, in ms. -/
def pulseMinimum : Nat := 60

/-- R105: the sounder strike, in ms. -/
def strikeTime : Nat := 40

/-- R140: a handle MOVING this long becomes UNREADABLE, in ms. -/
def handleMovingLimit : Nat := 500

/-- R93: one countdown step, in ms. -/
def countdownStep : Nat := 100

/-- R169: the length of PROVING, in ms. -/
def provingTime : Nat := 3000

/-- R172: a store write not completed in this time has failed, in ms. -/
def storeTime : Nat := 2000

/-- R162: the short alarm, in ms. -/
def shortAlarmTime : Nat := 5000

/-- R181: a longer gap between two characters abandons the frame, in ms. -/
def characterGap : Nat := 20

/-- R187: the report queue's places. -/
def queueSize : Nat := 64

/-- 8.4: the fault list's places. -/
def faultListSize : Nat := 16

/-- R4: the term pool. -/
def termPool : Nat := 768

/-- 9.2: the staging's places. -/
def stagingSize : Nat := 160

/-- R20: the default transit limit, in s. -/
def defaultTransitLimit : Word16 := 15

/-- R20: the default lock travel time, in ms. -/
def defaultTravelTime : Word16 := 150

end Sys2Proof.Config
end

