-- ==== Sys2Proof/Syntax.lean ====
section
/-! DEFINITION. The commands of the part: one constructor of `Instr` per row of spec/opcode_table.json.
Numbers are the manual's (00_scope.md 3.2): levers from 1, circuits from 1, sequences, approach locks
and plungers from 1. -/

namespace Sys2Proof

/-- The four block sections. -/
inductive SectionId
  | a | b | c | d
  deriving DecidableEq, Repr, Inhabited

/-- The two directions of a bell line: outbound is the plunger's, inbound the line sense's (R103). -/
inductive Direction
  | outbound | inbound
  deriving DecidableEq, Repr, Inhabited

/-- The two contacts of a lever (R21). -/
inductive LeverContact
  | normal | reverse
  deriving DecidableEq, Repr, Inhabited

/-- The three contacts of a block handle (R140). -/
inductive HandleContact
  | lineBlocked | lineClear | trainOnLine
  deriving DecidableEq, Repr, Inhabited

/-- Why a frame is discarded (R181, R182). -/
inductive DiscardReason
  | notForThisPart | badLength | framingError | badCheck | broadcastOther
  deriving DecidableEq, Repr, Inhabited

/-- A consumer of passage latches (R82): the evaluator for a lever's move, a section, an approach lock. -/
inductive Consumer
  | lever (n : Nat)
  | block (s : SectionId)
  | approach (a : Nat)
  deriving DecidableEq, Repr, Inhabited

/-- Everything the part reads when it is powered (R39, R92, R103, R140, R163, R168, R180). Bit `k` of a
set of inputs is the input numbered `k + 1` (levers, plungers) or section A + `k`. -/
structure PowerInputs where
  normal : BitVec 48 := 0
  reverse : BitVec 48 := 0
  readback : BitVec 48 := 0
  plungers : BitVec 8 := 0
  handleBlocked : BitVec 4 := 0
  handleClear : BitVec 4 := 0
  handleTrain : BitVec 4 := 0
  bellPlunger : BitVec 4 := 0
  bellSense : BitVec 4 := 0
  resetKey : Bool := false
  commissioningKey : Bool := false
  addressStraps : BitVec 4 := 0
  rateStraps : BitVec 2 := 0
  /-- R168: whether the non-volatile copy can be read. -/
  copyReadable : Bool := true
  deriving DecidableEq, Repr, Inhabited

/-- The commands. A host request carries `fields`, the bytes after the kind byte (10.5). -/
inductive Instr
  /-- R168: the part is powered or restarted. -/
  | powerOn (inputs : PowerInputs)
  /-- R185. -/
  | identify (fields : List Byte)
  /-- R188. -/
  | poll (fields : List Byte)
  /-- R43. -/
  | readLevers (fields : List Byte)
  /-- R70. -/
  | readTracks (fields : List Byte)
  /-- R150, R123. -/
  | readSection (fields : List Byte)
  /-- R100. -/
  | readApproach (fields : List Byte)
  /-- R84. -/
  | readSequences (fields : List Byte)
  /-- R46. -/
  | readRaw (fields : List Byte)
  /-- R165. -/
  | readFaults (fields : List Byte)
  /-- R165. -/
  | takeFaults (fields : List Byte)
  /-- R154. -/
  | setMasks (fields : List Byte)
  /-- R189. -/
  | setReporting (fields : List Byte)
  /-- R58. -/
  | trackOutOfUse (fields : List Byte)
  /-- R59. -/
  | trackInUse (fields : List Byte)
  /-- R173. -/
  | loadBegin (fields : List Byte)
  /-- R173. -/
  | loadAbandon (fields : List Byte)
  /-- R174. -/
  | loadRecord (fields : List Byte)
  /-- R178. -/
  | loadStatus (fields : List Byte)
  /-- R177; `key` is the commissioning key as it stands when the request is taken. -/
  | commission (fields : List Byte) (key : Bool)
  /-- R178. -/
  | readTable (fields : List Byte)
  /-- R190. -/
  | linkReset (fields : List Byte) (broadcast : Bool)
  /-- R183. -/
  | unknownRequestKind (kind : Byte) (fields : List Byte)
  /-- R181. -/
  | frameDiscarded (why : DiscardReason)
  /-- R181. -/
  | interCharacterGap
  /-- R182. -/
  | replyTransmission
  /-- R44: one pass, with the raw value at each of the 32 channels (channel `c` is record `c + 1`). -/
  | scanPass (raw : Bank Sample 32)
  /-- R22: a contact of a lever is accepted at a level. -/
  | leverContactChange (lever : Nat) (contact : LeverContact) (made : Bool)
  /-- R23. -/
  | transitLimit (lever : Nat)
  /-- R31, R32: a readback is accepted at a level. -/
  | lockReadbackChange (lever : Nat) (energised : Bool)
  /-- R31, R32. -/
  | readbackWindowClose (lever : Nat)
  /-- R8, R92: a release plunger is accepted at a level. -/
  | plungerChange (plunger : Nat) (pressed : Bool)
  /-- R163: the box reset key is accepted at a level. -/
  | boxResetKey (pressed : Bool)
  /-- R140, R141: a handle contact is accepted at a level. -/
  | handleContactChange (sec : SectionId) (contact : HandleContact) (made : Bool)
  /-- R140. -/
  | handleMovingTimeout (sec : SectionId)
  /-- R103. -/
  | bellPlungerChange (sec : SectionId) (pressed : Bool)
  /-- R103. -/
  | bellSenseChange (sec : SectionId) (pressed : Bool)
  /-- R104. -/
  | regenerationDriveStart (sec : SectionId)
  /-- R104. -/
  | driveEnd (sec : SectionId)
  /-- R105. -/
  | sounderStrike (sec : SectionId)
  /-- R105. -/
  | sounderOff (sec : SectionId)
  /-- R107, R111. -/
  | pressQualifies (sec : SectionId) (dir : Direction)
  /-- R107. -/
  | longPressReached (sec : SectionId) (dir : Direction)
  /-- R109. -/
  | heldPendingReached (sec : SectionId) (dir : Direction)
  /-- R110. -/
  | heldRing (sec : SectionId) (dir : Direction)
  /-- R106, R107, R110. -/
  | pressSettles (sec : SectionId) (dir : Direction)
  /-- R108. -/
  | codeEnd (sec : SectionId) (dir : Direction)
  /-- R112. -/
  | crossingCleared (sec : SectionId)
  /-- R117. -/
  | awaitedDeadline (sec : SectionId)
  /-- R117. -/
  | owedDeadline (sec : SectionId)
  /-- R132. -/
  | attentionLapsed (sec : SectionId)
  /-- R79. -/
  | stepTimeout (seq : Nat)
  /-- R81: the monitor takes the notification of a consumer for a sequence. -/
  | consumptionNotification (consumer : Consumer) (seq : Nat)
  /-- R95. -/
  | approachConsumptionAnswer (lock : Nat)
  /-- R143. -/
  | blockConsumptionAnswer (sec : SectionId)
  /-- R93. -/
  | approachCountdownStep (lock : Nat)
  /-- R93. -/
  | approachExpiry (lock : Nat)
  /-- R169. -/
  | provingEnd
  /-- R171. -/
  | storeWriteComplete
  /-- R172. -/
  | storeWriteFailed
  /-- R162. -/
  | shortAlarmEnd
  deriving DecidableEq, Repr, Inhabited

end Sys2Proof
end

