-- ==== Sys2Proof/Machine/Records.lean ====
section
/-! DEFINITION. The records of the locking table as they are laid out (R191): every field is kept as the
bytes that carried it, because a body that fits is staged whatever its values (R192). The functions below
give the fields their meaning. -/

namespace Sys2Proof.Machine

/-- FRAME record (2.1). -/
structure FrameRec where
  transitLimit : Byte
  travelTime : Word16
  threshold : Word16
  deriving DecidableEq, Repr, Inhabited

/-- A term (1.3): a main condition and an optional when-condition, absent when its kind is 255. -/
structure Term where
  mainKind : Byte
  mainOperand : Byte
  whenKind : Byte
  whenOperand : Byte
  deriving DecidableEq, Repr, Inhabited

/-- LEVER record (1.1). -/
structure LeverRec where
  number : Byte
  kind : Byte
  flags : Byte
  reverseList : List Term
  normalList : List Term
  deriving DecidableEq, Repr, Inhabited

/-- TRACK record (3.2). -/
structure TrackRec where
  circuit : Byte
  pick : Word16
  drop : Word16
  clearCount : Byte
  degrade : Byte
  deriving DecidableEq, Repr, Inhabited

/-- SEQUENCE record (4.1). -/
structure SequenceRec where
  number : Byte
  gate : Byte
  timeout : Word16
  circuits : List Byte
  deriving DecidableEq, Repr, Inhabited

/-- APPROACH record (5.1). -/
structure ApproachRec where
  number : Byte
  signal : Byte
  track : Byte
  hold : Word16
  plunger : Byte
  release : Byte
  flags : Byte
  deriving DecidableEq, Repr, Inhabited

/-- SECTION record (7.1). -/
structure SectionRec where
  letter : Byte
  flags : Byte
  signal : Byte
  home : Byte
  arrival : Byte
  clearing : Byte
  codeSet : Byte
  classes : Byte
  onLevel : Word16
  offLevel : Word16
  deriving DecidableEq, Repr, Inhabited

/-- BELL_TIMING record (6.1). -/
structure TimingRec where
  beatMinimum : Word16
  longPress : Word16
  heldPending : Word16
  heldRing : Word16
  mergeGap : Word16
  groupGap : Word16
  codeEndGap : Word16
  repetition : Word16
  attentionLife : Word16
  deriving DecidableEq, Repr, Inhabited

/-- BELL_CODE record (6.5). -/
structure CodeRec where
  entry : Byte
  meaning : Byte
  trainClass : Byte
  codeSets : Byte
  groups : List Byte
  deriving DecidableEq, Repr, Inhabited

/-- One record of a table, of one of the eight kinds. -/
inductive Record
  | frame (r : FrameRec)
  | lever (r : LeverRec)
  | track (r : TrackRec)
  | sequence (r : SequenceRec)
  | approach (r : ApproachRec)
  | blockSection (r : SectionRec)
  | timing (r : TimingRec)
  | code (r : CodeRec)
  deriving DecidableEq, Repr, Inhabited

/-- The kinds of a lever (1.1), coded 0 to 3. -/
inductive LeverKind
  | signal | points | release | spare
  deriving DecidableEq, Repr, Inhabited

/-- The kinds of a condition (1.2), coded 0 to 8. -/
inductive ConditionKind
  | leverNormal | leverReverse | trackClear | trackOccupied | sectionRelease | sectionBlocked
  | approachFree | passage | plunger
  deriving DecidableEq, Repr, Inhabited

/-- The meanings of a bell code (6.5), coded 0 to 7. -/
inductive Meaning
  | attention | offer | entering | outOfSection | cancel | obstruction | obstructionRemoved | testing
  deriving DecidableEq, Repr, Inhabited

/-- R191: what stands for an absent value in a byte. -/
def absent : Byte := 255

def LeverKind.ofCode : Nat → Option LeverKind
  | 0 => some .signal
  | 1 => some .points
  | 2 => some .release
  | 3 => some .spare
  | _ => none

def ConditionKind.ofCode : Nat → Option ConditionKind
  | 0 => some .leverNormal
  | 1 => some .leverReverse
  | 2 => some .trackClear
  | 3 => some .trackOccupied
  | 4 => some .sectionRelease
  | 5 => some .sectionBlocked
  | 6 => some .approachFree
  | 7 => some .passage
  | 8 => some .plunger
  | _ => none

def Meaning.ofCode : Nat → Option Meaning
  | 0 => some .attention
  | 1 => some .offer
  | 2 => some .entering
  | 3 => some .outOfSection
  | 4 => some .cancel
  | 5 => some .obstruction
  | 6 => some .obstructionRemoved
  | 7 => some .testing
  | _ => none

def Meaning.code : Meaning → Byte
  | .attention => 0
  | .offer => 1
  | .entering => 2
  | .outOfSection => 3
  | .cancel => 4
  | .obstruction => 5
  | .obstructionRemoved => 6
  | .testing => 7

def LeverRec.isSpare (r : LeverRec) : Bool := LeverKind.ofCode r.kind.toNat == some .spare
def LeverRec.isSignal (r : LeverRec) : Bool := LeverKind.ofCode r.kind.toNat == some .signal
/-- R3: bit 0 of the flags. -/
def LeverRec.lockFitted (r : LeverRec) : Bool := r.flags.getLsbD 0
/-- R4: the terms a record takes from the pool. -/
def LeverRec.poolUse (r : LeverRec) : Nat := r.reverseList.length + r.normalList.length
def LeverRec.terms (r : LeverRec) : List Term := r.reverseList ++ r.normalList

/-- Bit 0 of the flags: always-time (5.1). -/
def ApproachRec.alwaysTime (r : ApproachRec) : Bool := r.flags.getLsbD 0

/-- R124: bit 0 of the flags. -/
def SectionRec.fitted (r : SectionRec) : Bool := r.flags.getLsbD 0
/-- Bit 1 of the flags: attention required (7.1). -/
def SectionRec.attentionRequired (r : SectionRec) : Bool := r.flags.getLsbD 1

/-- R20 and R101: the transit limit is in seconds. -/
def FrameRec.limitMs (r : FrameRec) : Nat := r.transitLimit.toNat * 1000

/-- The number of a section among the four banks' records: A is 1. -/
def secNo : SectionId → Nat
  | .a => 1
  | .b => 2
  | .c => 3
  | .d => 4

/-- R191: sections are written A 0 to D 3. -/
def secCode : SectionId → Byte
  | .a => 0
  | .b => 1
  | .c => 2
  | .d => 3

def secOfCode : Nat → Option SectionId
  | 0 => some .a
  | 1 => some .b
  | 2 => some .c
  | 3 => some .d
  | _ => none

def allSections : List SectionId := [.a, .b, .c, .d]
def allLevers : List Nat := List.range' 1 48
def allTracks : List Nat := List.range' 1 24
def allSequences : List Nat := List.range' 1 16
def allLocks : List Nat := List.range' 1 16

/-- The default of every field of the BELL_TIMING record (6.1). -/
def defaultTiming : TimingRec where
  beatMinimum := 30
  longPress := 600
  heldPending := 800
  heldRing := 1500
  mergeGap := 60
  groupGap := 450
  codeEndGap := 1800
  repetition := 15
  attentionLife := 30

def orDefault (w d : Word16) : Word16 := if w = 0 then d else w

/-- R101: a field written 0 is given as "default" (R191), and the default is stored for it. -/
def TimingRec.filled (r : TimingRec) : TimingRec where
  beatMinimum := orDefault r.beatMinimum defaultTiming.beatMinimum
  longPress := orDefault r.longPress defaultTiming.longPress
  heldPending := orDefault r.heldPending defaultTiming.heldPending
  heldRing := orDefault r.heldRing defaultTiming.heldRing
  mergeGap := orDefault r.mergeGap defaultTiming.mergeGap
  groupGap := orDefault r.groupGap defaultTiming.groupGap
  codeEndGap := orDefault r.codeEndGap defaultTiming.codeEndGap
  repetition := orDefault r.repetition defaultTiming.repetition
  attentionLife := orDefault r.attentionLife defaultTiming.attentionLife

/-- R20: the transit limit and the lock travel time have defaults, the threshold has none. -/
def FrameRec.filled (r : FrameRec) : FrameRec where
  transitLimit := if r.transitLimit = 0 then Config.defaultTransitLimit.setWidth 8 else r.transitLimit
  travelTime := orDefault r.travelTime Config.defaultTravelTime
  threshold := r.threshold

/-- The record as the table stores it, with its defaults filled in (R20, R101, R176). -/
def Record.filled : Record → Record
  | .frame r => .frame r.filled
  | .timing r => .timing r.filled
  | .lever r => .lever r
  | .track r => .track r
  | .sequence r => .sequence r
  | .approach r => .approach r
  | .blockSection r => .blockSection r
  | .code r => .code r

def frameOf : List Record → Option FrameRec
  | [] => none
  | .frame r :: _ => some r
  | _ :: rs => frameOf rs

def timingOf : List Record → Option TimingRec
  | [] => none
  | .timing r :: _ => some r
  | _ :: rs => timingOf rs

def leverOf (n : Nat) : List Record → Option LeverRec
  | [] => none
  | .lever r :: rs => if r.number.toNat = n then some r else leverOf n rs
  | _ :: rs => leverOf n rs

def trackOf (n : Nat) : List Record → Option TrackRec
  | [] => none
  | .track r :: rs => if r.circuit.toNat = n then some r else trackOf n rs
  | _ :: rs => trackOf n rs

def sequenceOf (n : Nat) : List Record → Option SequenceRec
  | [] => none
  | .sequence r :: rs => if r.number.toNat = n then some r else sequenceOf n rs
  | _ :: rs => sequenceOf n rs

def approachOf (n : Nat) : List Record → Option ApproachRec
  | [] => none
  | .approach r :: rs => if r.number.toNat = n then some r else approachOf n rs
  | _ :: rs => approachOf n rs

def sectionOf (code : Nat) : List Record → Option SectionRec
  | [] => none
  | .blockSection r :: rs => if r.letter.toNat = code then some r else sectionOf code rs
  | _ :: rs => sectionOf code rs

def codeOf (n : Nat) : List Record → Option CodeRec
  | [] => none
  | .code r :: rs => if r.entry.toNat = n then some r else codeOf n rs
  | _ :: rs => codeOf n rs

end Sys2Proof.Machine
end

