-- ==== Sys2Proof/Machine/State.lean ====
section
/-! DEFINITION. The state of the part, block by block (00_scope.md 2), as plain data. The default of every
field is its value at reset: power-on with a copy that was never written and every input at rest. -/

namespace Sys2Proof.Machine

/-! ### Frame unit -/

/-- R22; coded 0 to 3. -/
inductive Position
  | normal | reverse | transit | contactFault
  deriving DecidableEq, Repr, Inhabited

/-- A proved end of a lever (R22). -/
inductive LeverEnd
  | normal | reverse
  deriving DecidableEq, Repr, Inhabited

/-- R29. -/
inductive LockCommand
  | free | held
  deriving DecidableEq, Repr, Inhabited

/-- The lever's record: contacts, position and moves (R22 to R28), the evaluator's verdict and blocking
term (R10, R12), the lock command and its window (R29 to R32), the conditions it holds (R41). -/
structure LeverState where
  normalMade : Bool := false
  reverseMade : Bool := false
  readback : Bool := false
  position : Position := .transit
  lastProved : Option LeverEnd := none
  provedBeforeFault : Bool := false
  transitSince : Time := 0
  notHome : Bool := false
  verdict : Bool := false
  blocking : Option Nat := none
  command : LockCommand := .held
  commandTime : Time := 0
  window : Option Time := none
  contactActive : Bool := false
  forcedActive : Bool := false
  driveActive : Bool := false
  stuckActive : Bool := false
  deriving DecidableEq, Repr, Inhabited

structure FrameUnit where
  levers : Bank LeverState 48 := Vector.replicate 48 {}
  supplyOn : Bool := true
  lowRun : Nat := 0
  lockSupply : Bool := false
  deriving DecidableEq, Repr, Inhabited

/-! ### Analog scanner -/

/-- R46; channel `c` is record `c + 1`. -/
structure Scanner where
  raw : Bank Sample 32 := Vector.replicate 32 0
  fresh : Bank Bool 32 := Vector.replicate 32 false
  deriving DecidableEq, Repr, Inhabited

/-! ### Track unit -/

/-- R49; coded 0 to 3. -/
inductive Occupancy
  | clear | occupied | outOfUse | failed
  deriving DecidableEq, Repr, Inhabited

/-- R51, in the order of R49; coded 0 to 3. -/
inductive SampleClass
  | energised | marginal | shunted | overRange
  deriving DecidableEq, Repr, Inhabited

/-- R49. -/
structure TrackState where
  state : Occupancy := .occupied
  acc : Nat := 0
  tally : Nat := 0
  overRun : Nat := 0
  lastRaw : Sample := 0
  lastClass : Option SampleClass := none
  degraded : Bool := false
  channelFault : Bool := false
  failedMark : Bool := false
  deriving DecidableEq, Repr, Inhabited

/-! ### Sequence monitor -/

/-- R73. -/
structure SequenceState where
  step : Nat := 0
  stepTime : Option Time := none
  latch : Bool := false
  unused : Bool := false
  deriving DecidableEq, Repr, Inhabited

/-- A consumption notification on its way to the monitor (R81, R82), with the table epoch it was sent under. -/
structure Notice where
  consumer : Consumer
  seq : Nat
  epoch : Nat
  deriving DecidableEq, Repr, Inhabited

/-- The monitor's answer on its way to the consumer (R82). -/
structure Answer where
  consumer : Consumer
  seq : Nat
  epoch : Nat
  consumed : Bool
  deriving DecidableEq, Repr, Inhabited

/-! ### Approach lock unit -/

/-- R87; coded 0 to 3. -/
inductive LockPhase
  | free | engaged | awaitRelease | timing
  deriving DecidableEq, Repr, Inhabited

/-- R87. -/
structure ApproachState where
  phase : LockPhase := .free
  remaining : Option Nat := none
  since : Time := 0
  releaseAsked : Bool := false
  deriving DecidableEq, Repr, Inhabited

/-! ### Bell unit -/

/-- A piece (R103): the latest period during which the input was pressed. `counted` says that it has
asked for the line drive (R104) or struck the sounder (R105). -/
structure Piece where
  start : Time
  release : Option Time
  counted : Bool
  deriving DecidableEq, Repr, Inhabited

/-- A press that has not settled (R106). `release` is absent while a piece of it is pressed; `gap` is the
gap before it, from the previous qualified press. -/
structure Press where
  start : Time
  release : Option Time
  qualified : Bool
  longReached : Bool
  pendingReached : Bool
  ringReached : Bool
  gap : Nat
  deriving DecidableEq, Repr, Inhabited

/-- A code in progress (R107). -/
structure Code where
  groups : List Nat
  malformed : Bool
  release : Option Time
  deriving DecidableEq, Repr, Inhabited

/-- One direction of a section's bells (R106, R107). -/
structure Assembler where
  piece : Option Piece := none
  press : Option Press := none
  code : Option Code := none
  deriving DecidableEq, Repr, Inhabited

/-- A repetition slot that holds a code (R115 to R117). -/
structure Slot where
  entry : Nat
  deadline : Time
  setAt : Time
  deriving DecidableEq, Repr, Inhabited

/-- The bell unit's record of a section (R103 to R123). -/
structure BellState where
  plunger : Bool := false
  sense : Bool := false
  outbound : Assembler := {}
  inbound : Assembler := {}
  crossed : Bool := false
  silentSince : Option Time := none
  heldSince : Option Time := none
  awaited : Option Slot := none
  owed : Option Slot := none
  driveSince : Option Time := none
  sounderUntil : Option Time := none
  deriving DecidableEq, Repr, Inhabited

/-! ### Block unit -/

/-- R126; coded 0 to 7. -/
inductive BlockState
  | blocked | offeredOut | clearOut | cancellingOut | onLineOut | offeredIn | clearIn | onLineIn
  deriving DecidableEq, Repr, Inhabited

/-- R126; coded 0 to 2. -/
inductive Polarity
  | positive | negative | none
  deriving DecidableEq, Repr, Inhabited

/-- R126; coded 0 to 4. -/
inductive Handle
  | lineBlocked | lineClear | trainOnLine | moving | unreadable
  deriving DecidableEq, Repr, Inhabited

/-- R129; coded 0 to 2. -/
inductive Drive
  | positive | negative | off
  deriving DecidableEq, Repr, Inhabited

/-- R126, with the two causes of INDICATOR_MISMATCH (R148), the handle's contacts (R140) and the hold
that can be re-tested (R142). -/
structure SectionState where
  state : Option BlockState := none
  releaseUsed : Bool := false
  obstruction : Bool := false
  attention : Option Time := none
  earlyClear : Bool := false
  cancelReceived : Bool := false
  outSent : Bool := false
  offered : Option Nat := none
  frozen : Bool := false
  consumeAsked : Bool := false
  measured : Polarity := .none
  candidate : Option Polarity := none
  candRun : Nat := 0
  scaleRun : Nat := 0
  mismatchRun : Nat := 0
  scaleCause : Bool := false
  driveCause : Bool := false
  blockedMade : Bool := false
  clearMade : Bool := false
  trainMade : Bool := false
  handle : Handle := .moving
  movingSince : Option Time := some 0
  outOfCorr : Bool := false
  retest : Bool := false
  drive : Drive := .off
  lastRaw : Sample := 0
  deriving DecidableEq, Repr, Inhabited

/-! ### Fault supervisor -/

/-- R151; coded 0 to 13. -/
inductive FaultClass
  | leverContact | leverForced | lockDrive | lockStuckFree | lockSupply | trackChannel | trackDegraded
  | indicatorMismatch | blockIrregular | bellCrossed | bellMisrepeat | bellNotRepeated | heldRing | store
  deriving DecidableEq, Repr, Inhabited

/-- 8.4. The object is written as the entry's class names it: a lever, a circuit, a section code, or 0. -/
structure FaultEntry where
  cls : FaultClass
  object : Nat
  raised : Time
  lastRaised : Time
  active : Bool
  count : Nat
  unmasked : Bool
  alarmPending : Bool
  deriving DecidableEq, Repr, Inhabited

/-- R153, R156, R160, R162. Bit `k` of `masked` is the class coded `k`; bit `k` of `frozenSet` the section
coded `k`; bit `k - 1` of `failedSet` circuit `k` (R191). -/
structure Supervisor where
  entries : List FaultEntry := []
  overflow : Bool := false
  overflowAlarm : Bool := false
  masked : BitVec 16 := 0x1EC5
  frameCut : Bool := false
  frozenSet : BitVec 4 := 0
  failedSet : BitVec 24 := 0
  shortAlarm : Option Time := none
  deriving DecidableEq, Repr, Inhabited

/-! ### Table store -/

/-- 9.1; coded 0 to 3. -/
inductive PartState
  | uncommissioned | proving | running | storing
  deriving DecidableEq, Repr, Inhabited

/-- R175, R191; coded 0 to 16. -/
inductive LoadReason
  | badValue | duplicate | listLong | badCondition | refRange | whenPassage | selfReference | refAbsent
  | spareTerms | poolFull | repeatedTrack | notSignal | timingOrder | ambiguous | frameCount | timingCount
  | tooMany
  deriving DecidableEq, Repr, Inhabited

/-- 9.2. -/
inductive LoadState
  | empty
  | opened
  | verified (fingerprint : Word16)
  | rejected (index : Nat) (reason : LoadReason)
  deriving DecidableEq, Repr, Inhabited

/-- A table with its fingerprint. -/
structure Table where
  records : List Record
  fingerprint : Word16
  deriving DecidableEq, Repr, Inhabited

/-- The non-volatile copy (R168, R170): never written, written whole, or not readable as a table. -/
inductive StoreCopy
  | blank
  | written (t : Table)
  | spoiled
  deriving DecidableEq, Repr, Inhabited

structure TableStore where
  part : PartState := .uncommissioned
  entered : Time := 0
  active : Option Table := none
  staged : List Record := []
  load : LoadState := .empty
  buffer : Option Table := none
  copy : StoreCopy := .blank
  deriving DecidableEq, Repr, Inhabited

/-! ### Link unit -/

/-- R191; coded 0 to 9. -/
inductive Category
  | lever | lock | track | seq | approach | sec | bell | handle | fault | part
  deriving DecidableEq, Repr, Inhabited

/-- A report (R186, R191): `event` is the row of its chapter's table; `detail` the bytes that follow. -/
structure Report where
  seq : Word16
  time : Time
  category : Category
  object : Nat
  event : Nat
  detail : List Byte
  deriving DecidableEq, Repr, Inhabited

/-- A character as the part sends it (R180): its mark bit and its data. -/
structure SentChar where
  mark : Bool
  data : Byte
  deriving DecidableEq, Repr, Inhabited

/-- R180, R186, R187, R189; `replies` are the bodies formed and not yet transmitted, `line` the last frame
transmitted (R182). Bit `k` of `filters` is the category coded `k`. -/
structure LinkUnit where
  address : BitVec 4 := 0
  rate : BitVec 2 := 0
  filters : BitVec 16 := 0x3FD
  queue : List Report := []
  lost : Nat := 0
  nextSeq : Word16 := 0
  replies : List (List Byte) := []
  line : List SentChar := []
  deriving DecidableEq, Repr, Inhabited

/-! ### The part -/

structure State where
  /-- The commands that wait, first in, first out. -/
  pending : List Instr := []
  /-- Milliseconds since power-on. -/
  now : Time := 0
  /-- The model's own: how many times the active table has changed since power-on. -/
  epoch : Nat := 0
  plungers : Bank Bool 8 := Vector.replicate 8 false
  resetKey : Bool := false
  commissioningKey : Bool := false
  frame : FrameUnit := {}
  scanner : Scanner := {}
  tracks : Bank TrackState 24 := Vector.replicate 24 {}
  seqs : Bank SequenceState 16 := Vector.replicate 16 {}
  notices : List Notice := []
  answers : List Answer := []
  locks : Bank ApproachState 16 := Vector.replicate 16 {}
  bells : Bank BellState 4 := Vector.replicate 4 {}
  sections : Bank SectionState 4 := Vector.replicate 4 {}
  faults : Supervisor := {}
  store : TableStore := {}
  link : LinkUnit := {}
  deriving DecidableEq, Repr, Inhabited

/-- Why the machine stops. Both are safe: the part has no such input or frame. -/
inductive Fault
  /-- Raised by a command whose number names no lever, plunger, sequence or approach lock of the part
  (00_scope.md 3.2). Safe: the machine stops where the part has nothing that could act. -/
  | noSuchObject
  /-- Raised by UNKNOWN_REQUEST_KIND with a kind byte that is a request kind (R183): the frame is that
  request's command. Safe: nothing is done under a false name. -/
  | knownKind
  deriving DecidableEq, Repr, Inhabited

/-- Why a command has no meaning here. -/
inductive Refusal
  /-- Raised by `exec` for a command without a meaning; no arm raises it. Safe. -/
  | notModelled (mnemonic : String)
  deriving DecidableEq, Repr, Inhabited

/-- What a meaning answers. -/
abbrev Result := Host.Outcome State Fault Refusal

/-- Power-on with a blank copy and every input at rest (R39, R46, R73, R120, R126, R153, R166, R168, R173,
R190), before the PART report of the power-on; log entry 3 names the values the manual leaves open. -/
def State.reset : State := {}

end Sys2Proof.Machine
end

