-- ==== Sys2Proof/Machine/Operands.lean ====
section
/-! DEFINITION. The operands of commands and the fields of records, replies and reports as bytes (R191,
R192), and the check of frames and tables (R176, R181). -/

namespace Sys2Proof.Machine

/-! ### Fields -/

/-- A number in one byte. -/
def byte (n : Nat) : Byte := BitVec.ofNat 8 n

/-- A word in two bytes, high byte first (R191). -/
def be16 (w : Word16) : List Byte := [(w >>> 8).setWidth 8, w.setWidth 8]

/-- A number in four bytes, high byte first (R191). -/
def be32 (n : Nat) : List Byte := [byte (n / 16777216), byte (n / 65536), byte (n / 256), byte n]

/-- Two bytes read as a word, high byte first (R191). -/
def word (hi lo : Byte) : Word16 := hi ++ lo

/-- A number in two bytes that saturates at 65535 (R191). -/
def sat16 (n : Nat) : List Byte := be16 (BitVec.ofNat 16 (min n 65535))

/-- The time since a moment in tenths of a second, two bytes, saturating (R191). DESIGN CHOICE, log entry 49: a part of
a tenth is dropped. -/
def elapsedTenths (now since : Time) : List Byte := sat16 ((now - since) / 100)

/-- The time left to a moment in two bytes. DESIGN CHOICE, log entry 40: tenths of a second, rounded down and
saturating, as R191 writes elapsed times. -/
def leftTenths (now due : Time) : List Byte := sat16 ((due - now) / 100)

/-- R191: an absent value is written 255; log entry 10 for the two-byte form. -/
def absent16 : List Byte := be16 255

def optByte : Option Nat → Byte
  | none => absent
  | some n => byte n

def flag (b : Bool) : Byte := if b then 1 else 0

/-- Bytes whose bits, from bit 0 up, are the flags of the list. -/
def flagBits : List Bool → Nat
  | [] => 0
  | b :: bs => (if b then 1 else 0) + 2 * flagBits bs

/-! ### The check -/

/-- One bit of the register of R176. -/
def crcBit (c : Word16) : Word16 := if c.msb then (c <<< 1) ^^^ 0x1021 else c <<< 1

/-- One byte into the register, most significant bit first (R176). -/
def crcByte (c : Word16) (b : Byte) : Word16 :=
  let c0 := c ^^^ (b.setWidth 16 <<< 8)
  crcBit (crcBit (crcBit (crcBit (crcBit (crcBit (crcBit (crcBit c0)))))))

/-- R176, R181: CRC-16, polynomial x^16 + x^12 + x^5 + 1, register starting at all ones, not inverted. -/
def crc16 (bs : List Byte) : Word16 := bs.foldl crcByte 0xFFFF

/-! ### Table records -/

def encodeTerm (t : Term) : List Byte := [t.mainKind, t.mainOperand, t.whenKind, t.whenOperand]

def encodeTerms : List Term → List Byte
  | [] => []
  | t :: ts => encodeTerm t ++ encodeTerms ts

/-- The record proper, from its kind byte (10.5, Table records). -/
def encodeRecord : Record → List Byte
  | .frame r => 0 :: r.transitLimit :: (be16 r.travelTime ++ be16 r.threshold)
  | .lever r =>
      1 :: r.number :: r.kind :: r.flags :: byte r.reverseList.length :: byte r.normalList.length ::
        (encodeTerms r.reverseList ++ encodeTerms r.normalList)
  | .track r => 2 :: r.circuit :: (be16 r.pick ++ be16 r.drop ++ [r.clearCount, r.degrade])
  | .sequence r => 3 :: r.number :: r.gate :: (be16 r.timeout ++ byte r.circuits.length :: r.circuits)
  | .approach r =>
      4 :: r.number :: r.signal :: r.track :: (be16 r.hold ++ [r.plunger, r.release, r.flags])
  | .blockSection r =>
      5 :: r.letter :: r.flags :: r.signal :: r.home :: r.arrival :: r.clearing :: r.codeSet ::
        r.classes :: (be16 r.onLevel ++ be16 r.offLevel)
  | .timing r =>
      6 :: (be16 r.beatMinimum ++ be16 r.longPress ++ be16 r.heldPending ++ be16 r.heldRing ++
        be16 r.mergeGap ++ be16 r.groupGap ++ be16 r.codeEndGap ++ be16 r.repetition ++
        be16 r.attentionLife)
  | .code r => 7 :: r.entry :: r.meaning :: r.trainClass :: r.codeSets :: byte r.groups.length :: r.groups

/-- Exactly `n` terms of four bytes each, and what follows them. -/
def parseTerms : Nat → List Byte → Option (List Term × List Byte)
  | 0, bs => some ([], bs)
  | n + 1, a :: b :: c :: d :: bs =>
      match parseTerms n bs with
      | none => none
      | some (ts, rest) => some (⟨a, b, c, d⟩ :: ts, rest)
  | _ + 1, _ => none

/-- R192: both lists of a LEVER record, the body exactly as long as its counts require. -/
def parseLists (r m : Nat) (bs : List Byte) : Option (List Term × List Term) :=
  match parseTerms r bs with
  | none => none
  | some (rs, rest) =>
      match parseTerms m rest with
      | some (ms, []) => some (rs, ms)
      | _ => none

/-- R192: a record proper that fits the layout of its kind; none for any other body. -/
def parseRecord : List Byte → Option Record
  | [0, a, b, c, d, e] => some (.frame ⟨a, word b c, word d e⟩)
  | 1 :: n :: k :: f :: r :: m :: bs =>
      match parseLists r.toNat m.toNat bs with
      | none => none
      | some (rs, ms) => some (.lever ⟨n, k, f, rs, ms⟩)
  | [2, t, p1, p2, d1, d2, c, l] => some (.track ⟨t, word p1 p2, word d1 d2, c, l⟩)
  | 3 :: n :: g :: t1 :: t2 :: k :: cs =>
      if cs.length = k.toNat then some (.sequence ⟨n, g, word t1 t2, cs⟩) else none
  | [4, n, s, t, h1, h2, p, q, f] => some (.approach ⟨n, s, t, word h1 h2, p, q, f⟩)
  | [5, x, f, s, h, a, c, k, p, i1, i2, o1, o2] =>
      some (.blockSection ⟨x, f, s, h, a, c, k, p, word i1 i2, word o1 o2⟩)
  | [6, a1, a2, b1, b2, c1, c2, d1, d2, e1, e2, f1, f2, g1, g2, h1, h2, i1, i2] =>
      some (.timing ⟨word a1 a2, word b1 b2, word c1 c2, word d1 d2, word e1 e2, word f1 f2, word g1 g2,
        word h1 h2, word i1 i2⟩)
  | 7 :: e :: m :: c :: s :: g :: gs =>
      if gs.length = g.toNat then some (.code ⟨e, m, c, s, gs⟩) else none
  | _ => none

/-! ### Codes (R191: an enumerated value is its position in its table) -/

def Position.code : Position → Byte
  | .normal => 0
  | .reverse => 1
  | .transit => 2
  | .contactFault => 3

def LeverEnd.code : LeverEnd → Byte
  | .normal => 0
  | .reverse => 1

def optEnd : Option LeverEnd → Byte
  | none => absent
  | some e => e.code

def Occupancy.code : Occupancy → Byte
  | .clear => 0
  | .occupied => 1
  | .outOfUse => 2
  | .failed => 3

def SampleClass.code : SampleClass → Byte
  | .energised => 0
  | .marginal => 1
  | .shunted => 2
  | .overRange => 3

def LockPhase.code : LockPhase → Byte
  | .free => 0
  | .engaged => 1
  | .awaitRelease => 2
  | .timing => 3

def BlockState.code : BlockState → Byte
  | .blocked => 0
  | .offeredOut => 1
  | .clearOut => 2
  | .cancellingOut => 3
  | .onLineOut => 4
  | .offeredIn => 5
  | .clearIn => 6
  | .onLineIn => 7

def optBlock : Option BlockState → Byte
  | none => absent
  | some b => b.code

def Polarity.code : Polarity → Byte
  | .positive => 0
  | .negative => 1
  | .none => 2

def Handle.code : Handle → Byte
  | .lineBlocked => 0
  | .lineClear => 1
  | .trainOnLine => 2
  | .moving => 3
  | .unreadable => 4

def Drive.code : Drive → Byte
  | .positive => 0
  | .negative => 1
  | .off => 2

def dirCode : Direction → Byte
  | .outbound => 0
  | .inbound => 1

/-- 8.1: LEVER_CONTACT 0 to STORE 13. -/
def FaultClass.number : FaultClass → Nat
  | .leverContact => 0
  | .leverForced => 1
  | .lockDrive => 2
  | .lockStuckFree => 3
  | .lockSupply => 4
  | .trackChannel => 5
  | .trackDegraded => 6
  | .indicatorMismatch => 7
  | .blockIrregular => 8
  | .bellCrossed => 9
  | .bellMisrepeat => 10
  | .bellNotRepeated => 11
  | .heldRing => 12
  | .store => 13

def FaultClass.code (c : FaultClass) : Byte := byte c.number

def PartState.code : PartState → Byte
  | .uncommissioned => 0
  | .proving => 1
  | .running => 2
  | .storing => 3

def LoadReason.code : LoadReason → Byte
  | .badValue => 0
  | .duplicate => 1
  | .listLong => 2
  | .badCondition => 3
  | .refRange => 4
  | .whenPassage => 5
  | .selfReference => 6
  | .refAbsent => 7
  | .spareTerms => 8
  | .poolFull => 9
  | .repeatedTrack => 10
  | .notSignal => 11
  | .timingOrder => 12
  | .ambiguous => 13
  | .frameCount => 14
  | .timingCount => 15
  | .tooMany => 16

def LoadState.code : LoadState → Byte
  | .empty => 0
  | .opened => 1
  | .verified _ => 2
  | .rejected _ _ => 3

/-- 10.5: LEVER 0 to PART 9. -/
def Category.number : Category → Nat
  | .lever => 0
  | .lock => 1
  | .track => 2
  | .seq => 3
  | .approach => 4
  | .sec => 5
  | .bell => 6
  | .handle => 7
  | .fault => 8
  | .part => 9

/-- The consumer as a code in the order of R84 (a lever number, a section, an approach lock), then its number. DESIGN
CHOICE, log entry 50: that both are written, the code (R191) and then the number (R84's row). -/
def consumerBytes : Consumer → List Byte
  | .lever n => [0, byte n]
  | .block s => [1, secCode s]
  | .approach a => [2, byte a]

/-- A set of sequences in two bytes, bit k − 1 for member k (R191). -/
def sequenceSet (qs : List Nat) : List Byte :=
  be16 (BitVec.ofNat 16 (flagBits (allSequences.map (fun q => qs.contains q))))

/-- A pattern: its group count and four beat counts (R191). -/
def patternBytes (gs : List Nat) : List Byte :=
  [byte gs.length, byte (gs.getD 0 0), byte (gs.getD 1 0), byte (gs.getD 2 0), byte (gs.getD 3 0)]

/-! ### Outcomes of requests (10.5) -/

inductive ReplyOutcome
  | accepted | badKind | badField | wrongState | noTable | keyOff | mismatch | notQuiet | busy
  | alwaysUnmasked
  deriving DecidableEq, Repr, Inhabited

def ReplyOutcome.code : ReplyOutcome → Byte
  | .accepted => 0
  | .badKind => 1
  | .badField => 2
  | .wrongState => 3
  | .noTable => 4
  | .keyOff => 5
  | .mismatch => 6
  | .notQuiet => 7
  | .busy => 8
  | .alwaysUnmasked => 9

/-! ### Request kinds (10.5) -/

inductive RequestKind
  | identify | poll | readLevers | readTracks | readSection | readApproach | readSequences | readRaw
  | readFaults | readTable | takeFaults | setMasks | setReporting | trackOutOfUse | trackInUse
  | loadBegin | loadRecord | loadAbandon | loadStatus | commission | linkReset
  deriving DecidableEq, Repr, Inhabited

def RequestKind.code : RequestKind → Byte
  | .identify => 1
  | .poll => 2
  | .readLevers => 16
  | .readTracks => 17
  | .readSection => 18
  | .readApproach => 19
  | .readSequences => 20
  | .readRaw => 21
  | .readFaults => 22
  | .readTable => 23
  | .takeFaults => 32
  | .setMasks => 33
  | .setReporting => 34
  | .trackOutOfUse => 35
  | .trackInUse => 36
  | .loadBegin => 48
  | .loadRecord => 49
  | .loadAbandon => 50
  | .loadStatus => 51
  | .commission => 52
  | .linkReset => 63

def RequestKind.ofCode : Nat → Option RequestKind
  | 1 => some .identify
  | 2 => some .poll
  | 16 => some .readLevers
  | 17 => some .readTracks
  | 18 => some .readSection
  | 19 => some .readApproach
  | 20 => some .readSequences
  | 21 => some .readRaw
  | 22 => some .readFaults
  | 23 => some .readTable
  | 32 => some .takeFaults
  | 33 => some .setMasks
  | 34 => some .setReporting
  | 35 => some .trackOutOfUse
  | 36 => some .trackInUse
  | 48 => some .loadBegin
  | 49 => some .loadRecord
  | 50 => some .loadAbandon
  | 51 => some .loadStatus
  | 52 => some .commission
  | 63 => some .linkReset
  | _ => none

end Sys2Proof.Machine
end

