-- ==== Sys2Proof/WellFormed.lean ====
section
/-! DEFINITION. Which commands exist at the part: numbers inside the manual's ranges (00_scope.md 3.2), a
request body that a frame can carry (R181), and an unknown kind that is unknown (R183). -/

namespace Sys2Proof

def leverOk (n : Nat) : Bool := 1 ≤ n && n ≤ 48
def plungerOk (n : Nat) : Bool := 1 ≤ n && n ≤ 8
def sequenceOk (n : Nat) : Bool := 1 ≤ n && n ≤ 16
def lockOk (n : Nat) : Bool := 1 ≤ n && n ≤ 16

def consumerOk : Consumer → Bool
  | .lever n => leverOk n
  | .block _ => true
  | .approach a => lockOk a

/-- R181: the kind byte and the fields are at most 250 bytes. -/
def fieldsOk (fields : List Byte) : Bool := fields.length + 1 ≤ 250

/-- The commands that exist at the part. -/
def Instr.wellFormed : Instr → Bool
  | .powerOn _ => true
  | .identify f => fieldsOk f
  | .poll f => fieldsOk f
  | .readLevers f => fieldsOk f
  | .readTracks f => fieldsOk f
  | .readSection f => fieldsOk f
  | .readApproach f => fieldsOk f
  | .readSequences f => fieldsOk f
  | .readRaw f => fieldsOk f
  | .readFaults f => fieldsOk f
  | .takeFaults f => fieldsOk f
  | .setMasks f => fieldsOk f
  | .setReporting f => fieldsOk f
  | .trackOutOfUse f => fieldsOk f
  | .trackInUse f => fieldsOk f
  | .loadBegin f => fieldsOk f
  | .loadAbandon f => fieldsOk f
  | .loadRecord f => fieldsOk f
  | .loadStatus f => fieldsOk f
  | .commission f _ => fieldsOk f
  | .readTable f => fieldsOk f
  | .linkReset f _ => fieldsOk f
  | .unknownRequestKind k f => (Machine.RequestKind.ofCode k.toNat).isNone && fieldsOk f
  | .frameDiscarded _ => true
  | .interCharacterGap => true
  | .replyTransmission => true
  | .scanPass _ => true
  | .leverContactChange n _ _ => leverOk n
  | .transitLimit n => leverOk n
  | .lockReadbackChange n _ => leverOk n
  | .readbackWindowClose n => leverOk n
  | .plungerChange k _ => plungerOk k
  | .boxResetKey _ => true
  | .handleContactChange _ _ _ => true
  | .handleMovingTimeout _ => true
  | .bellPlungerChange _ _ => true
  | .bellSenseChange _ _ => true
  | .regenerationDriveStart _ => true
  | .driveEnd _ => true
  | .sounderStrike _ => true
  | .sounderOff _ => true
  | .pressQualifies _ _ => true
  | .longPressReached _ _ => true
  | .heldPendingReached _ _ => true
  | .heldRing _ _ => true
  | .pressSettles _ _ => true
  | .codeEnd _ _ => true
  | .crossingCleared _ => true
  | .awaitedDeadline _ => true
  | .owedDeadline _ => true
  | .attentionLapsed _ => true
  | .stepTimeout q => sequenceOk q
  | .consumptionNotification c q => consumerOk c && sequenceOk q
  | .approachConsumptionAnswer a => lockOk a
  | .blockConsumptionAnswer _ => true
  | .approachCountdownStep a => lockOk a
  | .approachExpiry a => lockOk a
  | .provingEnd => true
  | .storeWriteComplete => true
  | .storeWriteFailed => true
  | .shortAlarmEnd => true

end Sys2Proof
end

