-- ==== Sys2Proof/Machine/Ops.lean ====
section
/-! DEFINITION. The named operations on the records of State, the lookups in the active table, and the
production of reports (R186, R187) and replies (R182). -/

namespace Sys2Proof.Machine

/-! ### Banks -/

/-- Record number `k`, counted from 1. -/
def Bank.at {α : Type} [Inhabited α] {n : Nat} (b : Bank α n) : Nat → α
  | 0 => default
  | j + 1 => (b[j]?).getD default

/-- The bank with record number `k` replaced. A number outside the bank replaces nothing. -/
def Bank.put {α : Type} {n : Nat} (b : Bank α n) (k : Nat) (v : α) : Bank α n :=
  match k with
  | 0 => b
  | j + 1 => b.setIfInBounds j v

namespace State

def lever (s : State) (n : Nat) : LeverState := Bank.at s.frame.levers n
def track (s : State) (n : Nat) : TrackState := Bank.at s.tracks n
def seqn (s : State) (n : Nat) : SequenceState := Bank.at s.seqs n
def lockn (s : State) (n : Nat) : ApproachState := Bank.at s.locks n
def bell (s : State) (x : SectionId) : BellState := Bank.at s.bells (secNo x)
def sectn (s : State) (x : SectionId) : SectionState := Bank.at s.sections (secNo x)

def updLever (n : Nat) (f : LeverState → LeverState) (s : State) : State :=
  { s with frame := { s.frame with levers := Bank.put s.frame.levers n (f (s.lever n)) } }

def updTrack (n : Nat) (f : TrackState → TrackState) (s : State) : State :=
  { s with tracks := Bank.put s.tracks n (f (s.track n)) }

def updSeq (n : Nat) (f : SequenceState → SequenceState) (s : State) : State :=
  { s with seqs := Bank.put s.seqs n (f (s.seqn n)) }

def updLock (n : Nat) (f : ApproachState → ApproachState) (s : State) : State :=
  { s with locks := Bank.put s.locks n (f (s.lockn n)) }

def updBell (x : SectionId) (f : BellState → BellState) (s : State) : State :=
  { s with bells := Bank.put s.bells (secNo x) (f (s.bell x)) }

def updSect (x : SectionId) (f : SectionState → SectionState) (s : State) : State :=
  { s with sections := Bank.put s.sections (secNo x) (f (s.sectn x)) }

def setFaults (f : Supervisor) (s : State) : State := { s with faults := f }
def setStore (t : TableStore) (s : State) : State := { s with store := t }
def setLink (l : LinkUnit) (s : State) : State := { s with link := l }

/-! ### The active table -/

/-- The records the blocks work to: those of the active table, in STORING of the one active before
(R170), and none without a table. -/
def table (s : State) : List Record :=
  match s.store.active with
  | none => []
  | some t => t.records

def hasTable (s : State) : Bool := s.store.active.isSome

def frameRec (s : State) : Option FrameRec := frameOf s.table
def leverRec (s : State) (n : Nat) : Option LeverRec := leverOf n s.table
def trackRec (s : State) (n : Nat) : Option TrackRec := trackOf n s.table
def seqRec (s : State) (n : Nat) : Option SequenceRec := sequenceOf n s.table
def approachRec (s : State) (n : Nat) : Option ApproachRec := approachOf n s.table

/-- R124: the SECTION record of a fitted section. -/
def sectionRec (s : State) (x : SectionId) : Option SectionRec :=
  (sectionOf (secCode x).toNat s.table).filter SectionRec.fitted

/-- R102: the record of the active table, and the defaults without one. -/
def timing (s : State) : TimingRec := (timingOf s.table).getD defaultTiming

def leverFitted (s : State) (n : Nat) : Bool := (s.leverRec n).isSome
def trackFitted (s : State) (n : Nat) : Bool := (s.trackRec n).isSome
def seqFitted (s : State) (n : Nat) : Bool := (s.seqRec n).isSome
def approachFitted (s : State) (n : Nat) : Bool := (s.approachRec n).isSome
def sectionFitted (s : State) (x : SectionId) : Bool := (s.sectionRec x).isSome

/-- R29, R30: a fitted lever with its lock-fitted flag set carries a lock. -/
def hasLock (s : State) (n : Nat) : Bool := (s.leverRec n).any LeverRec.lockFitted

/-- R20: the lock travel time of the frame record, in ms. -/
def travelTime (s : State) : Nat := (s.frameRec.map (·.travelTime.toNat)).getD 0

/-- R20: the transit limit of the frame record, in ms. -/
def transitLimit (s : State) : Nat := (s.frameRec.map FrameRec.limitMs).getD 0

def isStoring (s : State) : Bool := s.store.part == .storing
def isRunning (s : State) : Bool := s.store.part == .running

/-! ### Reports -/

/-- R189: whether the category is enabled. -/
def reports (s : State) (c : Category) : Bool := s.link.filters.getLsbD c.number

/-- R186, R187: a report of a disabled category is not produced; a produced report takes the next sequence
number and the time, and joins the queue or is counted lost. -/
def report (c : Category) (object event : Nat) (detail : List Byte) (s : State) : State :=
  if s.reports c then
    let r : Report := { seq := s.link.nextSeq, time := s.now, category := c, object := object,
                        event := event, detail := detail }
    if s.link.queue.length < Config.queueSize then
      { s with link := { s.link with nextSeq := s.link.nextSeq + 1, queue := s.link.queue ++ [r] } }
    else
      { s with link := { s.link with nextSeq := s.link.nextSeq + 1, lost := min 65535 (s.link.lost + 1) } }
  else s

/-! ### Replies -/

/-- R182: one reply is formed, its body the request's kind byte, the outcome and the data. -/
def reply (kind : Byte) (o : ReplyOutcome) (data : List Byte) (s : State) : State :=
  { s with link := { s.link with replies := s.link.replies ++ [kind :: o.code :: data] } }

/-- R183: a refusal carries no data and changes nothing. -/
def refuse (kind : Byte) (o : ReplyOutcome) (s : State) : State := s.reply kind o []

def accept (kind : Byte) (data : List Byte) (s : State) : State := s.reply kind .accepted data

end State

/-- The fold of one operation over numbered objects, in order. -/
def forEach {α : Type} (xs : List α) (f : α → State → State) (s : State) : State :=
  xs.foldl (fun t x => f x t) s

/-- A command that names an object: the machine stops where the part has none (Fault.noSuchObject). -/
def onObject (ok : Bool) (s : State) : Result :=
  if ok then .next s else .fault .noSuchObject

end Sys2Proof.Machine
end

