-- ==== Sys2Proof/Machine/Flags.lean ====
section
/-! DEFINITION. What is computed from the state and not held in it: the truth of conditions, terms and lists
(R5 to R10), governing lists and verdicts (R11, R12), the desired lock command (R29), the enabled channels
(R44), the drive, the lamps and the corresponding handle position (R129, R130, R140), the quiet frame (R177),
and the responses, the alarm and the fault lamp (R155, R161, R162). -/

namespace Sys2Proof.Machine

/-! ### Positions (R22) -/

def positionOf (normalMade reverseMade : Bool) : Position :=
  match normalMade, reverseMade with
  | true, false => .normal
  | false, true => .reverse
  | false, false => .transit
  | true, true => .contactFault

def Position.provedEnd : Position → Option LeverEnd
  | .normal => some .normal
  | .reverse => some .reverse
  | .transit => none
  | .contactFault => none

def LeverEnd.position : LeverEnd → Position
  | .normal => .normal
  | .reverse => .reverse

def LeverEnd.other : LeverEnd → LeverEnd
  | .normal => .reverse
  | .reverse => .normal

/-! ### Conditions (1.2), terms and lists (1.3) -/

namespace State

/-- R5 to R8. A condition that names an object that is not fitted is false, but for TRACK_OCCUPIED, which is
the complement of TRACK_CLEAR (R6). -/
def conditionHolds (s : State) (k : ConditionKind) (x : Nat) : Bool :=
  match k with
  | .leverNormal => s.leverFitted x && (s.lever x).position == .normal
  | .leverReverse => s.leverFitted x && (s.lever x).position == .reverse
  | .trackClear => s.trackFitted x && (s.track x).state == .clear
  | .trackOccupied => !(s.trackFitted x && (s.track x).state == .clear)
  | .sectionRelease =>
      match secOfCode x with
      | none => false
      | some y =>
        let r := s.sectn y
        s.sectionFitted y && r.state == some .clearOut && !r.releaseUsed && !r.obstruction && !r.frozen
  | .sectionBlocked =>
      match secOfCode x with
      | none => false
      | some y => s.sectionFitted y && (s.sectn y).state == some .blocked && !(s.sectn y).frozen
  | .approachFree => s.approachFitted x && (s.lockn x).phase == .free
  | .passage => s.seqFitted x && (s.seqn x).latch
  | .plunger => Bank.at s.plungers x

/-- A condition as the table writes it; a kind outside the table of 1.2 holds never (verification refuses it). -/
def codeHolds (s : State) (kind operand : Byte) : Bool :=
  match ConditionKind.ofCode kind.toNat with
  | none => false
  | some k => s.conditionHolds k operand.toNat

/-- R9: the when-condition of a term is absent or true. -/
def whenApplies (s : State) (t : Term) : Bool := t.whenKind == absent || s.codeHolds t.whenKind t.whenOperand

/-- R9. -/
def termSatisfied (s : State) (t : Term) : Bool :=
  s.codeHolds t.mainKind t.mainOperand || !s.whenApplies t

/-- R10: the position, from `i`, of the first unsatisfied term. -/
def firstUnsatisfied (s : State) : Nat → List Term → Option Nat
  | _, [] => none
  | i, t :: ts => if s.termSatisfied t then firstUnsatisfied s (i + 1) ts else some i

end State

/-- R11: the list that governs, named by the end of the stroke it decides; none where none governs. -/
def LeverState.governing (l : LeverState) : Option LeverEnd :=
  match l.position with
  | .normal => some .reverse
  | .reverse => some .normal
  | .transit => l.lastProved.map LeverEnd.other
  | .contactFault => none

/-- The list of a stroke to an end (1.1). -/
def LeverRec.listTo (r : LeverRec) : LeverEnd → List Term
  | .reverse => r.reverseList
  | .normal => r.normalList

namespace State

/-- R10, R12: the verdict of a lever and its blocking term. -/
def verdictOf (s : State) (n : Nat) : Bool × Option Nat :=
  match s.leverRec n with
  | none => (false, none)
  | some r =>
    match (s.lever n).governing with
    | none => (false, none)
    | some e =>
      let b := s.firstUnsatisfied 1 (r.listTo e)
      (b.isNone && !r.isSpare, b)

/-- R29: whether the lock of a lever is to be FREE. -/
def wantsFree (s : State) (n : Nat) : Bool :=
  s.isRunning && s.frame.supplyOn && s.hasLock n && (s.verdictOf n).1

/-- R25, R26: a move of a lever with a lock is forced when the lock has been HELD longer than the lock
travel time. -/
def forced (s : State) (n : Nat) : Bool :=
  s.hasLock n && (s.lever n).command == .held && s.travelTime < s.now - (s.lever n).commandTime

/-- R15: the sequences whose latches a completed stroke to an end consumes, each once. -/
def consumedBy (s : State) (n : Nat) (e : LeverEnd) : List Nat :=
  match s.leverRec n with
  | none => []
  | some r =>
    allSequences.filter fun q =>
      (r.listTo e).any fun t =>
        ConditionKind.ofCode t.mainKind.toNat == some .passage && t.mainOperand.toNat == q &&
        s.conditionHolds .passage q && s.whenApplies t

/-! ### Channels (R44) -/

/-- R44: without a table channels 0 to 28, with one the channels of its fitted circuits and sections and
channel 28. -/
def channelEnabled (s : State) (c : Nat) : Bool :=
  if s.hasTable then
    if c < 24 then s.trackFitted (c + 1)
    else
      match secOfCode (c - 24) with
      | some x => s.sectionFitted x
      | none => c == 28
  else c ≤ 28

end State

/-! ### Sections -/

/-- R129: the drive of a state. -/
def driveOf : Option BlockState → Drive
  | some .clearIn => .positive
  | some .onLineIn => .negative
  | _ => .off

/-- The polarity a drive gives the line, if it is on. -/
def Drive.polarity : Drive → Option Polarity
  | .positive => some .positive
  | .negative => some .negative
  | .off => none

/-- R140: the handle position that corresponds to a state. -/
def handleFor : BlockState → Handle
  | .clearIn => .lineClear
  | .onLineIn => .trainOnLine
  | .blocked | .offeredOut | .clearOut | .cancellingOut | .onLineOut | .offeredIn => .lineBlocked

/-- R140: the handle as derived from its contacts, before the 500 ms of MOVING have passed. -/
def handleOf (blocked clear train : Bool) : Handle :=
  match blocked, clear, train with
  | true, false, false => .lineBlocked
  | false, true, false => .lineClear
  | false, false, true => .trainOnLine
  | false, false, false => .moving
  | _, _, _ => .unreadable

/-- R130: the lit repeater lamp, coded as the handle positions (LINE BLOCKED 0, LINE CLEAR 1, TRAIN ON LINE
2); none dark. -/
def litLamp : Option BlockState → Option Nat
  | none => none
  | some .blocked | some .offeredOut | some .cancellingOut | some .offeredIn => some 0
  | some .clearOut | some .clearIn => some 1
  | some .onLineOut | some .onLineIn => some 2

/-- What a repeater lamp shows. -/
inductive LampLight
  | dark | steady | flashing
  deriving DecidableEq, Repr, Inhabited

/-- R130: a section's repeater lamp, numbered as `litLamp` numbers them: the lit one flashes while the section is
frozen, and a section that is not fitted shows none. -/
def State.repeaterLamp (s : State) (x : SectionId) (k : Nat) : LampLight :=
  if s.sectionFitted x && litLamp (s.sectn x).state == some k then
    if (s.sectn x).frozen then .flashing else .steady
  else .dark

/-- R148: INDICATOR_MISMATCH is active while either cause is. -/
def SectionState.mismatch (r : SectionState) : Bool := r.scaleCause || r.driveCause

/-! ### The quiet frame (R177) -/

def State.quiet (s : State) : Bool :=
  allLevers.all (fun n => !s.leverFitted n || (s.lever n).position == .normal) &&
  allSections.all (fun x => !s.sectionFitted x || (s.sectn x).state == some .blocked) &&
  allLocks.all (fun a => !s.approachFitted a || !((s.lockn a).phase == .timing || (s.lockn a).phase == .awaitRelease))

/-! ### Fault classes and responses (R151, R153, R155) -/

/-- R153: LEVER_FORCED, LOCK_STUCK_FREE and STORE have no place in the mask set. -/
def FaultClass.maskable : FaultClass → Bool
  | .leverForced | .lockStuckFree | .store => false
  | _ => true

/-- R151: all except the three bell classes. -/
def FaultClass.isAlarm : FaultClass → Bool
  | .bellCrossed | .bellMisrepeat | .bellNotRepeated => false
  | _ => true

/-- R156: the order an unmasked response sends. -/
inductive Order
  | frameCut | fail | freeze
  deriving DecidableEq, Repr, Inhabited

def FaultClass.order : FaultClass → Option Order
  | .leverForced | .lockStuckFree => some .frameCut
  | .trackChannel | .trackDegraded => some .fail
  | .indicatorMismatch | .blockIrregular => some .freeze
  | _ => none

/-- The order of a raise with the given response, coded for the report of R167. -/
def orderByte (c : FaultClass) (unmasked : Bool) : Byte :=
  if unmasked then
    match c.order with
    | none => absent
    | some .frameCut => 0
    | some .fail => 1
    | some .freeze => 2
  else absent

def FaultEntry.is (c : FaultClass) (obj : Nat) (e : FaultEntry) : Bool := e.cls == c && e.object == obj

def Supervisor.entryOf (f : Supervisor) (c : FaultClass) (obj : Nat) : Option FaultEntry :=
  f.entries.find? (FaultEntry.is c obj)

/-- R155: the response of a raise taken now. -/
def Supervisor.unmaskedFor (f : Supervisor) (c : FaultClass) (obj : Nat) : Bool :=
  !c.maskable || !f.masked.getLsbD c.number || (f.entryOf c obj).any (·.unmasked)

/-- R162. -/
def State.alarmSounds (s : State) : Bool :=
  s.faults.entries.any (·.alarmPending) || (s.faults.overflow && s.faults.overflowAlarm) ||
    s.faults.shortAlarm.isSome

/-- R161, R191: 0 dark, 1 steady, 2 flashing. -/
def State.lamp (s : State) : Nat :=
  if s.faults.entries.isEmpty && !s.faults.overflow then 0
  else if s.faults.entries.any (fun e => e.unmasked && !e.cls.isAlarm) then 2
  else 1

end Sys2Proof.Machine
end

