-- ==== Sys2Proof/Machine/Supervisor.lean ====
section
/-! DEFINITION. The fault list: how the supervisor takes a raise and an end (R152, R155 to R160, R162, R167).
The orders of R156 stand in Machine/Orders.lean. -/

namespace Sys2Proof.Machine

/-- R157: a new entry. `momentary`: the raise and the end are handed together (R152). -/
def newEntry (c : FaultClass) (obj : Nat) (now : Time) (unmasked momentary : Bool) : FaultEntry where
  cls := c
  object := obj
  raised := now
  lastRaised := now
  active := !momentary
  count := 1
  unmasked := unmasked
  alarmPending := unmasked && c.isAlarm

/-- R158: a recurrence on an entry. -/
def FaultEntry.recur (now : Time) (unmasked momentary : Bool) (e : FaultEntry) : FaultEntry :=
  { e with active := !momentary, count := min 255 (e.count + 1), lastRaised := now, unmasked := unmasked,
           alarmPending := (unmasked && e.cls.isAlarm) || e.alarmPending }

def responseByte (unmasked : Bool) : Byte := flag unmasked

namespace State

def setEntries (es : List FaultEntry) (s : State) : State := s.setFaults { s.faults with entries := es }

/-- R160: the overflow flag, with the alarm it carries. -/
def setOverflow (alarm : Bool) (s : State) : State :=
  s.setFaults { s.faults with overflow := true, overflowAlarm := s.faults.overflowAlarm || alarm }

/-- R157, R160: a raise without an entry makes one, displaces the first ENDED entry of a full list for it, or
finds no room. The reports go in the order of R167's table (R186). DESIGN CHOICE, log entry 53: the object of a "displaced"
report is the displaced entry's, in its object byte as in its detail. -/
def enterNew (c : FaultClass) (obj : Nat) (unmasked momentary : Bool) (s : State) : State :=
  let e := newEntry c obj s.now unmasked momentary
  let made (t : State) : State :=
    if momentary then t.report .fault obj 5 [c.code, responseByte unmasked, 1]
    else t.report .fault obj 1 [c.code, responseByte unmasked, orderByte c unmasked]
  if s.faults.entries.length < Config.faultListSize then
    made (s.setEntries (s.faults.entries ++ [e]))
  else
    match s.faults.entries.find? (fun x => !x.active) with
    | some d =>
      let s1 := s.setEntries (s.faults.entries.eraseP (fun x => !x.active) ++ [e])
      let s2 := if d.alarmPending then s1.setOverflow true else s1
      (made s2).report .fault d.object 6 [d.cls.code, byte d.object]
    | none => (s.setOverflow false).report .fault obj 3 [c.code, responseByte unmasked]

/-- R158. -/
def enterRecurrence (c : FaultClass) (obj : Nat) (e : FaultEntry) (unmasked momentary : Bool) (s : State) :
    State :=
  let s1 := s.setEntries (s.faults.entries.map fun x =>
    if x.is c obj then x.recur s.now unmasked momentary else x)
  let n := byte (min 255 (e.count + 1))
  if momentary then s1.report .fault obj 5 [c.code, responseByte unmasked, n]
  else s1.report .fault obj 2 [c.code, responseByte unmasked, n]

/-- R162: the alarm carried by the overflow flag, and the short alarm of a masked HELD_RING. -/
def soundFor (c : FaultClass) (unmasked : Bool) (s : State) : State :=
  let s1 := if unmasked && c.isAlarm && s.faults.overflow then s.setOverflow true else s
  if c == .heldRing && !unmasked then
    s1.setFaults { s1.faults with shortAlarm := some (s1.now + Config.shortAlarmTime) }
  else s1

/-- R155 to R160: a raise taken into the list, without the order it may send. -/
def enterRaise (c : FaultClass) (obj : Nat) (momentary : Bool) (s : State) : State :=
  let unmasked := s.faults.unmaskedFor c obj
  let s1 :=
    match s.faults.entryOf c obj with
    | some e => s.enterRecurrence c obj e unmasked momentary
    | none => s.enterNew c obj unmasked momentary
  s1.soundFor c unmasked

/-- R159: an end taken: an ACTIVE entry goes ENDED, and nothing else changes. -/
def endFault (c : FaultClass) (obj : Nat) (s : State) : State :=
  match s.faults.entryOf c obj with
  | none => s
  | some e =>
    if e.active then
      (s.setEntries (s.faults.entries.map fun x => if x.is c obj then { x with active := false } else x)).report
        .fault obj 4 [c.code]
    else s

/-- An end handed by an owner that holds the condition (R152). -/
def endIf (held : Bool) (c : FaultClass) (obj : Nat) (s : State) : State :=
  if held then s.endFault c obj else s

end State

end Sys2Proof.Machine
end

