-- ==== Sys2Proof/Machine/Evaluator.lean ====
section
/-! DEFINITION. The recomputation of verdicts (R13, R14) and of lock commands (R29, R30). -/

namespace Sys2Proof.Machine

/-- The cause of a change of a lock command, for its report (R30); coded in the order R30 names them. -/
inductive LockCause
  | verdict | partState | frameSupply
  deriving DecidableEq, Repr, Inhabited

def LockCause.code : LockCause → Byte
  | .verdict => 0
  | .partState => 1
  | .frameSupply => 2

def LockCommand.code : LockCommand → Byte
  | .free => 0
  | .held => 1

namespace State

/-- R30: a change of a lock command records the command time, opens a readback window and makes a LOCK
report; going HELD ends LOCK_DRIVE (R31). An unchanged command changes nothing. -/
def setCommand (cause : LockCause) (n : Nat) (c : LockCommand) (s : State) : State :=
  if (s.lever n).command = c then s
  else
    let ends := (c == .held) && (s.lever n).driveActive
    let s1 := s.updLever n fun l =>
      { l with command := c, commandTime := s.now, window := some s.now,
               driveActive := l.driveActive && c == .free }
    (s1.report .lock n 1 [c.code, cause.code]).endIf ends .lockDrive n

/-- R13, R29: the verdict, the blocking term and the lock command of one lever, on the conditions as they
stand. -/
def refreshLever (cause : LockCause) (n : Nat) (s : State) : State :=
  if s.leverFitted n then
    let v := s.verdictOf n
    let s1 := s.updLever n fun l => { l with verdict := v.1, blocking := v.2 }
    if s1.hasLock n then s1.setCommand cause n (if s1.wantsFree n then .free else .held) else s1
  else s

/-- R13, R14: every fitted lever, in lever order. A lever whose conditions did not change keeps its values. -/
def evaluate (cause : LockCause) (s : State) : State := forEach allLevers (refreshLever cause) s

end State

end Sys2Proof.Machine
end

