-- ==== Sys2Proof/Machine/Orders.lean ====
section
/-! DEFINITION. The orders of the supervisor and what their owners do: frame cut and restoration (R36, R37),
the fail order (R61) with the break of sequences it brings (R80), the freeze (R144); and a raise whole, with
its order and the register (R155, R156). -/

namespace Sys2Proof.Machine

/-- The detail of a break (R84), in the order of its row. -/
inductive BreakCause
  | outOfOrder | gap | timeout | outOfUse | failed
  deriving DecidableEq, Repr, Inhabited

def BreakCause.code : BreakCause → Byte
  | .outOfOrder => 0
  | .gap => 1
  | .timeout => 2
  | .outOfUse => 3
  | .failed => 4

/-- Whether a sequence lists a circuit (R74 to R80). -/
def SequenceRec.lists (r : SequenceRec) (t : Nat) : Bool := r.circuits.any (fun c => c.toNat == t)

namespace State

/-! ### Frame supply -/

/-- R36: the cut. A cut of a cut frame changes nothing. -/
def cutFrame (s : State) : State :=
  if s.frame.supplyOn then
    (({ s with frame := { s.frame with supplyOn := false } } : State).evaluate .frameSupply).report .lock 0 2 [0]
  else s

/-- R36: the restoration. -/
def restoreFrame (s : State) : State :=
  (({ s with frame := { s.frame with supplyOn := true } } : State).report .lock 0 2 [1]).evaluate .frameSupply

/-! ### Breaks of sequences by an entry into OUT_OF_USE or FAILED -/

/-- R77, R79, R80: a break sets the step to 0 and the step time to none; the latch stands. -/
def breakSequence (q : Nat) (why : BreakCause) (s : State) : State :=
  let k := (s.seqn q).step
  (s.updSeq q fun r => { r with step := 0, stepTime := none }).report .seq q 4 [why.code, byte k]

/-- R80: the entry of a circuit breaks each sequence in progress that lists it. -/
def entrySeq (t : Nat) (why : BreakCause) (q : Nat) (s : State) : State :=
  match s.seqRec q with
  | none => s
  | some r => if r.lists t && 1 ≤ (s.seqn q).step then s.breakSequence q why else s

def entryHanded (t : Nat) (why : BreakCause) (s : State) : State := forEach allSequences (entrySeq t why) s

/-! ### Track circuits -/

/-- R65: the report of a change of a circuit: the row, the alternative where it has two, the state before and
after, A and M. -/
def trackReport (t row : Nat) (alt : List Byte) (before : Occupancy) (s : State) : State :=
  let x := s.track t
  s.report .track t row (alt ++ [before.code, x.state.code, byte x.acc, byte x.tally])

/-- R61, R63: the fail order taken by the track unit. -/
def failTrack (t : Nat) (s : State) : State :=
  let before := (s.track t).state
  match before with
  | .failed => s
  | .outOfUse =>
    (s.updTrack t fun x => { x with failedMark := true }).trackReport t 5 [1] before
  | .clear =>
    let s1 := (s.updTrack t fun x => { x with state := .failed, failedMark := true }).trackReport t 5 [0] before
    (s1.evaluate .verdict).entryHanded t .failed
  | .occupied =>
    let s1 := (s.updTrack t fun x => { x with state := .failed, failedMark := true }).trackReport t 5 [0] before
    s1.entryHanded t .failed

/-! ### Sections -/

/-- R144: the freeze order taken by the block unit. -/
def freezeSection (x : SectionId) (s : State) : State :=
  if (s.sectn x).frozen then s
  else
    ((s.updSect x fun r => { r with frozen := true }).report .sec (secCode x).toNat 8 [0]).evaluate .verdict

/-! ### A raise -/

/-- R156: the register takes the object of an order. -/
def register (o : Order) (obj : Nat) (s : State) : State :=
  match o with
  | .frameCut => s.setFaults { s.faults with frameCut := true }
  | .fail => s.setFaults { s.faults with failedSet := s.faults.failedSet ||| (1#24 <<< (obj - 1)) }
  | .freeze => s.setFaults { s.faults with frozenSet := s.faults.frozenSet ||| (1#4 <<< obj) }

/-- R156: the owner takes the order. -/
def deliver (o : Order) (obj : Nat) (s : State) : State :=
  match o with
  | .frameCut => s.cutFrame
  | .fail => s.failTrack obj
  | .freeze =>
    match secOfCode obj with
    | none => s
    | some x => s.freezeSection x

/-- R155, R156: a raise taken: the list, the alarm, and for an unmasked response of an order class the
register and the order. `momentary`: raised and ended together (R152). -/
def raiseWith (momentary : Bool) (c : FaultClass) (obj : Nat) (s : State) : State :=
  let unmasked := s.faults.unmaskedFor c obj
  let s1 := s.enterRaise c obj momentary
  match c.order with
  | none => s1
  | some o => if unmasked then (s1.register o obj).deliver o obj else s1

def raise (c : FaultClass) (obj : Nat) (s : State) : State := s.raiseWith false c obj

/-- R152: a raise and its end handed together. -/
def raiseAndEnd (c : FaultClass) (obj : Nat) (s : State) : State := s.raiseWith true c obj

end State

end Sys2Proof.Machine
end

