-- ==== Sys2Proof/Machine/Approach.lean ====
section
/-! DEFINITION. The approach lock unit (05, R85 to R99), but for its start values (Machine/Store.lean) and its
reading (Machine/Reads.lean). -/

namespace Sys2Proof.Machine

/-- The cause of an "engaged" report, in the order of R99's row. -/
inductive EngageCause
  | departure | completion | forcedArrival
  deriving DecidableEq, Repr, Inhabited

def EngageCause.code : EngageCause → Byte
  | .departure => 0
  | .completion => 1
  | .forcedArrival => 2

/-- A remaining time in two bytes, absent as 255 (R191). -/
def remainingBytes : Option Nat → List Byte
  | none => absent16
  | some n => sat16 n

namespace State

/-- R99: the detail ends with the state after the event and, in TIMING, the remaining time (log entry 15). -/
def approachReport (a row : Nat) (fields : List Byte) (s : State) : State :=
  let r := s.lockn a
  s.report .approach a row
    (fields ++ r.phase.code :: (if r.phase == .timing then remainingBytes r.remaining else []))

/-- A notification sent to the sequence monitor (R82), with the present epoch. -/
def sendNotice (c : Consumer) (q : Nat) (s : State) : State :=
  { s with notices := s.notices ++ [{ consumer := c, seq := q, epoch := s.epoch }] }

/-- R94: the sequential release test. -/
def releaseTest (a : Nat) (s : State) : State :=
  match s.approachRec a with
  | none => s
  | some rec =>
    let r := s.lockn a
    let q := rec.release.toNat
    if rec.release ≠ absent ∧ (r.phase = .awaitRelease ∨ r.phase = .timing) ∧ r.releaseAsked = false ∧
        (s.seqn q).latch = true then
      (s.updLock a fun x => { x with releaseAsked := true }).sendNotice (.approach a) q
    else s

/-- An entry into FREE (R87, R93, R95): the remaining time absent, the state time set, the report, and the
evaluator. -/
def freeLock (a row : Nat) (fields : List Byte) (s : State) : State :=
  ((s.updLock a fun x => { x with phase := .free, remaining := none, since := s.now }).approachReport a row
    fields).evaluate .verdict

/-- R89, R90: one lock engaged, for a lock that follows the lever. -/
def engageLock (n : Nat) (why : EngageCause) (a : Nat) (s : State) : State :=
  match s.approachRec a with
  | none => s
  | some rec =>
    let r := s.lockn a
    if rec.signal.toNat = n ∧ r.phase ≠ .engaged then
      let discarded := if r.phase = .timing then remainingBytes r.remaining else absent16
      let s1 := (s.updLock a fun x =>
        { x with phase := .engaged, remaining := none, since := s.now }).approachReport a 1
          (why.code :: discarded)
      if r.phase = .free then s1.evaluate .verdict else s1
    else s

/-- R89, R90: every lock whose signal lever is `n`. -/
def engageLocks (n : Nat) (why : EngageCause) (s : State) : State := forEach allLocks (engageLock n why) s

/-- The entry into TIMING (R91, R92, R93): the hold time in tenths. -/
def startTiming (a : Nat) (hold : Word16) (s : State) : State :=
  s.updLock a fun x => { x with phase := .timing, remaining := some hold.toNat, since := s.now }

/-- R91: one lock at a completed move of its signal lever to Normal. DESIGN CHOICE, log entry 34: where both causes
hold, the report names the approach not clear. -/
def replaceLock (n a : Nat) (s : State) : State :=
  match s.approachRec a with
  | none => s
  | some rec =>
    if rec.signal.toNat = n ∧ (s.lockn a).phase = .engaged then
      let notClear := !((s.track rec.track.toNat).state == .clear)
      if notClear || rec.alwaysTime then
        let cause : Byte := if notClear then 0 else 1
        if rec.plunger = absent then
          ((s.startTiming a rec.hold).approachReport a 3 [cause]).releaseTest a
        else
          ((s.updLock a fun x => { x with phase := .awaitRelease, remaining := none, since := s.now }).approachReport
            a 4 [cause]).releaseTest a
      else s.freeLock a 2 []
    else s

def replaceLocks (n : Nat) (s : State) : State := forEach allLocks (replaceLock n) s

/-- R92: one lock at a press of plunger `k`. -/
def pressLock (k a : Nat) (s : State) : State :=
  match s.approachRec a with
  | none => s
  | some rec =>
    if rec.plunger.toNat = k ∧ (s.lockn a).phase = .awaitRelease then
      ((s.startTiming a rec.hold).approachReport a 5 [byte k]).releaseTest a
    else s

def pressLocks (k : Nat) (s : State) : State := forEach allLocks (pressLock k) s

/-- R96: one lock at an occupation (0) or a clearing (1) of its approach track. -/
def trackAtLock (t : Nat) (alt : Byte) (a : Nat) (s : State) : State :=
  match s.approachRec a with
  | none => s
  | some rec =>
    if rec.track.toNat = t ∧ (s.lockn a).phase ≠ .free then s.approachReport a 9 [alt] else s

def trackAtLocks (t : Nat) (alt : Byte) (s : State) : State := forEach allLocks (trackAtLock t alt) s

/-- R94: one lock handed the setting of sequence `q`'s latch. -/
def settingAtLock (q a : Nat) (s : State) : State :=
  match s.approachRec a with
  | none => s
  | some rec => if rec.release ≠ absent ∧ rec.release.toNat = q then s.releaseTest a else s

def settingAtLocks (q : Nat) (s : State) : State := forEach allLocks (settingAtLock q) s

/-! ### Countdown (R93) -/

/-- The moment of the next countdown step of a lock in TIMING: each 100 ms after the entry. -/
def nextCountdown (s : State) (a : Nat) : Option (Nat × Time) :=
  match s.approachRec a, (s.lockn a).phase, (s.lockn a).remaining with
  | some rec, .timing, some m => some (m, (s.lockn a).since + Config.countdownStep * (rec.hold.toNat - m + 1))
  | _, _, _ => none

/-- A countdown step that leaves time is due. -/
def countdownDue (s : State) (a : Nat) : Bool :=
  match s.nextCountdown a with
  | some (m, t) => decide (1 < m ∧ t ≤ s.now)
  | none => false

/-- The countdown step that takes the remaining time to 0 is due. -/
def expiryDue (s : State) (a : Nat) : Bool :=
  match s.nextCountdown a with
  | some (m, t) => decide (m ≤ 1 ∧ t ≤ s.now)
  | none => false

/-- R95: the answer taken. An answer of an earlier table has no effect (log entry 5). -/
def approachAnswer (a : Nat) (x : Answer) (s : State) : State :=
  if x.epoch = s.epoch ∧ s.approachFitted a = true then
    let s1 := s.updLock a fun r => { r with releaseAsked := false }
    if x.consumed then
      match (s.lockn a).phase with
      | .awaitRelease | .timing => s1.freeLock a 7 [byte x.seq]
      | .free | .engaged => s1.approachReport a 8 [byte x.seq]
    else s1
  else s

end State

/-- The first element a test picks, and the list without it. -/
def takeFirst {α : Type} (p : α → Bool) : List α → Option (α × List α)
  | [] => none
  | x :: xs =>
    if p x then some (x, xs)
    else
      match takeFirst p xs with
      | none => none
      | some (y, ys) => some (y, x :: ys)

/-! ### Meanings -/

/-- PLUNGER_CHANGE (R8, R92): the level, the PLUNGER terms, and for a press the locks that await it. A level
already held is no change. -/
def execPlungerChange (k : Nat) (pressed : Bool) (s : State) : Result :=
  onObject (plungerOk k) <|
    if plungerOk k ∧ Bank.at s.plungers k ≠ pressed then
      let s1 := ({ s with plungers := Bank.put s.plungers k pressed } : State).evaluate .verdict
      if pressed then s1.pressLocks k else s1
    else s

/-- APPROACH_COUNTDOWN_STEP (R93): one tenth less. -/
def execApproachCountdownStep (a : Nat) (s : State) : Result :=
  onObject (lockOk a) <|
    if s.countdownDue a then s.updLock a fun r => { r with remaining := r.remaining.map (· - 1) } else s

/-- APPROACH_EXPIRY (R93): the step that takes the remaining time to 0 frees the lock. -/
def execApproachExpiry (a : Nat) (s : State) : Result :=
  onObject (lockOk a) <| if s.expiryDue a then s.freeLock a 6 [] else s

/-- APPROACH_CONSUMPTION_ANSWER (R95): the first answer in flight for the lock. -/
def execApproachConsumptionAnswer (a : Nat) (s : State) : Result :=
  onObject (lockOk a) <|
    match takeFirst (fun x : Answer => x.consumer == .approach a) s.answers with
    | none => s
    | some (x, rest) => ({ s with answers := rest } : State).approachAnswer a x

end Sys2Proof.Machine
end

