-- ==== Sys2Proof/Machine/Block.lean ====
section
/-! DEFINITION. The block unit (07, R124 to R149), but for its start values (Machine/Store.lean) and its reading
(Machine/Reads.lean). -/

namespace Sys2Proof.Machine

/-- What brought about a section's change of state (R134), in the order in which R135 (the offers), R136, R137 (row by
row; `indicator` for the entries it gives no name), R141 and R143 first bring it. -/
inductive StateCause
  | offer | offerOnEarlyClear | cancel | trainUnoffered | indicator | trainBeforeClear | lineClearWithdrawn
  | clearWithdrawnAfterRelease | trainAfterCancel | clearWhileOnLine | handle | blockedBack
  deriving DecidableEq, Repr, Inhabited

/-- 10.5: a cause is coded from 0 in the order its rule names the possibilities. DEDUCED, log entry 7: which causes
there are, R134 giving no list. -/
def StateCause.code : StateCause → Byte
  | .offer => 0
  | .offerOnEarlyClear => 1
  | .cancel => 2
  | .trainUnoffered => 3
  | .indicator => 4
  | .trainBeforeClear => 5
  | .lineClearWithdrawn => 6
  | .clearWithdrawnAfterRelease => 7
  | .trainAfterCancel => 8
  | .clearWhileOnLine => 9
  | .handle => 10
  | .blockedBack => 11

/-- The row of an exchange's report (R149): what became of it, in the order of the row. -/
inductive ExchangeResult
  | acted | ignored | ignoredFrozen | ignoredProving | unannounced | crossedOffers
  deriving DecidableEq, Repr, Inhabited

def ExchangeResult.code : ExchangeResult → Byte
  | .acted => 0
  | .ignored => 1
  | .ignoredFrozen => 2
  | .ignoredProving => 3
  | .unannounced => 4
  | .crossedOffers => 5

/-- A completed exchange as the bell unit hands it (R118). -/
structure Exchange where
  dir : Direction
  entry : Nat
  meaning : Meaning
  trainClass : Nat
  deriving DecidableEq, Repr, Inhabited

/-- R134: the flags of a record at the entry into a state. -/
def SectionState.entering (b : BlockState) (r : SectionState) : SectionState :=
  match b with
  | .blocked =>
    { r with releaseUsed := false, earlyClear := false, cancelReceived := false, outSent := false, offered := none }
  | .clearOut => { r with earlyClear := false, releaseUsed := false }
  | .offeredOut | .offeredIn | .onLineOut => { r with earlyClear := false }
  | .clearIn | .onLineIn => { r with cancelReceived := false }
  | .cancellingOut => r

/-- R129: each change of the drive sets the mismatch run to 0, and the drive going off ends the drive cause. -/
def SectionState.driven (d : Drive) (r : SectionState) : SectionState :=
  if r.drive = d then r
  else { r with drive := d, mismatchRun := 0, driveCause := r.driveCause && d != .off }

/-- R127: a sample out of scale. -/
def outOfScale (r : Sample) : Bool := r.toNat ≤ 3 || 1020 ≤ r.toNat

/-- R127: the candidate of a sample in scale, by the first row that holds. -/
def candidateOf (onLevel offLevel : Nat) (present : Polarity) (r : Sample) : Polarity :=
  let v : Int := (r.toNat : Int) - 512
  if v ≥ (onLevel : Int) then .positive
  else if v ≤ -(onLevel : Int) then .negative
  else if -(offLevel : Int) ≤ v ∧ v ≤ (offLevel : Int) then .none
  else present

/-- R128: the candidate run, the pending candidate and the measured polarity after a candidate. -/
def SectionState.confirm (cand : Option Polarity) (r : SectionState) : SectionState :=
  match cand with
  | none => { r with candidate := none, candRun := 0 }
  | some p =>
    if p = r.measured then { r with candidate := none, candRun := 0 }
    else
      let run := if r.candidate = some p then r.candRun + 1 else 1
      if 3 ≤ run then { r with measured := p, candidate := none, candRun := 0 }
      else { r with candidate := some p, candRun := run }

namespace State

def sectReport (x : SectionId) (row : Nat) (detail : List Byte) (s : State) : State :=
  s.report .sec (secCode x).toNat row detail

/-- SECTION reports in order, each a row of R149 and its detail. -/
def sectReports (x : SectionId) (rows : List (Nat × List Byte)) (s : State) : State :=
  rows.foldl (fun t r => t.sectReport x r.1 r.2) s

/-- R142, R149: the HANDLE report "out of correspondence", with the position and the state. -/
def outReport (x : SectionId) (s : State) : State :=
  s.report .handle (secCode x).toNat 1 [0, (s.sectn x).handle.code, optBlock (s.sectn x).state]

/-- R141, R149: the HANDLE report "in correspondence", which carries nothing more. -/
def backReport (x : SectionId) (s : State) : State := s.report .handle (secCode x).toNat 1 [1]

/-- INDICATOR_MISMATCH raised or ended where a change of a section's causes begins or ends it (R148). -/
def mismatchEdge (x : SectionId) (was : Bool) (s : State) : State :=
  let is := (s.sectn x).mismatch
  if !was && is then s.raise .indicatorMismatch (secCode x).toNat
  else if was && !is then s.endFault .indicatorMismatch (secCode x).toNat
  else s

/-- BLOCK_IRREGULAR, raised and ended at once (R148). DESIGN CHOICE, log entry 52: the raise names class and object
alone, as R152 gives a hand-off, and its cause (R134) stands in the "state" report of the same step. -/
def irregular (x : SectionId) (s : State) : State := s.raiseAndEnd .blockIrregular (secCode x).toNat

/-! ### Correspondence (R140 to R142) -/

/-- R142: correspondence recomputed against a new state. MOVING leaves it as it was. -/
def correspond (x : SectionId) (s : State) : State :=
  let r := s.sectn x
  match r.state with
  | none => s
  | some b =>
    match r.handle with
    | .moving => s
    | h =>
      if h = handleFor b then
        if r.outOfCorr then (s.updSect x fun y => { y with outOfCorr := false }).backReport x else s
      else (s.updSect x fun y => { y with outOfCorr := true }).outReport x

/-- R142: a handle held, under a rule that can still complete (`retest`) or not. -/
def holdHandle (x : SectionId) (retest : Bool) (s : State) : State :=
  (s.updSect x fun r => { r with outOfCorr := true, retest := retest }).outReport x

/-! ### Entries into states (R129, R130, R134) -/

/-- An entry into a state: the flags, the drive, the report, then the event's other SECTION reports, the correspondence
with its HANDLE report, and the evaluator (R149's order, R186; log entry 6). -/
def enterState (x : SectionId) (b : BlockState) (why : StateCause) (others : List (Nat × List Byte)) (s : State) :
    State :=
  let old := (s.sectn x).state
  let was := (s.sectn x).mismatch
  let s1 := s.updSect x fun r =>
    { (r.entering b).driven (driveOf (some b)) with state := some b, retest := false }
  let s2 := s1.mismatchEdge x was
  let s3 := s2.sectReport x 1 [optBlock old, b.code, why.code]
  ((s3.sectReports x others).correspond x).evaluate .verdict

/-! ### Blocking back (R143) -/

/-- R143: the block-back test sends a notification, or nothing. -/
def blockBackTest (x : SectionId) (s : State) : State :=
  match s.sectionRec x with
  | none => s
  | some rec =>
    let r := s.sectn x
    let q := rec.arrival.toNat
    if r.outSent ∧ (s.seqn q).latch = true ∧ r.consumeAsked = false ∧ r.frozen = false then
      (s.updSect x fun y => { y with consumeAsked := true }).sendNotice (.block x) q
    else s

/-! ### Measured polarity (R137) -/

/-- R137: early clear set by the far box, with its report. -/
def setEarlyClear (x : SectionId) (s : State) : State :=
  (s.updSect x fun r => { r with earlyClear := true }).sectReport x 4 [0]

/-- R128, R149: the report of a change to a measured polarity, with the state. -/
def indicatorRow (m : Polarity) (b : Option BlockState) : Nat × List Byte := (2, [m.code, optBlock b])

/-- R137: whether the measured polarity, taken under the present state, raises BLOCK_IRREGULAR. -/
def polarityOutOfTurn (s : State) (x : SectionId) : Bool :=
  let r := s.sectn x
  match r.state, r.measured with
  | some .blocked, .negative => true
  | some .offeredOut, .negative => true
  | some .clearOut, .none => r.releaseUsed
  | some .cancellingOut, .negative => true
  | some .onLineOut, .positive => true
  | _, _ => false

/-- R137: the measured polarity taken under the present state, with its report where it has just changed, but for the
raise of BLOCK_IRREGULAR. With state none and while frozen it makes no transition. DEDUCED, log entry 41: the report of
the change follows that of the state it brings about, and gives that state. -/
def followPolarity (x : SectionId) (changed : Bool) (s : State) : State :=
  let r := s.sectn x
  let row (b : Option BlockState) : List (Nat × List Byte) := if changed then [indicatorRow r.measured b] else []
  let stay := s.sectReports x (row r.state)
  let enter (b : BlockState) (why : StateCause) : State := s.enterState x b why (row (some b))
  if r.frozen then stay
  else
    match r.state, r.measured with
    | some .blocked, .positive => stay.setEarlyClear x
    | some .blocked, .negative => enter .onLineOut .trainUnoffered
    | some .blocked, .none =>
      if r.earlyClear then (stay.updSect x fun y => { y with earlyClear := false }).sectReport x 4 [1] else stay
    | some .offeredOut, .positive => enter .clearOut .indicator
    | some .offeredOut, .negative => enter .onLineOut .trainBeforeClear
    | some .clearOut, .negative => enter .onLineOut .indicator
    | some .clearOut, .none =>
      enter .blocked (if r.releaseUsed then .clearWithdrawnAfterRelease else .lineClearWithdrawn)
    | some .cancellingOut, .negative => enter .onLineOut .trainAfterCancel
    | some .cancellingOut, .none => enter .blocked .indicator
    | some .onLineOut, .positive =>
      (s.enterState x .blocked .clearWhileOnLine (row (some .blocked) ++ [(4, [0])])).updSect x fun y =>
        { y with earlyClear := true }
    | some .onLineOut, .none => enter .blocked .indicator
    | _, _ => stay

/-- R137: the measured polarity taken under the present state, and then the raise it brings. -/
def takePolarity (x : SectionId) (changed : Bool) (s : State) : State :=
  let t := s.followPolarity x changed
  if (s.sectn x).frozen = false ∧ s.polarityOutOfTurn x = true then t.irregular x else t

/-! ### The handle (R141, R142) -/

/-- R141: the test of a LINE CLEAR handle in OFFERED_IN: a permitted class, the home signal proved NORMAL, the
clearing track, if configured, CLEAR. -/
def clearAllowed (x : SectionId) (s : State) : Bool :=
  match s.sectionRec x with
  | none => false
  | some rec =>
    (match (s.sectn x).offered with
     | none => false
     | some k => rec.classes.getLsbD k) &&
    (s.lever rec.home.toNat).position == .normal &&
    (rec.clearing == absent || (s.track rec.clearing.toNat).state == .clear)

/-- R131, R149: the report of an exchange. DESIGN CHOICE, log entry 43: the state stands in it whatever became of the
exchange. -/
def exchangeRow (e : Exchange) (o : ExchangeResult) (b : Option BlockState) : Nat × List Byte :=
  (3, [o.code, e.meaning.code, dirCode e.dir, optBlock b])

/-- R142: the re-test of a handle held under a rule that can still complete; none while frozen (R144) or in
STORING (R147). An exchange that brought it is reported acted on, with the state after it (R131). -/
def retestHandle (x : SectionId) (brought : Option Exchange) (s : State) : State :=
  let r := s.sectn x
  let row (b : Option BlockState) : List (Nat × List Byte) := (brought.map fun e => exchangeRow e .acted b).toList
  let stay := s.sectReports x (row r.state)
  if r.retest ∧ r.frozen = false ∧ s.isStoring = false then
    match r.state, r.handle with
    | some .offeredIn, .lineClear =>
      if s.clearAllowed x then s.enterState x .clearIn .handle (row (some .clearIn)) else stay
    | some .clearIn, .lineBlocked =>
      if r.cancelReceived then s.enterState x .blocked .handle (row (some .blocked)) else stay
    | some .onLineIn, .lineBlocked => stay.blockBackTest x
    | _, _ => stay
  else stay

/-- R141: a handle standing at a position, taken under the present state. While frozen the event is held and
reported (R144); in STORING it is held, but at the corresponding position (R140, R147; log entry 11). -/
def handleEvent (x : SectionId) (s : State) : State :=
  let r := s.sectn x
  match r.state with
  | none => s
  | some b =>
    if r.frozen then s.outReport x
    else if r.handle = handleFor b then s.correspond x
    else if s.isStoring then s.holdHandle x false
    else
      match b, r.handle with
      | .offeredIn, .lineClear =>
        if s.clearAllowed x then s.enterState x .clearIn .handle [] else s.holdHandle x true
      | .clearIn, .trainOnLine => s.enterState x .onLineIn .handle []
      | .clearIn, .lineBlocked =>
        if r.cancelReceived then s.enterState x .blocked .handle [] else s.holdHandle x true
      | .onLineIn, .lineBlocked => (s.holdHandle x true).blockBackTest x
      | _, _ => s.holdHandle x false

/-- R140, R142: a handle that is not at a position and is held: UNREADABLE, or MOVING at an unfreeze (R145). -/
def handleHeld (x : SectionId) (s : State) : State :=
  let r := s.sectn x
  match r.state with
  | none => s
  | some _ => if r.frozen then s.outReport x else s.holdHandle x false

/-- R140: the handle as now derived, taken as an event. -/
def takeHandle (x : SectionId) (s : State) : State :=
  if s.sectionFitted x then
    match (s.sectn x).handle with
    | .moving => s
    | .unreadable => s.handleHeld x
    | .lineBlocked | .lineClear | .trainOnLine => s.handleEvent x
  else s

/-- R140: a handle MOVING for 500 ms. -/
def handleDue (s : State) (x : SectionId) : Bool :=
  let r := s.sectn x
  r.handle == .moving &&
    (match r.movingSince with
     | none => false
     | some t => decide (t + Config.handleMovingLimit ≤ s.now))

/-! ### Samples of the indicator line (R127 to R129) -/

/-- R128: a change of measured polarity, taken with its report. -/
def polarityChanged (x : SectionId) (s : State) : State := s.takePolarity x true

/-- R128: the out-of-scale run and the scale cause. -/
def scaleStage (x : SectionId) (out : Bool) (s : State) : State :=
  let was := (s.sectn x).mismatch
  (s.updSect x fun r =>
    if out then
      { r with scaleRun := min 3 (r.scaleRun + 1), scaleCause := r.scaleCause || decide (2 ≤ r.scaleRun) }
    else { r with scaleRun := 0, scaleCause := false }).mismatchEdge x was

/-- R129: the check of a sample against the drive. -/
def driveStage (x : SectionId) (cand : Option Polarity) (s : State) : State :=
  let r := s.sectn x
  match r.drive.polarity with
  | none => s
  | some p =>
    let was := r.mismatch
    (s.updSect x fun y =>
      if y.measured ≠ p ∧ cand ≠ some p then
        { y with mismatchRun := min 3 (y.mismatchRun + 1), driveCause := y.driveCause || decide (2 ≤ y.mismatchRun) }
      else { y with mismatchRun := 0, driveCause := false }).mismatchEdge x was

/-- R127: the candidate of a sample; an out-of-scale sample gives none. -/
def sampleCandidate (rec : SectionRec) (present : Polarity) (r : Sample) : Option Polarity :=
  if outOfScale r then none else some (candidateOf rec.onLevel.toNat rec.offLevel.toNat present r)

/-- R127, R128: the raw value kept, the candidate confirmed, and a change of measured polarity taken. -/
def measureStage (x : SectionId) (cand : Option Polarity) (r : Sample) (s : State) : State :=
  let s1 := s.updSect x fun y => ({ y with lastRaw := r } : SectionState).confirm cand
  if (s1.sectn x).measured = (s.sectn x).measured then s1 else s1.polarityChanged x

/-- R142: the re-test that each sample brings in OFFERED_IN. -/
def sampleRetest (x : SectionId) (s : State) : State :=
  if (s.sectn x).state = some .offeredIn then s.retestHandle x none else s

/-- R127 to R129, R142: a sample of a fitted section's channel. DESIGN CHOICE, log entries 27 and 36: the scale test, the
check against the drive, and the re-test last, so that a freeze which the sample brings stops the re-test, and a drive
which the re-test turns on is first checked by the next sample. -/
def sectionSample (x : SectionId) (r : Sample) (s : State) : State :=
  match s.sectionRec x with
  | none => s
  | some rec =>
    let cand := sampleCandidate rec (s.sectn x).measured r
    (((s.measureStage x cand r).scaleStage x (outOfScale r)).driveStage x cand).sampleRetest x

/-! ### Exchanges (R131 to R136) -/

def exchangeReport (x : SectionId) (e : Exchange) (o : ExchangeResult) (s : State) : State :=
  s.sectReports x [exchangeRow e o (s.sectn x).state]

/-- R132: attention set or renewed. -/
def attend (x : SectionId) (s : State) : State :=
  s.updSect x fun r => { r with attention := some (s.now + s.timing.attentionLife.toNat * 1000) }

/-- R133: an urgent receipt of an inbound OBSTRUCTION. -/
def urgentReceipt (x : SectionId) (s : State) : State :=
  if s.sectionFitted x ∧ (s.sectn x).obstruction = false then
    ((s.updSect x fun r => { r with obstruction := true }).sectReport x 6 [1]).evaluate .verdict
  else s

/-- R133: obstruction removed by a completed inbound exchange. -/
def obstructionRemoved (x : SectionId) (s : State) : State :=
  if (s.sectn x).obstruction then
    ((s.updSect x fun r => { r with obstruction := false }).sectReport x 6 [2]).evaluate .verdict
  else s

/-- R135, R136: an OFFER or CANCEL judged under the state; one that is acted on clears attention (R132). -/
def judgeExchange (x : SectionId) (e : Exchange) (s : State) : State :=
  let r := s.sectn x
  let acted (f : SectionState → SectionState) (b : BlockState) (why : StateCause) : State :=
    (s.updSect x fun y => { f y with attention := none }).enterState x b why [exchangeRow e .acted (some b)]
  let offered (y : SectionState) : SectionState := { y with offered := some e.trainClass }
  match e.meaning, e.dir, r.state with
  | .offer, .outbound, some .blocked =>
    if r.earlyClear then acted offered .clearOut .offerOnEarlyClear else acted offered .offeredOut .offer
  | .offer, .inbound, some .blocked => acted offered .offeredIn .offer
  | .offer, .inbound, some .offeredOut => s.exchangeReport x e .crossedOffers
  | .cancel, .outbound, some .offeredOut => acted id .blocked .cancel
  | .cancel, .outbound, some .clearOut => acted id .cancellingOut .cancel
  | .cancel, .inbound, some .offeredIn => acted id .blocked .cancel
  | .cancel, .inbound, some .clearIn =>
    if r.cancelReceived then s.exchangeReport x e .ignored
    else (s.updSect x fun y => { y with cancelReceived := true, attention := none }).retestHandle x (some e)
  | _, _, _ => s.exchangeReport x e .ignored

/-- R132: an OFFER or CANCEL, tested against attention first. -/
def announced (x : SectionId) (e : Exchange) (s : State) : State :=
  match s.sectionRec x with
  | none => s
  | some rec =>
    if rec.attentionRequired ∧ (s.sectn x).attention = none then s.exchangeReport x e .unannounced
    else s.judgeExchange x e

/-- R131: a completed exchange taken. -/
def takeExchange (x : SectionId) (e : Exchange) (s : State) : State :=
  let r := s.sectn x
  if s.sectionFitted x = false then s
  else if r.frozen then s.exchangeReport x e .ignoredFrozen
  else
    match e.meaning, e.dir with
    | .attention, _ => (s.attend x).exchangeReport x e .acted
    | .obstructionRemoved, .inbound => (s.exchangeReport x e .acted).obstructionRemoved x
    | .offer, _ | .cancel, _ =>
      if r.state = none then s.exchangeReport x e .ignoredProving else s.announced x e
    | .outOfSection, .outbound =>
      if r.state = none then s.exchangeReport x e .ignoredProving
      else if r.state = some .onLineIn then
        (s.updSect x fun y => { y with outSent := true }).retestHandle x (some e)
      else s.exchangeReport x e .ignored
    | _, _ =>
      if r.state = none then s.exchangeReport x e .ignoredProving else s.exchangeReport x e .ignored

/-! ### The section signal (R138, R139) -/

/-- R138: one section at a completed move of its section signal to an end. -/
def signalAtSection (n : Nat) (e : LeverEnd) (x : SectionId) (s : State) : State :=
  match s.sectionRec x with
  | none => s
  | some rec =>
    if rec.signal.toNat = n then
      match e with
      | .normal => s.sectReport x 5 [1, optBlock (s.sectn x).state]
      | .reverse =>
        let r := s.sectn x
        if r.state = some .clearOut ∧ r.releaseUsed = false then
          ((s.updSect x fun y => { y with releaseUsed := true }).sectReport x 5 [0]).evaluate .verdict
        else s.irregular x
    else s

def signalAtSections (n : Nat) (e : LeverEnd) (s : State) : State := forEach allSections (signalAtSection n e) s

/-! ### What the track unit and the monitor hand over -/

/-- R63, R142: the clearing track of a section enters CLEAR. -/
def clearingAtSection (t : Nat) (x : SectionId) (s : State) : State :=
  match s.sectionRec x with
  | none => s
  | some rec =>
    if rec.clearing ≠ absent ∧ rec.clearing.toNat = t ∧ (s.sectn x).state = some .offeredIn then
      s.retestHandle x none
    else s

def clearingAtSections (t : Nat) (s : State) : State := forEach allSections (clearingAtSection t) s

/-- R78, R142: the latch of a section's arrival sequence is set. -/
def settingAtSection (q : Nat) (x : SectionId) (s : State) : State :=
  match s.sectionRec x with
  | none => s
  | some rec =>
    if rec.arrival.toNat = q ∧ (s.sectn x).state = some .onLineIn then s.retestHandle x none else s

def settingAtSections (q : Nat) (s : State) : State := forEach allSections (settingAtSection q) s

/-- R143: the answer taken. An answer of an earlier table has no effect. -/
def blockAnswer (x : SectionId) (a : Answer) (s : State) : State :=
  if a.epoch = s.epoch ∧ s.sectionFitted x = true then
    let r := s.sectn x
    let s1 := s.updSect x fun y => { y with consumeAsked := false }
    if a.consumed = true ∧ r.state = some .onLineIn then
      if r.frozen then s1.sectReport x 7 [1]
      else s1.enterState x .blocked .blockedBack [(7, [0, byte a.seq])]
    else s1
  else s

/-! ### Unfreeze and start state (R145, R146) -/

/-- R145: the unfreeze, the re-test of the measured polarity, then of the handle in the state that leaves. A
BLOCK_IRREGULAR that the re-test raises reaches the supervisor after the press (R164): `unfreezeRaises`. -/
def unfreeze (x : SectionId) (s : State) : State :=
  if (s.sectn x).frozen then
    let s1 := ((s.updSect x fun r => { r with frozen := false }).sectReport x 8 [1]).evaluate .verdict
    let s2 := s1.followPolarity x false
    match (s2.sectn x).handle with
    | .moving | .unreadable => s2.handleHeld x
    | .lineBlocked | .lineClear | .trainOnLine => s2.handleEvent x
  else s

/-- R145, R164: an unfreeze of the section leads to a new BLOCK_IRREGULAR. -/
def unfreezeRaises (s : State) (x : SectionId) : Bool := (s.sectn x).frozen && s.polarityOutOfTurn x

/-- R146: the start state of a handle and a measured polarity, and whether the release starts used. -/
def startStateOf (h : Handle) (m : Polarity) : BlockState × Bool :=
  match h, m with
  | .trainOnLine, _ | .lineClear, _ => (.onLineIn, false)
  | _, .positive => (.clearOut, true)
  | _, .negative => (.onLineOut, false)
  | _, .none => (.blocked, false)

/-- R146: a fitted section's start state at the end of PROVING. DEDUCED, log entry 42: the report "start state" is the
only one that tells of it. -/
def startSection (x : SectionId) (s : State) : State :=
  if s.sectionFitted x then
    let r := s.sectn x
    let b := startStateOf r.handle r.measured
    let s1 := s.updSect x fun y =>
      { y.driven (driveOf (some b.1)) with
        state := some b.1, releaseUsed := b.2, earlyClear := false, cancelReceived := false, outSent := false,
        offered := none, retest := false }
    let s2 := s1.sectReport x 8 [2, r.handle.code, r.measured.code]
    let s3 := if r.handle = handleFor b.1 then s2 else s2.holdHandle x false
    s3.evaluate .verdict
  else s

def startSections (s : State) : State := forEach allSections startSection s

end State

/-! ### Meanings -/

/-- HANDLE_CONTACT_CHANGE (R140, R141): the contact at its new level, the handle derived afresh and taken as an
event. A level already held is no change. A handle that is and stays UNREADABLE has become nothing new: it was held
already (R142). -/
def execHandleContactChange (x : SectionId) (k : HandleContact) (made : Bool) (s : State) : Result :=
  .next <|
    let r := s.sectn x
    let old := match k with
      | .lineBlocked => r.blockedMade
      | .lineClear => r.clearMade
      | .trainOnLine => r.trainMade
    if old = made then s
    else
      let b := if k = .lineBlocked then made else r.blockedMade
      let c := if k = .lineClear then made else r.clearMade
      let t := if k = .trainOnLine then made else r.trainMade
      let h := handleOf b c t
      let s1 := s.updSect x fun y =>
        { y with blockedMade := b, clearMade := c, trainMade := t, handle := h, retest := false,
                 movingSince := if h = .moving then some s.now else none }
      if h = .unreadable ∧ r.handle = .unreadable then s1 else s1.takeHandle x

/-- HANDLE_MOVING_TIMEOUT (R140): MOVING for 500 ms becomes UNREADABLE and is held. -/
def execHandleMovingTimeout (x : SectionId) (s : State) : Result :=
  .next <|
    if s.handleDue x then
      (s.updSect x fun r => { r with handle := .unreadable, movingSince := none }).takeHandle x
    else s

/-- ATTENTION_LAPSED (R132); in a frozen section as in any other (log entry 33). -/
def execAttentionLapsed (x : SectionId) (s : State) : Result :=
  .next <|
    match (s.sectn x).attention with
    | none => s
    | some t =>
      if t ≤ s.now then (s.updSect x fun r => { r with attention := none }).sectReport x 6 [0] else s

/-- BLOCK_CONSUMPTION_ANSWER (R143): the first answer in flight for the section. -/
def execBlockConsumptionAnswer (x : SectionId) (s : State) : Result :=
  .next <|
    match takeFirst (fun a : Answer => a.consumer == .block x) s.answers with
    | none => s
    | some (a, rest) => ({ s with answers := rest } : State).blockAnswer x a

end Sys2Proof.Machine
end

