-- ==== Sys2Proof/Machine/Sequence.lean ====
section
/-! DEFINITION. The sequence monitor (04, R71 to R84), but for its start values (Machine/Store.lean), its reading
(Machine/Reads.lean) and the breaks of R80 (Machine/Orders.lean). -/

namespace Sys2Proof.Machine

/-- Track `k` of a sequence, counted from 1 (4.1). -/
def SequenceRec.circuitAt (r : SequenceRec) (k : Nat) : Nat := ((r.circuits[k - 1]?).map (·.toNat)).getD 0

/-- The number of tracks, n (4.1). -/
def SequenceRec.size (r : SequenceRec) : Nat := r.circuits.length

namespace State

def trackClear (s : State) (t : Nat) : Bool := (s.track t).state == .clear

/-- R74: the gate lever is absent or proved Reverse. -/
def gateOpen (s : State) (r : SequenceRec) : Bool :=
  r.gate == absent || (s.lever r.gate.toNat).position == .reverse

/-- R74: an occupation of circuit `t` at step 0. -/
def startSeq (t q : Nat) (r : SequenceRec) (s : State) : State :=
  if r.circuitAt 1 = t then
    if s.gateOpen r then
      (s.updSeq q fun x => { x with step := 1, stepTime := some s.now }).report .seq q 1 [1, byte t]
    else s.report .seq q 2 [(s.lever r.gate.toNat).position.code]
  else s

/-- R76, R78: completion: the step reset, the latch set and handed on, or found set. -/
def completeSeq (q : Nat) (s : State) : State :=
  if (s.seqn q).latch then
    (s.updSeq q fun x => { x with step := 0, stepTime := none, unused := true }).report .seq q 3 [1]
  else
    ((((s.updSeq q fun x => { x with step := 0, stepTime := none, latch := true }).report .seq q 3 [0]).evaluate
      .verdict).settingAtLocks q).settingAtSections q

/-- R74 to R77: one sequence at an occupation of circuit `t`. -/
def occupationAtSeq (t q : Nat) (s : State) : State :=
  match s.seqRec q with
  | none => s
  | some r =>
    let k := (s.seqn q).step
    if r.lists t = false then s
    else if k = 0 then s.startSeq t q r
    else if k < r.size ∧ r.circuitAt (k + 1) = t then
      if s.trackClear (r.circuitAt k) then (s.breakSequence q .gap).startSeq t q r
      else
        let s1 := (s.updSeq q fun x => { x with step := k + 1, stepTime := some s.now }).report .seq q 1
          [byte (k + 1), byte t]
        if k + 1 = r.size ∧ s1.trackClear (r.circuitAt 1) = true then s1.completeSeq q else s1
    else (s.breakSequence q .outOfOrder).startSeq t q r

def occupationHanded (t : Nat) (s : State) : State := forEach allSequences (occupationAtSeq t) s

/-- R75, R76: one sequence at a clearing of circuit `t`. -/
def clearingAtSeq (t q : Nat) (s : State) : State :=
  match s.seqRec q with
  | none => s
  | some r =>
    let k := (s.seqn q).step
    if 1 ≤ k ∧ k = r.size ∧ r.circuitAt 1 = t then s.completeSeq q else s

def clearingHanded (t : Nat) (s : State) : State := forEach allSequences (clearingAtSeq t) s

/-- R79. -/
def stepTimeoutDue (s : State) (q : Nat) : Bool :=
  match s.seqRec q, (s.seqn q).stepTime with
  | some r, some t => decide (1 ≤ (s.seqn q).step ∧ t + r.timeout.toNat * 1000 ≤ s.now)
  | _, _ => false

/-- R82: the answer goes to the consumer that sent the notification; the evaluator makes no use of one. -/
def answerTo (n : Notice) (consumed : Bool) (s : State) : State :=
  match n.consumer with
  | .lever _ => s
  | .block _ | .approach _ =>
    { s with answers := s.answers ++
        [{ consumer := n.consumer, seq := n.seq, epoch := n.epoch, consumed := consumed }] }

/-- R81: a notification taken: the latch as it stands decides. -/
def takeNotice (n : Notice) (s : State) : State :=
  if s.seqFitted n.seq then
    if (s.seqn n.seq).latch then
      (((s.updSeq n.seq fun x => { x with latch := false, unused := false }).report .seq n.seq 5
        (0 :: consumerBytes n.consumer)).evaluate .verdict).answerTo n true
    else (s.report .seq n.seq 5 (1 :: consumerBytes n.consumer)).answerTo n false
  else s.answerTo n false

end State

/-! ### Meanings -/

/-- STEP_TIMEOUT (R79). -/
def execStepTimeout (q : Nat) (s : State) : Result :=
  onObject (sequenceOk q) <| if s.stepTimeoutDue q then s.breakSequence q .timeout else s

/-- CONSUMPTION_NOTIFICATION (R81): the first notification in flight of the consumer for the sequence. -/
def execConsumptionNotification (c : Consumer) (q : Nat) (s : State) : Result :=
  onObject (consumerOk c && sequenceOk q) <|
    match takeFirst (fun n : Notice => n.consumer == c && n.seq == q) s.notices with
    | none => s
    | some (n, rest) => ({ s with notices := rest } : State).takeNotice n

end Sys2Proof.Machine
end

