-- ==== Sys2Proof/Machine/Track.lean ====
section
/-! DEFINITION. The track unit (03, R49 to R65), but for its start values (Machine/Store.lean), its requests
(Machine/Requests.lean) and the fail order (Machine/Orders.lean). -/

namespace Sys2Proof.Machine

/-- R51: the class of a sample against P and D. -/
def classify (pick drop : Nat) (r : Sample) : SampleClass :=
  if 1020 ≤ r.toNat then .overRange
  else if pick ≤ r.toNat then .energised
  else if r.toNat ≤ drop then .shunted
  else .marginal

/-- R52: the accumulator after a sample. -/
def nextAcc (c : Nat) (k : SampleClass) (a : Nat) : Nat :=
  match k with
  | .energised => min c (a + 1)
  | .marginal => a - 1
  | .shunted | .overRange => a - 4

/-- R53: the marginal tally after a sample. -/
def nextTally (k : SampleClass) (m : Nat) : Nat :=
  match k with
  | .marginal => min 255 (m + 8)
  | .energised | .shunted => m - 1
  | .overRange => m

/-- R50 to R57: one sample through the six stages. -/
def TrackState.sample (rec : TrackRec) (r : Sample) (x : TrackState) : TrackState :=
  let c := rec.clearCount.toNat
  let l := rec.degrade.toNat
  let k := classify rec.pick.toNat rec.drop.toNat r
  let a := nextAcc c k x.acc
  let m := nextTally k x.tally
  let run := if k = .overRange then min 3 (x.overRun + 1) else 0
  let chan := if k = .overRange then x.channelFault || decide (x.overRun = 2) else false
  let deg := if x.degraded then decide (l / 2 < m) else decide (l ≤ m)
  let occ := x.state == .clear && decide (a + 4 ≤ c)
  let clr := x.state == .occupied && decide (a = c)
  { x with
    state := if occ then .occupied else if clr then .clear else x.state
    acc := if occ then min a (c / 2) else a
    tally := m
    overRun := run
    lastRaw := r
    lastClass := some k
    degraded := deg
    channelFault := chan }

/-- R59, R62: a return to OCCUPIED, with half-recovery. -/
def TrackState.recover (c : Nat) (x : TrackState) : TrackState :=
  { x with state := .occupied, acc := min x.acc (c / 2) }

namespace State

/-- A condition of the track unit that begins or ends at a sample (R54, R57, R64). -/
def trackCondition (c : FaultClass) (t : Nat) (was is : Bool) (s : State) : State :=
  if !was && is then s.raise c t
  else if was && !is then s.endFault c t
  else s

/-- R63: an occupation handed on. -/
def occupationOf (t : Nat) (s : State) : State :=
  ((s.evaluate .verdict).occupationHanded t).trackAtLocks t 0

/-- R63: a clearing handed on. -/
def clearingOf (t : Nat) (s : State) : State :=
  (((s.evaluate .verdict).clearingHanded t).trackAtLocks t 1).clearingAtSections t

/-- R50, R63 to R65: a sample of circuit `t`: the six stages, then what they hand on: the change of state, and
the conditions that begin or end. -/
def trackSample (t : Nat) (r : Sample) (s : State) : State :=
  match s.trackRec t with
  | none => s
  | some rec =>
    let x := s.track t
    let y := x.sample rec r
    let s1 := s.updTrack t fun _ => y
    let s2 :=
      if x.state = .clear ∧ y.state = .occupied then (s1.trackReport t 1 [] x.state).occupationOf t
      else if x.state = .occupied ∧ y.state = .clear then (s1.trackReport t 2 [] x.state).clearingOf t
      else s1
    (s2.trackCondition .trackChannel t x.channelFault y.channelFault).trackCondition .trackDegraded t x.degraded
      y.degraded

/-- R62: the lift order taken. -/
def liftTrack (t : Nat) (s : State) : State :=
  match s.trackRec t with
  | none => s
  | some rec =>
    let x := s.track t
    match x.failedMark, x.state with
    | true, .failed =>
      (s.updTrack t fun y => { y.recover rec.clearCount.toNat with failedMark := false }).trackReport t 6 [0] x.state
    | true, .outOfUse => (s.updTrack t fun y => { y with failedMark := false }).trackReport t 6 [1] x.state
    | _, _ => s

/-- R58, R63: a circuit taken out of use. -/
def takeOutOfUse (t : Nat) (s : State) : State :=
  let before := (s.track t).state
  match before with
  | .outOfUse => s
  | .clear =>
    ((((s.updTrack t fun x => { x with state := .outOfUse }).trackReport t 3 [] before).evaluate
      .verdict).entryHanded t .outOfUse)
  | .occupied | .failed =>
    ((s.updTrack t fun x => { x with state := .outOfUse }).trackReport t 3 [] before).entryHanded t .outOfUse

/-- R59, R63: a circuit put back in use. -/
def putInUse (t c : Nat) (s : State) : State :=
  let x := s.track t
  if x.failedMark then
    ((s.updTrack t fun y => { y with state := .failed }).trackReport t 4 [] x.state).entryHanded t .failed
  else (s.updTrack t (TrackState.recover c)).trackReport t 4 [] x.state

end State

end Sys2Proof.Machine
end

