-- ==== Sys2Proof/Machine/Frame.lean ====
section
/-! DEFINITION. The frame unit (02, R21 to R42): contacts and moves, readbacks, the lock supply. Its start values
stand in Machine/Store.lean, its reading in Machine/Reads.lean, the frame supply in Machine/Orders.lean. -/

namespace Sys2Proof.Machine

namespace State

def leverReport (n row : Nat) (detail : List Byte) (s : State) : State := s.report .lever n row detail

/-! ### Ends of conditions -/

/-- R23, R24, R41: LEVER_CONTACT ends when the lever is neither in CONTACT_FAULT nor beyond its limit. -/
def endContact (n : Nat) (s : State) : State :=
  let held := (s.lever n).contactActive
  (s.updLever n fun l => { l with contactActive := false }).endIf held .leverContact n

/-- R41: LEVER_FORCED ends when the lever is proved at either end. -/
def endForced (n : Nat) (s : State) : State :=
  let held := (s.lever n).forcedActive
  (s.updLever n fun l => { l with forcedActive := false }).endIf held .leverForced n

/-! ### Moves (R24 to R28) -/

/-- R22: a lever proved at an end. -/
def proveAt (n : Nat) (e : LeverEnd) (s : State) : State :=
  s.updLever n fun l => { l with position := e.position, lastProved := some e, notHome := false }

/-- R24: the entry into CONTACT_FAULT. DESIGN CHOICE, log entry 6: the raise is handed before the evaluation. -/
def enterContactFault (n : Nat) (s : State) : State :=
  let s1 := s.updLever n fun l =>
    { l with position := .contactFault, provedBeforeFault := l.position.provedEnd.isSome, notHome := false,
             contactActive := true }
  ((s1.leverReport n 7 []).raise .leverContact n).evaluate .verdict

/-- R23: the entry into TRANSIT. -/
def enterTransit (n : Nat) (s : State) : State :=
  s.updLever n fun l => { l with position := .transit, transitSince := s.now, notHome := false }

/-- R24: a stroke that continues after CONTACT_FAULT. -/
def continueStroke (n : Nat) (s : State) : State := ((s.enterTransit n).endContact n).evaluate .verdict

/-- R25: a departure from an end, judged on the lock as it stood. It is evaluated before the raise of a forced one cuts
the frame supply, as in 02's example "The same pull with the second lever late". -/
def depart (n : Nat) (e : LeverEnd) (s : State) : State :=
  let isForced := s.forced n
  let s1 := ((s.enterTransit n).leverReport n (if isForced then 2 else 1) [e.code]).endContact n
  let s2 := s1.evaluate .verdict
  let s3 :=
    if isForced then (s2.updLever n fun l => { l with forcedActive := true }).raise .leverForced n else s2
  if e = .normal then s3.engageLocks n .departure else s3

/-- R26: an arrival accepted as a completed move; the consumption of R15 is decided on the state it finds. -/
def completeMove (n : Nat) (e : LeverEnd) (s : State) : State :=
  let qs := s.consumedBy n e
  let s1 := (((s.proveAt n e).leverReport n 3 (e.code :: sequenceSet qs)).endContact n).endForced n
  let s2 := (s1.evaluate .verdict) |> forEach qs (sendNotice (.lever n))
  let s3 := match e with
    | .reverse => s2.engageLocks n .completion
    | .normal => s2.replaceLocks n
  s3.signalAtSections n e

/-- R26: a forced arrival. LEVER_FORCED is raised and ended together, the lever being proved (R41, R152): after a
forced departure that is a recurrence on its entry, which the one hand-off leaves ENDED (R158, R159). DESIGN CHOICE,
log entry 6: it is evaluated before its raise cuts the frame supply, so that a lock can go FREE and HELD in one step. -/
def forcedArrival (n : Nat) (e : LeverEnd) (s : State) : State :=
  let s1 := ((s.proveAt n e).leverReport n 4 [e.code]).endContact n
  let s2 := s1.evaluate .verdict
  let s3 := (s2.updLever n fun l => { l with forcedActive := false }).raiseAndEnd .leverForced n
  match e with
  | .reverse => s3.engageLocks n .forcedArrival
  | .normal => s3

/-- R26. -/
def arrive (n : Nat) (e : LeverEnd) (s : State) : State :=
  if s.forced n then s.forcedArrival n e else s.completeMove n e

/-- R24 (row 8), R27 (row 5), R28 (row 9): proved at an end with no judgement and no owner but the evaluator. -/
def proveQuietly (n row : Nat) (detail : List Byte) (e : LeverEnd) (s : State) : State :=
  (((((s.proveAt n e).leverReport n row detail).endContact n).endForced n).evaluate .verdict)

/-- R24, R26 to R28: a fitted lever found at an end. -/
def reachEnd (n : Nat) (e : LeverEnd) (s : State) : State :=
  match (s.lever n).lastProved with
  | none => s.proveQuietly n 9 [e.code] e
  | some l =>
    if l = e then
      if (s.lever n).position = .contactFault then s.proveQuietly n 8 [] e else s.proveQuietly n 5 [e.code] e
    else s.arrive n e

/-- R23 to R28: a fitted lever's contacts now give `p`. -/
def fittedMove (n : Nat) (p : Position) (s : State) : State :=
  let l := s.lever n
  match p with
  | .contactFault => s.enterContactFault n
  | .normal => s.reachEnd n .normal
  | .reverse => s.reachEnd n .reverse
  | .transit =>
    match l.position.provedEnd with
    | some e => s.depart n e
    | none =>
      match l.position, l.provedBeforeFault, l.lastProved with
      | .contactFault, true, some e => s.depart n e
      | _, _, _ => s.continueStroke n

/-- R22, R28: a lever that is not fitted: its position, and the reports of its moves and returns. -/
def unfittedMove (n : Nat) (p : Position) (s : State) : State :=
  let l := s.lever n
  match p with
  | .transit => s.enterTransit n
  | .contactFault => s.updLever n fun x => { x with position := .contactFault, notHome := false }
  | .normal | .reverse =>
    let e : LeverEnd := if p = .normal then .normal else .reverse
    let s1 := s.proveAt n e
    match l.lastProved with
    | none => s1
    | some o =>
      if o ≠ e then s1.leverReport n 10 [0, e.code]
      else if l.position = .transit then s1.leverReport n 10 [1, e.code]
      else s1

/-- R21, R22: a contact accepted at a level. -/
def contactChange (n : Nat) (k : LeverContact) (made : Bool) (s : State) : State :=
  let l := s.lever n
  let nm := if k = .normal then made else l.normalMade
  let rm := if k = .reverse then made else l.reverseMade
  if nm = l.normalMade ∧ rm = l.reverseMade then s
  else
    let s1 := s.updLever n fun x => { x with normalMade := nm, reverseMade := rm }
    if s.leverFitted n then s1.fittedMove n (positionOf nm rm) else s1.unfittedMove n (positionOf nm rm)

/-! ### Timed events of a lever -/

/-- R23. -/
def transitDue (s : State) (n : Nat) : Bool :=
  let l := s.lever n
  s.leverFitted n && l.position == .transit && !l.notHome && decide (l.transitSince + s.transitLimit ≤ s.now)

/-- R31, R32: the window of a command closes one lock travel time after it opened. -/
def windowDue (s : State) (n : Nat) : Bool :=
  s.hasLock n &&
    (match (s.lever n).window with
     | none => false
     | some t => decide (t + s.travelTime ≤ s.now))

/-! ### Readback (R31, R32, R35) -/

def raiseDrive (n : Nat) (s : State) : State :=
  (s.updLever n fun l => { l with driveActive := true }).raise .lockDrive n

def raiseStuck (n : Nat) (s : State) : State :=
  (s.updLever n fun l => { l with stuckActive := true }).raise .lockStuckFree n

/-- R31, R32, R35: the window closes: the readback must agree with the command. -/
def closeWindow (n : Nat) (s : State) : State :=
  let l := s.lever n
  let s1 := s.updLever n fun x => { x with window := none }
  match l.command with
  | .free => if !l.readback && !s.frame.lockSupply then s1.raiseDrive n else s1
  | .held => if l.readback then s1.raiseStuck n else s1

/-- R31, R32, R35: a readback accepted at a level, for a lever that carries a lock. -/
def lockedReadback (n : Nat) (energised : Bool) (s : State) : State :=
  let l := s.lever n
  let s1 := s.updLever n fun x => { x with readback := energised }
  if energised then
    let s2 := (s1.updLever n fun x => { x with driveActive := false }).endIf l.driveActive .lockDrive n
    match l.command with
    | .free => s2.updLever n fun x => { x with window := none }
    | .held => if l.window.isNone then s2.raiseStuck n else s2
  else
    let s2 := (s1.updLever n fun x => { x with stuckActive := false }).endIf l.stuckActive .lockStuckFree n
    match l.command with
    | .held => s2.updLever n fun x => { x with window := none }
    | .free => if l.window.isNone && !s.frame.lockSupply then s2.raiseDrive n else s2

/-- R21: a readback accepted at a level; a level already held is no change. -/
def readbackChange (n : Nat) (energised : Bool) (s : State) : State :=
  if (s.lever n).readback = energised then s
  else if s.hasLock n then s.lockedReadback n energised
  else s.updLever n fun x => { x with readback := energised }

/-! ### Lock supply (R34, R35) -/

/-- R35: a fresh FREE window for a lever commanded FREE whose readback is not energised. -/
def freshWindow (n : Nat) (s : State) : State :=
  if s.hasLock n && (s.lever n).command == .free && !(s.lever n).readback then
    s.updLever n fun l => { l with window := some s.now }
  else s

/-- R34, R35: a sample of channel 28, classified while the part has an active table. -/
def supplySample (r : Sample) (s : State) : State :=
  match s.frameRec with
  | none => s
  | some rec =>
    if r.toNat < rec.threshold.toNat then
      let run := min 3 (s.frame.lowRun + 1)
      let begins := decide (s.frame.lowRun = 2)
      let s1 : State :=
        { s with frame := { s.frame with lowRun := run, lockSupply := s.frame.lockSupply || begins } }
      if begins then s1.raise .lockSupply 0 else s1
    else
      let s1 : State := { s with frame := { s.frame with lowRun := 0, lockSupply := false } }
      if s.frame.lockSupply then forEach allLevers freshWindow (s1.endFault .lockSupply 0) else s1

end State

/-! ### Meanings -/

/-- LEVER_CONTACT_CHANGE (R21 to R28). -/
def execLeverContactChange (n : Nat) (k : LeverContact) (made : Bool) (s : State) : Result :=
  onObject (leverOk n) <| if leverOk n then s.contactChange n k made else s

/-- TRANSIT_LIMIT (R23): LEVER_CONTACT and the report "not home", with the end left. -/
def execTransitLimit (n : Nat) (s : State) : Result :=
  onObject (leverOk n) <|
    if s.transitDue n then
      ((s.updLever n fun l => { l with notHome := true, contactActive := true }).leverReport n 6
        [optEnd (s.lever n).lastProved]).raise .leverContact n
    else s

/-- LOCK_READBACK_CHANGE (R31, R32). -/
def execLockReadbackChange (n : Nat) (energised : Bool) (s : State) : Result :=
  onObject (leverOk n) <| if leverOk n then s.readbackChange n energised else s

/-- READBACK_WINDOW_CLOSE (R31, R32). -/
def execReadbackWindowClose (n : Nat) (s : State) : Result :=
  onObject (leverOk n) <| if s.windowDue n then s.closeWindow n else s

end Sys2Proof.Machine
end

