-- ==== Sys2Proof/Machine/Bell.lean ====
section
/-! DEFINITION. The bell unit (06, R102 to R122), but for its start values (Machine/Store.lean) and its reading
(Machine/Reads.lean). Outbound is the plunger's direction, inbound the line sense's. -/

namespace Sys2Proof.Machine

def Piece.pressed (p : Piece) : Bool := p.release.isNone

def Press.pressed (p : Press) : Bool := p.release.isNone

/-- How long a period has lasted: to now while it is pressed, to its release afterwards. -/
def extent (now start : Time) (release : Option Time) : Nat := release.getD now - start

def Piece.extent (now : Time) (p : Piece) : Nat := Machine.extent now p.start p.release

/-- R106: the press has reached a duration when it has been pressed with its press time at least that. -/
def Press.extent (now : Time) (p : Press) : Nat := Machine.extent now p.start p.release

def Assembler.pressed (a : Assembler) : Bool := a.piece.any Piece.pressed

/-- R109: a piece is pressed of a press that has reached the held pending. -/
def Assembler.holds (a : Assembler) : Bool := a.press.any fun p => p.pressed && p.pendingReached

def BellState.side (b : BellState) : Direction → Assembler
  | .outbound => b.outbound
  | .inbound => b.inbound

def BellState.setSide (d : Direction) (a : Assembler) (b : BellState) : BellState :=
  match d with
  | .outbound => { b with outbound := a }
  | .inbound => { b with inbound := a }

def otherDir : Direction → Direction
  | .outbound => .inbound
  | .inbound => .outbound

def BellState.driving (b : BellState) : Bool := b.driveSince.isSome

/-- R103: the line sense is blanked while the part drives the line. -/
def BellState.sensed (b : BellState) : Bool := b.sense && !b.driving

/-- R109: the line is held, in either direction. -/
def BellState.holds (b : BellState) : Bool := b.outbound.holds || b.inbound.holds

/-- R109: a deadline held in a slot is moved by the part of the hold that follows its setting. -/
def Slot.moved (since now : Time) (x : Slot) : Slot := { x with deadline := x.deadline + (now - max since x.setAt) }

/-- R109: the hold begins, goes on or ends; at its end the deadlines held move. -/
def BellState.holdUpdate (now : Time) (b : BellState) : BellState :=
  match b.heldSince, b.holds with
  | none, true => { b with heldSince := some now }
  | some t, false =>
    { b with heldSince := none, awaited := b.awaited.map (Slot.moved t now), owed := b.owed.map (Slot.moved t now) }
  | _, _ => b

/-- R112: the silence of a CROSSED section: it stands while neither input is pressed. -/
def BellState.silenceUpdate (now : Time) (b : BellState) : BellState :=
  if b.crossed then
    if b.outbound.pressed || b.inbound.pressed then { b with silentSince := none }
    else { b with silentSince := some (b.silentSince.getD now) }
  else b

/-- The release of the last qualified press of a code moves on with each release of its pieces (R107). -/
def Code.released (now : Time) (c : Code) : Code := { c with release := some now }

/-- R106: the piece in progress ends. -/
def Assembler.pieceEnd (now : Time) (a : Assembler) : Assembler :=
  if a.pressed then
    { a with
      piece := a.piece.map fun p => { p with release := some now }
      press := a.press.map fun p => { p with release := some now }
      code := if a.press.any (·.qualified) then a.code.map (Code.released now) else a.code }
  else a

/-- R103: a piece starts at an input without assemblers. -/
def newPiece (now : Time) : Piece := { start := now, release := none, counted := false }

/-- R106: a press starts with its first piece. -/
def newPress (now : Time) : Press where
  start := now
  release := none
  qualified := false
  longReached := false
  pendingReached := false
  ringReached := false
  gap := 0

/-- R106: a piece that starts less than the merge gap after the last release joins its press; another begins a
new one. -/
def Assembler.pieceStart (now merge : Nat) (assembles : Bool) (a : Assembler) : Assembler :=
  { a with
    piece := some (newPiece now)
    press :=
      if assembles then
        match a.press with
        | some p =>
          if now < p.release.getD now + merge then some { p with release := none } else some (newPress now)
        | none => some (newPress now)
      else none }

/-- R107: one beat into a code, in the last group or a new one by the gap; a beat too many spoils the code. -/
def Code.addBeat (sameGroup : Bool) (c : Code) : Code :=
  let total := c.groups.foldl (· + ·) 0
  if 24 ≤ total then { c with malformed := true }
  else
    match c.groups.getLast? with
    | none => { c with groups := [1] }
    | some k =>
      if sameGroup then
        if 12 ≤ k then { c with malformed := true } else { c with groups := c.groups.dropLast ++ [k + 1] }
      else if 4 ≤ c.groups.length then { c with malformed := true }
      else { c with groups := c.groups ++ [1] }

/-- The entries of a table's code set (R114). -/
def codeInSet (k : Nat) (gs : List Nat) : List Record → Option CodeRec
  | [] => none
  | .code r :: rs =>
    if r.codeSets.getLsbD k && r.groups.map (·.toNat) == gs then some r else codeInSet k gs rs
  | _ :: rs => codeInSet k gs rs

namespace State

/-- R106: each fitted section has assemblers, and without a table all four. -/
def assembles (s : State) (x : SectionId) : Bool := !s.hasTable || s.sectionFitted x

/-- R119: conditions are raised for fitted sections of the active table only. -/
def bellFaults (s : State) (x : SectionId) : Bool := s.sectionFitted x

def bellReport (x : SectionId) (row : Nat) (detail : List Byte) (s : State) : State :=
  s.report .bell (secCode x).toNat row detail

def setAssembler (x : SectionId) (d : Direction) (f : Assembler → Assembler) (s : State) : State :=
  s.updBell x fun b => b.setSide d (f (b.side d))

/-- What follows every change of a piece: the hold (R109) and the silence (R112). -/
def bellAfter (x : SectionId) (s : State) : State :=
  s.updBell x fun b => (b.holdUpdate s.now).silenceUpdate s.now

/-! ### Presses (R107, R110, R111) -/

/-- A threshold of a press is due: it has been reached and not yet taken. -/
def pressDue (s : State) (x : SectionId) (d : Direction) (taken : Press → Bool) (limit : Word16) : Bool :=
  s.assembles x && ((s.bell x).side d).press.any fun p => !taken p && decide (limit.toNat ≤ p.extent s.now)

def qualifyDue (s : State) (x : SectionId) (d : Direction) : Bool :=
  !(s.bell x).crossed && s.pressDue x d (·.qualified) s.timing.beatMinimum

def longDue (s : State) (x : SectionId) (d : Direction) : Bool :=
  s.pressDue x d (·.longReached) s.timing.longPress

def pendingDue (s : State) (x : SectionId) (d : Direction) : Bool :=
  s.pressDue x d (·.pendingReached) s.timing.heldPending

def ringDue (s : State) (x : SectionId) (d : Direction) : Bool :=
  s.pressDue x d (·.ringReached) s.timing.heldRing

def settleDue (s : State) (x : SectionId) (d : Direction) : Bool :=
  s.assembles x && ((s.bell x).side d).press.any fun p =>
    match p.release with
    | none => false
    | some t => decide (t + s.timing.mergeGap.toNat ≤ s.now)

/-- The pattern assembled so far in a direction (R111, R122). -/
def patternSoFar (s : State) (x : SectionId) (d : Direction) : List Nat :=
  (((s.bell x).side d).code.map (·.groups)).getD []

/-- R111: the bells cross: both codes discarded, CROSSED, BELL_CROSSED. DESIGN CHOICE, log entry 48: the report gives
the outbound pattern, then the inbound. -/
def crossBells (x : SectionId) (s : State) : State :=
  let out := patternBytes (s.patternSoFar x .outbound)
  let inb := patternBytes (s.patternSoFar x .inbound)
  let s1 := (s.updBell x fun b =>
    { b with outbound := { b.outbound with code := none }, inbound := { b.inbound with code := none },
             crossed := true, silentSince := none }).bellAfter x
  let s2 := if s1.bellFaults x then s1.raise .bellCrossed (secCode x).toNat else s1
  s2.bellReport x 10 (out ++ inb)

/-- R107: a press that qualifies, released or not, begins a code, with its report, or belongs to the one in progress. -/
def beginOrJoin (x : SectionId) (d : Direction) (release : Option Time) (s : State) : State :=
  match ((s.bell x).side d).code with
  | some c =>
    s.setAssembler x d fun y =>
      { y with code := some (match release with
          | none => c
          | some t => c.released t) }
  | none =>
    (s.setAssembler x d fun y =>
      { y with code := some { groups := [], malformed := false, release := release } }).bellReport x 1 [dirCode d]

/-- R107, R111: a press qualifies: it begins or joins a code of its direction, and crosses the bells where the other
direction has one in progress. -/
def qualify (x : SectionId) (d : Direction) (s : State) : State :=
  let s1 := (s.setAssembler x d fun y =>
    { y with press := y.press.map fun p =>
        { p with qualified := true, gap := p.start - ((y.code.bind (·.release)).getD p.start) } }).beginOrJoin x d
      (((s.bell x).side d).press.bind (·.release))
  if ((s.bell x).side (otherDir d)).code.isSome then s1.crossBells x else s1

/-- R107: the long press spoils the code in progress. -/
def longPress (x : SectionId) (d : Direction) (s : State) : State :=
  s.setAssembler x d fun a =>
    { a with press := a.press.map fun p => { p with longReached := true },
             code := if a.press.any (·.qualified) then a.code.map fun c => { c with malformed := true } else a.code }

/-- R109: the press reaches the held pending. -/
def heldPending (x : SectionId) (d : Direction) (s : State) : State :=
  (s.setAssembler x d fun a =>
    { a with press := a.press.map fun p => { p with pendingReached := true } }).bellAfter x

/-- R110: the held ring: the code in progress of the direction is discarded and HELD_RING raised. DESIGN CHOICE, log
entry 37: the detail of the report is the direction alone, CROSSED or not. -/
def ringHeld (x : SectionId) (d : Direction) (s : State) : State :=
  let s1 := s.setAssembler x d fun a =>
    { a with press := a.press.map fun p => { p with ringReached := true }, code := none }
  let s2 := if s1.bellFaults x then s1.raise .heldRing (secCode x).toNat else s1
  s2.bellReport x 12 [dirCode d]

/-- Whether a press that has reached the held ring has not settled (R110). -/
def ringStands (s : State) (x : SectionId) : Bool :=
  (s.bell x).outbound.press.any (·.ringReached) || (s.bell x).inbound.press.any (·.ringReached)

/-- R107, R110: a press settles: a beat of its code, or the end of its held ring. DESIGN CHOICE, log entry 38: the
duration in the report is two bytes of milliseconds, saturating. -/
def settle (x : SectionId) (d : Direction) (s : State) : State :=
  match ((s.bell x).side d).press with
  | none => s
  | some p =>
    let long := decide (s.timing.longPress.toNat ≤ p.extent s.now)
    let same := decide (p.gap < s.timing.groupGap.toNat)
    let s1 := s.setAssembler x d fun a =>
      { a with press := none,
               code := if p.qualified && !long then a.code.map (Code.addBeat same) else a.code }
    if p.ringReached then
      let s2 := if s1.bellFaults x && !s1.ringStands x then s1.endFault .heldRing (secCode x).toNat else s1
      s2.bellReport x 13 (dirCode d :: sat16 (p.extent s.now))
    else s1

/-! ### Pieces (R103 to R106) -/

def startPiece (x : SectionId) (d : Direction) (s : State) : State :=
  let s0 := if s.settleDue x d then s.settle x d else s
  (s0.setAssembler x d (Assembler.pieceStart s0.now s0.timing.mergeGap.toNat (s0.assembles x))).bellAfter x

def endPiece (x : SectionId) (d : Direction) (s : State) : State :=
  (s.setAssembler x d (Assembler.pieceEnd s.now)).bellAfter x

/-- R104: a plunger piece has lasted the beat minimum and has not asked for the drive. -/
def driveStartDue (s : State) (x : SectionId) : Bool :=
  (s.bell x).outbound.piece.any fun p => !p.counted && decide (s.timing.beatMinimum.toNat ≤ p.extent s.now)

/-- R103, R104: the drive starts, or goes on for one more piece; a sense piece in progress ends. -/
def driveStart (x : SectionId) (s : State) : State :=
  let s1 := s.setAssembler x .outbound fun a => { a with piece := a.piece.map fun p => { p with counted := true } }
  if (s.bell x).driving then s1
  else
    let s2 := s1.updBell x fun b => { b with driveSince := some s.now }
    if (s.bell x).inbound.pressed then s2.endPiece x .inbound else s2

/-- R104: 60 ms after the drive started, and no piece that asked for it still pressed. -/
def driveEndDue (s : State) (x : SectionId) : Bool :=
  match (s.bell x).driveSince with
  | none => false
  | some t =>
    decide (t + Config.pulseMinimum ≤ s.now) &&
      !((s.bell x).outbound.piece.any fun p => p.pressed && p.counted)

/-- R103, R104: the drive stops; a sense still pressed starts a new piece. -/
def driveStop (x : SectionId) (s : State) : State :=
  let s1 := s.updBell x fun b => { b with driveSince := none }
  if (s.bell x).sense then s1.startPiece x .inbound else s1

/-- R105: a sense piece has lasted the beat minimum and has not struck. -/
def strikeDue (s : State) (x : SectionId) : Bool :=
  (s.bell x).inbound.piece.any fun p => !p.counted && decide (s.timing.beatMinimum.toNat ≤ p.extent s.now)

def strike (x : SectionId) (s : State) : State :=
  s.updBell x fun b =>
    { b with sounderUntil := some (s.now + Config.strikeTime),
             inbound := { b.inbound with piece := b.inbound.piece.map fun p => { p with counted := true } } }

def soundOffDue (s : State) (x : SectionId) : Bool :=
  match (s.bell x).sounderUntil with
  | none => false
  | some t => decide (t ≤ s.now)

/-! ### Codes (R108, R112, R114 to R117) -/

/-- R108: the code end gap has passed since the release of the last qualified press, none pressed. -/
def codeEndDue (s : State) (x : SectionId) (d : Direction) : Bool :=
  let a := (s.bell x).side d
  match a.code with
  | none => false
  | some c =>
    !(a.press.any fun p => p.pressed && p.qualified) &&
      (match c.release with
       | none => false
       | some t => decide (t + s.timing.codeEndGap.toNat ≤ s.now))

def crossClearDue (s : State) (x : SectionId) : Bool :=
  (s.bell x).crossed &&
    (match (s.bell x).silentSince with
     | none => false
     | some t => decide (t + s.timing.codeEndGap.toNat ≤ s.now))

def slotDue (s : State) (x : SectionId) (o : Option Slot) : Bool :=
  match o with
  | none => false
  | some y => (s.bell x).heldSince.isNone && decide (y.deadline ≤ s.now)

def newSlot (s : State) (e : Nat) : Slot where
  entry := e
  deadline := s.now + s.timing.repetition.toNat * 1000
  setAt := s.now

def exchangeOf (d : Direction) (r : CodeRec) : Option Exchange :=
  (Meaning.ofCode r.meaning.toNat).map fun m =>
    { dir := d, entry := r.entry.toNat, meaning := m, trainClass := r.trainClass.toNat }

def codeFields (r : CodeRec) : List Byte := [r.entry, r.meaning, r.trainClass]

/-- R115, R116, R118: an exchange completes and is handed to the block unit. -/
def completeExchange (x : SectionId) (d : Direction) (r : CodeRec) (s : State) : State :=
  let s1 := s.bellReport x 3 (dirCode d :: codeFields r)
  match exchangeOf d r with
  | none => s1
  | some e => s1.takeExchange x e

/-- R115: an outbound code recognised. An owed code of another entry lapses first; then the code is reported awaited,
and after it the code it supersedes (R122's order, R186). -/
def outboundEnded (x : SectionId) (r : CodeRec) (s : State) : State :=
  let e := r.entry.toNat
  let owed := (s.bell x).owed
  if owed.any (fun o => o.entry == e) then
    (s.updBell x fun b => { b with owed := none }).completeExchange x .inbound r
  else
    let s1 := match owed with
      | none => s
      | some o => (s.updBell x fun b => { b with owed := none }).bellReport x 7 [byte o.entry]
    let s2 := (s1.updBell x fun b => { b with awaited := some (s.newSlot e) }).bellReport x 4 [byte e]
    match (s.bell x).awaited with
    | none => s2
    | some o => s2.bellReport x 5 [byte o.entry]

/-- R116: an inbound code becomes owed, and an older owed code lapses (R122's order, R186); an OBSTRUCTION is an
urgent receipt. -/
def becomeOwed (x : SectionId) (r : CodeRec) (s : State) : State :=
  let e := r.entry.toNat
  let s1 := (s.updBell x fun b => { b with owed := some (s.newSlot e) }).bellReport x 6 [byte e]
  let s2 := match (s.bell x).owed with
    | none => s1
    | some o => s1.bellReport x 7 [byte o.entry]
  if Meaning.ofCode r.meaning.toNat = some .obstruction then s2.urgentReceipt x else s2

/-- R116: an inbound code recognised. -/
def inboundEnded (x : SectionId) (r : CodeRec) (s : State) : State :=
  let e := r.entry.toNat
  match (s.bell x).awaited with
  | none => s.becomeOwed x r
  | some o =>
    let s1 := s.updBell x fun b => { b with awaited := none }
    if o.entry = e then s1.completeExchange x .outbound r
    else
      ((s1.raiseAndEnd .bellMisrepeat (secCode x).toNat).bellReport x 8 [byte o.entry, byte e]).becomeOwed x r

/-- R114: the entry a code is recognised as, in the section's set. -/
def recognise (s : State) (x : SectionId) (c : Code) : Option CodeRec :=
  match s.sectionRec x with
  | none => none
  | some rec => if c.malformed then none else codeInSet rec.codeSet.toNat c.groups s.table

/-- R108, R114 to R116: a code ends. -/
def endCode (x : SectionId) (d : Direction) (s : State) : State :=
  match ((s.bell x).side d).code with
  | none => s
  | some c =>
    let s1 := s.setAssembler x d fun a => { a with code := none }
    match s.recognise x c with
    | none => s1.bellReport x 2 (1 :: dirCode d :: (patternBytes c.groups ++ [flag c.malformed]))
    | some r =>
      let s2 := s1.bellReport x 2 (0 :: dirCode d :: (patternBytes c.groups ++ codeFields r))
      match d with
      | .outbound => s2.outboundEnded x r
      | .inbound => s2.inboundEnded x r

end State

/-! ### Meanings -/

/-- BELL_PLUNGER_CHANGE (R103): a level already held is no change. -/
def execBellPlungerChange (x : SectionId) (pressed : Bool) (s : State) : Result :=
  .next <|
    if (s.bell x).plunger = pressed then s
    else
      let s1 := s.updBell x fun b => { b with plunger := pressed }
      if pressed then s1.startPiece x .outbound else s1.endPiece x .outbound

/-- BELL_SENSE_CHANGE (R103): while the line is driven the level is kept and nothing is heard. -/
def execBellSenseChange (x : SectionId) (pressed : Bool) (s : State) : Result :=
  .next <|
    if (s.bell x).sense = pressed then s
    else
      let s1 := s.updBell x fun b => { b with sense := pressed }
      if (s.bell x).driving then s1
      else if pressed then s1.startPiece x .inbound
      else s1.endPiece x .inbound

/-- REGENERATION_DRIVE_START (R104). -/
def execRegenerationDriveStart (x : SectionId) (s : State) : Result :=
  .next <| if s.driveStartDue x then s.driveStart x else s

/-- DRIVE_END (R104). -/
def execDriveEnd (x : SectionId) (s : State) : Result :=
  .next <| if s.driveEndDue x then s.driveStop x else s

/-- SOUNDER_STRIKE (R105). -/
def execSounderStrike (x : SectionId) (s : State) : Result :=
  .next <| if s.strikeDue x then s.strike x else s

/-- SOUNDER_OFF (R105). -/
def execSounderOff (x : SectionId) (s : State) : Result :=
  .next <| if s.soundOffDue x then s.updBell x fun b => { b with sounderUntil := none } else s

/-- PRESS_QUALIFIES (R107, R111). -/
def execPressQualifies (x : SectionId) (d : Direction) (s : State) : Result :=
  .next <| if s.qualifyDue x d then s.qualify x d else s

/-- LONG_PRESS_REACHED (R107). -/
def execLongPressReached (x : SectionId) (d : Direction) (s : State) : Result :=
  .next <| if s.longDue x d then s.longPress x d else s

/-- HELD_PENDING_REACHED (R109). -/
def execHeldPendingReached (x : SectionId) (d : Direction) (s : State) : Result :=
  .next <| if s.pendingDue x d then s.heldPending x d else s

/-- HELD_RING (R110). -/
def execHeldRing (x : SectionId) (d : Direction) (s : State) : Result :=
  .next <| if s.ringDue x d then s.ringHeld x d else s

/-- PRESS_SETTLES (R106, R107, R110). -/
def execPressSettles (x : SectionId) (d : Direction) (s : State) : Result :=
  .next <| if s.settleDue x d then s.settle x d else s

/-- CODE_END (R108, R114 to R116). -/
def execCodeEnd (x : SectionId) (d : Direction) (s : State) : Result :=
  .next <| if s.codeEndDue x d then s.endCode x d else s

/-- CROSSING_CLEARED (R112). -/
def execCrossingCleared (x : SectionId) (s : State) : Result :=
  .next <|
    if s.crossClearDue x then
      let s1 := s.updBell x fun b => { b with crossed := false, silentSince := none }
      (s1.endIf (s.bellFaults x) .bellCrossed (secCode x).toNat).bellReport x 11 []
    else s

/-- AWAITED_DEADLINE (R117). -/
def execAwaitedDeadline (x : SectionId) (s : State) : Result :=
  .next <|
    match (s.bell x).awaited with
    | none => s
    | some o =>
      if s.slotDue x (some o) then
        ((s.updBell x fun b => { b with awaited := none }).raiseAndEnd .bellNotRepeated (secCode x).toNat).bellReport x 9
          [byte o.entry]
      else s

/-- OWED_DEADLINE (R117). -/
def execOwedDeadline (x : SectionId) (s : State) : Result :=
  .next <|
    match (s.bell x).owed with
    | none => s
    | some o =>
      if s.slotDue x (some o) then
        (s.updBell x fun b => { b with owed := none }).bellReport x 7 [byte o.entry]
      else s

end Sys2Proof.Machine
end

