-- ==== Sys2Proof/Machine/BoxReset.lean ====
section
/-! DEFINITION. The box reset key (R163, R164) and the end of the short alarm (R162). -/

namespace Sys2Proof.Machine

namespace State

/-! ### Step 3 of R163: the conditions handed again -/

/-- R163: a condition handed again. One that matches an ACTIVE entry changes nothing; another is a raise. -/
def handAgain (held : Bool) (c : FaultClass) (obj : Nat) (s : State) : State :=
  if held && !((s.faults.entryOf c obj).any (·.active)) then s.raise c obj else s

/-- The frame unit's active conditions of one lever. -/
def handLever (n : Nat) (s : State) : State :=
  let s1 := s.handAgain (s.lever n).contactActive .leverContact n
  let s2 := s1.handAgain (s1.lever n).forcedActive .leverForced n
  let s3 := s2.handAgain (s2.lever n).driveActive .lockDrive n
  s3.handAgain (s3.lever n).stuckActive .lockStuckFree n

/-- The track unit's active conditions of one circuit. -/
def handTrack (t : Nat) (s : State) : State :=
  let s1 := s.handAgain (s.track t).channelFault .trackChannel t
  s1.handAgain (s1.track t).degraded .trackDegraded t

/-- The block unit's active condition of one section. -/
def handSection (x : SectionId) (s : State) : State :=
  s.handAgain (s.sectn x).mismatch .indicatorMismatch (secCode x).toNat

/-- The bell unit's active conditions of one section. -/
def handBell (x : SectionId) (s : State) : State :=
  let s1 := s.handAgain (s.bellFaults x && (s.bell x).crossed) .bellCrossed (secCode x).toNat
  s1.handAgain (s1.bellFaults x && s1.ringStands x) .heldRing (secCode x).toNat

/-- R163, step 3: every owner hands again what it holds active. DESIGN CHOICE, log entry 46: the conditions of one
owner go in the order of its objects, and of one object in the order of the classes. -/
def handAll (s : State) : State :=
  let s1 := forEach allLevers handLever s
  let s2 := s1.handAgain s1.frame.lockSupply .lockSupply 0
  let s3 := forEach allTracks handTrack s2
  let s4 := forEach allSections handSection s3
  forEach allSections handBell s4

/-! ### Step 4 (R164) -/

/-- A standing entry of one of two classes that still holds a response. -/
def standing (s : State) (p : FaultEntry → Bool) : Bool := s.faults.entries.any p

/-- R164: the frame supply is to be restored. -/
def liftsFrame (s : State) : Bool :=
  s.faults.frameCut && !s.standing fun e => e.cls == .leverForced || e.cls == .lockStuckFree

/-- R164: section `x` is to be unfrozen. -/
def liftsSection (s : State) (x : SectionId) : Bool :=
  s.faults.frozenSet.getLsbD (secCode x).toNat &&
    !s.standing fun e =>
      e.unmasked && (e.cls == .indicatorMismatch || e.cls == .blockIrregular) && e.object == (secCode x).toNat

/-- R164: circuit `t` is to be lifted. -/
def liftsTrack (s : State) (t : Nat) : Bool :=
  s.faults.failedSet.getLsbD (t - 1) &&
    !s.standing fun e => e.unmasked && (e.cls == .trackChannel || e.cls == .trackDegraded) && e.object == t

/-- The sets of sections and circuits to be lifted, as R191 writes sets. -/
def liftSections (s : State) : BitVec 4 := BitVec.ofNat 4 (flagBits (allSections.map s.liftsSection))
def liftTracks (s : State) : BitVec 24 := BitVec.ofNat 24 (flagBits (allTracks.map s.liftsTrack))

/-- A set of circuits in three bytes (R191). -/
def trackSetBytes (v : BitVec 24) : List Byte := [(v >>> 16).setWidth 8, (v >>> 8).setWidth 8, v.setWidth 8]

/-- R164: the register emptied of what is lifted. -/
def clearRegister (frame : Bool) (secs : BitVec 4) (trks : BitVec 24) (s : State) : State :=
  s.setFaults
    { s.faults with frameCut := s.faults.frameCut && !frame, frozenSet := s.faults.frozenSet &&& ~~~secs,
                    failedSet := s.faults.failedSet &&& ~~~trks }

/-- R164: the orders sent, each to its owner; then, after the press, the raises that the unfreezes lead to (log
entry 6 for the order among the owners and among the sections). -/
def sendLifts (frame : Bool) (secs : BitVec 4) (trks : BitVec 24) (s : State) : State :=
  let lifted := allSections.filter fun x => secs.getLsbD (secCode x).toNat
  let s1 := if frame then s.restoreFrame else s
  let s2 := forEach lifted unfreeze s1
  let s3 := forEach allTracks (fun n t => if trks.getLsbD (n - 1) then t.liftTrack n else t) s2
  forEach (lifted.filter s.unfreezeRaises) irregular s3

/-- R163, steps 1 and 2: the ENDED entries removed, the alarm silenced. -/
def silence (s : State) : State :=
  s.setFaults
    { s.faults with
      entries := (s.faults.entries.filter (·.active)).map fun e => { e with alarmPending := false }
      shortAlarm := none }

/-- R163, step 3. -/
def restoreOverflow (s : State) : State :=
  if s.faults.overflow then (s.setFaults { s.faults with overflow := false, overflowAlarm := false }).handAll else s

/-- R163: a press, its report (log entry 17 for the orders in it), and what it lifts. -/
def boxReset (s : State) : State :=
  let removed := (s.faults.entries.filter fun e => !e.active).length
  let s3 := s.silence.restoreOverflow
  let frame := s3.liftsFrame
  let secs := s3.liftSections
  let trks := s3.liftTracks
  ((s3.clearRegister frame secs trks).report .fault 0 7
    (byte removed :: flag s.faults.overflow :: flag frame :: (trackSetBytes trks ++ [secs.setWidth 8]))).sendLifts
      frame secs trks

/-- R162: the short alarm has run its 5 s. -/
def shortAlarmDue (s : State) : Bool :=
  match s.faults.shortAlarm with
  | none => false
  | some t => decide (t ≤ s.now)

end State

/-! ### Meanings -/

/-- BOX_RESET_KEY (R163): a press is the passage from released to pressed. -/
def execBoxResetKey (pressed : Bool) (s : State) : Result :=
  .next <|
    if s.resetKey = pressed then s
    else
      let s1 : State := { s with resetKey := pressed }
      if pressed then s1.boxReset else s1

/-- SHORT_ALARM_END (R162). -/
def execShortAlarmEnd (s : State) : Result :=
  .next <| if s.shortAlarmDue then s.setFaults { s.faults with shortAlarm := none } else s

end Sys2Proof.Machine
end

