-- ==== Sys2Proof/Machine/Verify.lean ====
section
/-! DEFINITION. Verification of a closed load (R18, R19, R20, R48, R72, R86, R101, R113, R125, R175) and the
fingerprint of a table (R176). -/

namespace Sys2Proof.Machine

/-- The first reason whose check fails, in the order of a kind's table. -/
def firstReason : List (Bool × LoadReason) → Option LoadReason
  | [] => none
  | (bad, r) :: rest => if bad then some r else firstReason rest

def within (lo hi n : Nat) : Bool := decide (lo ≤ n ∧ n ≤ hi)

/-! ### Conditions (R18) -/

/-- The conditions of a term: the main one, and the when-condition where it has one. -/
def Term.conditions (t : Term) : List (Byte × Byte) :=
  if t.whenKind = absent then [(t.mainKind, t.mainOperand)]
  else [(t.mainKind, t.mainOperand), (t.whenKind, t.whenOperand)]

def LeverRec.conditions (r : LeverRec) : List (Byte × Byte) := r.terms.flatMap Term.conditions

/-- REF_RANGE: the operand of a condition is inside the range of its kind. -/
def operandInRange (k : ConditionKind) (x : Nat) : Bool :=
  match k with
  | .leverNormal | .leverReverse => within 1 48 x
  | .trackClear | .trackOccupied => within 1 24 x
  | .sectionRelease | .sectionBlocked => within 0 3 x
  | .approachFree | .passage => within 1 16 x
  | .plunger => within 1 8 x

/-- REF_ABSENT: the object of a condition has its record in the staged table; a SECTION record with its fitted
flag clear does not answer. -/
def operandPresent (all : List Record) (k : ConditionKind) (x : Nat) : Bool :=
  match k with
  | .leverNormal | .leverReverse => (leverOf x all).isSome
  | .trackClear | .trackOccupied => (trackOf x all).isSome
  | .sectionRelease | .sectionBlocked => all.any fun
    | .blockSection r => r.letter.toNat == x && r.fitted
    | _ => false
  | .approachFree => (approachOf x all).isSome
  | .passage => (sequenceOf x all).isSome
  | .plunger => true

/-- A condition of a known kind that fails a test. -/
def conditionFails (test : ConditionKind → Nat → Bool) (c : Byte × Byte) : Bool :=
  match ConditionKind.ofCode c.1.toNat with
  | none => false
  | some k => !test k c.2.toNat

def namesSelf (own : Nat) (k : ConditionKind) (x : Nat) : Bool :=
  match k with
  | .leverNormal | .leverReverse => x == own
  | _ => false

/-- R4: the pool use of a list of records. -/
def poolUse : List Record → Nat
  | [] => 0
  | .lever r :: rs => r.poolUse + poolUse rs
  | _ :: rs => poolUse rs

/-- R18, in its order. -/
def leverReason (all earlier : List Record) (r : LeverRec) : Option LoadReason :=
  firstReason
    [ (!within 1 48 r.number.toNat || (LeverKind.ofCode r.kind.toNat).isNone, .badValue),
      ((leverOf r.number.toNat earlier).isSome, .duplicate),
      (decide (16 < r.reverseList.length) || decide (16 < r.normalList.length), .listLong),
      (r.conditions.any fun c => (ConditionKind.ofCode c.1.toNat).isNone, .badCondition),
      (r.conditions.any (conditionFails operandInRange), .refRange),
      (r.terms.any fun t => ConditionKind.ofCode t.whenKind.toNat == some .passage, .whenPassage),
      (r.conditions.any (conditionFails fun k x => !namesSelf r.number.toNat k x), .selfReference),
      (r.conditions.any (conditionFails (operandPresent all)), .refAbsent),
      (r.isSpare && !r.terms.isEmpty, .spareTerms),
      (decide (Config.termPool < poolUse earlier + r.poolUse), .poolFull) ]

/-- R20; a field written 0 is "default", which the threshold has not. -/
def frameReason (r : FrameRec) : Option LoadReason :=
  let f := r.filled
  firstReason
    [ (!within 2 60 f.transitLimit.toNat || !within 50 500 f.travelTime.toNat ||
        !within 100 1000 f.threshold.toNat, .badValue) ]

/-- R48. -/
def trackReason (earlier : List Record) (r : TrackRec) : Option LoadReason :=
  firstReason
    [ (!within 1 24 r.circuit.toNat || !within 16 1000 r.pick.toNat ||
        !decide (r.drop.toNat + 16 ≤ r.pick.toNat) || !within 8 200 r.clearCount.toNat ||
        !within 32 255 r.degrade.toNat, .badValue),
      ((trackOf r.circuit.toNat earlier).isSome, .duplicate) ]

/-- R72. -/
def sequenceReason (all earlier : List Record) (r : SequenceRec) : Option LoadReason :=
  firstReason
    [ (!within 1 16 r.number.toNat || !within 2 4 r.circuits.length || !within 5 600 r.timeout.toNat, .badValue),
      ((sequenceOf r.number.toNat earlier).isSome, .duplicate),
      ((r.circuits.any fun c => !within 1 24 c.toNat) || (r.gate != absent && !within 1 48 r.gate.toNat), .refRange),
      (!decide r.circuits.Nodup, .repeatedTrack),
      ((r.circuits.any fun c => (trackOf c.toNat all).isNone) ||
        (r.gate != absent && (leverOf r.gate.toNat all).isNone), .refAbsent) ]

/-- NOT_SIGNAL (R86, R125): the lever's record has a kind other than SIGNAL. DESIGN CHOICE, log entry 35: of two
records of one lever the first in load order is looked at. -/
def notSignal (all : List Record) (n : Nat) : Bool := !(leverOf n all).any LeverRec.isSignal

/-- R86. -/
def approachReason (all earlier : List Record) (r : ApproachRec) : Option LoadReason :=
  firstReason
    [ (!within 1 16 r.number.toNat || !within 100 6000 r.hold.toNat, .badValue),
      ((approachOf r.number.toNat earlier).isSome, .duplicate),
      (!within 1 48 r.signal.toNat || !within 1 24 r.track.toNat ||
        (r.plunger != absent && !within 1 8 r.plunger.toNat) ||
        (r.release != absent && !within 1 16 r.release.toNat), .refRange),
      ((leverOf r.signal.toNat all).isNone || (trackOf r.track.toNat all).isNone ||
        (r.release != absent && (sequenceOf r.release.toNat all).isNone), .refAbsent),
      (notSignal all r.signal.toNat, .notSignal) ]

/-- R125; a record with its fitted flag clear is checked against its letter and DUPLICATE only. -/
def sectionReason (all earlier : List Record) (r : SectionRec) : Option LoadReason :=
  let f := r.fitted
  firstReason
    [ (!within 0 3 r.letter.toNat ||
        (f && (!within 1 3 r.codeSet.toNat || !within 64 400 r.onLevel.toNat ||
          !decide (16 ≤ r.offLevel.toNat ∧ r.offLevel.toNat + 16 ≤ r.onLevel.toNat))), .badValue),
      ((sectionOf r.letter.toNat earlier).isSome, .duplicate),
      (f && (!within 1 48 r.signal.toNat || !within 1 48 r.home.toNat || !within 1 16 r.arrival.toNat ||
        (r.clearing != absent && !within 1 24 r.clearing.toNat)), .refRange),
      (f && ((leverOf r.signal.toNat all).isNone || (leverOf r.home.toNat all).isNone ||
        (sequenceOf r.arrival.toNat all).isNone ||
        (r.clearing != absent && (trackOf r.clearing.toNat all).isNone)), .refAbsent),
      (f && (notSignal all r.signal.toNat || notSignal all r.home.toNat), .notSignal) ]

/-- R101, judged with the defaults filled in. -/
def timingReason (r : TimingRec) : Option LoadReason :=
  let t := r.filled
  firstReason
    [ (!within 20 60 t.beatMinimum.toNat || !within 400 900 t.longPress.toNat ||
        !within 700 1200 t.heldPending.toNat || !within 1200 3000 t.heldRing.toNat ||
        !within 20 100 t.mergeGap.toNat || !within 300 800 t.groupGap.toNat ||
        !within 1200 3000 t.codeEndGap.toNat || !within 5 60 t.repetition.toNat ||
        !within 10 120 t.attentionLife.toNat, .badValue),
      (!decide (t.beatMinimum.toNat < t.longPress.toNat ∧ t.longPress.toNat < t.heldPending.toNat ∧
        t.heldPending.toNat < t.heldRing.toNat ∧ t.mergeGap.toNat < t.groupGap.toNat ∧
        t.groupGap.toNat < t.codeEndGap.toNat), .timingOrder) ]

/-- R113: an earlier entry with an equal pattern shares a code set. -/
def ambiguousWith (r : CodeRec) : Record → Bool
  | .code e => e.groups == r.groups && (e.codeSets &&& r.codeSets) != 0
  | _ => false

/-- R113. -/
def codeReason (earlier : List Record) (r : CodeRec) : Option LoadReason :=
  let beats := r.groups.map (·.toNat)
  let isOffer := Meaning.ofCode r.meaning.toNat == some .offer
  firstReason
    [ (!within 1 32 r.entry.toNat || !within 1 4 beats.length || (beats.any fun n => !within 1 12 n) ||
        decide (24 < beats.foldl (· + ·) 0) || (Meaning.ofCode r.meaning.toNat).isNone ||
        (if isOffer then !within 0 7 r.trainClass.toNat else r.trainClass != absent) ||
        r.codeSets == 0 || (r.codeSets &&& 0xF1) != 0, .badValue),
      ((codeOf r.entry.toNat earlier).isSome, .duplicate),
      (earlier.any (ambiguousWith r), .ambiguous) ]

/-- R175: a record judged by the checks of its own kind. -/
def recordReason (all earlier : List Record) : Record → Option LoadReason
  | .frame r => frameReason r
  | .lever r => leverReason all earlier r
  | .track r => trackReason earlier r
  | .sequence r => sequenceReason all earlier r
  | .approach r => approachReason all earlier r
  | .blockSection r => sectionReason all earlier r
  | .timing r => timingReason r
  | .code r => codeReason earlier r

/-- R175, first pass: the first failing record in load order, counted from 1. -/
def firstPass (all earlier : List Record) (i : Nat) : List Record → Option (Nat × LoadReason)
  | [] => none
  | r :: rs =>
    match recordReason all earlier r with
    | some why => some (i, why)
    | none => firstPass all (earlier ++ [r]) (i + 1) rs

def Record.isFrame : Record → Bool
  | .frame _ => true
  | _ => false

def Record.isTiming : Record → Bool
  | .timing _ => true
  | _ => false

/-- The positions, counted from `i`, of the records that pass a test. -/
def positions (p : Record → Bool) (i : Nat) : List Record → List Nat
  | [] => []
  | r :: rs => if p r then i :: positions p (i + 1) rs else positions p (i + 1) rs

/-- R175: exactly one record of a kind: none fails with index 0, more with the index of the second. -/
def countFails (ps : List Nat) : Option Nat :=
  match ps with
  | [] => some 0
  | [_] => none
  | _ :: second :: _ => some second

/-- R175, second pass. -/
def secondPass (all : List Record) : Option (Nat × LoadReason) :=
  match countFails (positions Record.isFrame 1 all) with
  | some i => some (i, .frameCount)
  | none =>
    match countFails (positions Record.isTiming 1 all) with
    | some i => some (i, .timingCount)
    | none => none

/-- R175: both passes. -/
def verifyLoad (all : List Record) : Option (Nat × LoadReason) :=
  match firstPass all [] 1 all with
  | some f => some f
  | none => secondPass all

/-! ### The fingerprint (R176) -/

/-- The place of a record's kind in canonical order. -/
def Record.kindOrder : Record → Nat
  | .frame _ => 0
  | .lever _ => 1
  | .track _ => 2
  | .sequence _ => 3
  | .approach _ => 4
  | .blockSection _ => 5
  | .timing _ => 6
  | .code _ => 7

/-- The number by which records of one kind are ordered. -/
def Record.number : Record → Nat
  | .frame _ => 0
  | .lever r => r.number.toNat
  | .track r => r.circuit.toNat
  | .sequence r => r.number.toNat
  | .approach r => r.number.toNat
  | .blockSection r => r.letter.toNat
  | .timing _ => 0
  | .code r => r.entry.toNat

def Record.key (r : Record) : Nat := r.kindOrder * 256 + r.number

/-- A record inserted before the first with a greater key. -/
def insertRecord (r : Record) : List Record → List Record
  | [] => [r]
  | x :: xs => if r.key < x.key then r :: x :: xs else x :: insertRecord r xs

/-- Canonical order. -/
def canonical (rs : List Record) : List Record := rs.foldl (fun acc r => insertRecord r acc) []

/-- R176: the fingerprint of a table's records, with their defaults filled in. -/
def fingerprintOf (rs : List Record) : Word16 :=
  crc16 ((canonical (rs.map Record.filled)).flatMap encodeRecord)

end Sys2Proof.Machine
end

