-- ==== Sys2Proof/Machine/Store.lean ====
section
/-! DEFINITION. The starts (00_scope.md 3.6): power-on (R168), the end of PROVING (R169), the completion and the
failure of a store write (R171, R172), with the start values of every block (R39, R40, R66, R67, R73, R88, R120,
R121, R126, R147, R166). -/

namespace Sys2Proof.Machine

/-! ### Start values of one record -/

/-- R39, R40: a lever's record at a start, from its inputs as they stand. -/
def LeverState.started (now : Time) (locked : Bool) (l : LeverState) : LeverState :=
  let p := positionOf l.normalMade l.reverseMade
  { normalMade := l.normalMade, reverseMade := l.reverseMade, readback := l.readback
    position := p, lastProved := p.provedEnd, provedBeforeFault := false
    transitSince := now, notHome := false
    verdict := false, blocking := none
    command := .held, commandTime := now, window := if locked then some now else none
    contactActive := false, forcedActive := false, driveActive := false, stuckActive := false }

/-- R38: a lever that ceases to be fitted: its inputs and its position go on. -/
def LeverState.released (l : LeverState) : LeverState :=
  { l with notHome := false, verdict := false, blocking := none, command := .held, window := none
           contactActive := false, forcedActive := false, driveActive := false, stuckActive := false }

/-- R120, R121: a direction at a start: an input found pressed starts a piece, and a press where the section
has an assembler. `counted`: the piece carries on a drive that is on (log entry 12). -/
def Assembler.started (now : Time) (pressed counted assembled : Bool) : Assembler :=
  if pressed then
    { piece := some { newPiece now with counted := counted }
      press := if assembled then some (newPress now) else none
      code := none }
  else {}

/-- R120, R121: a section's bells at a start; the drive and the sounder run on. -/
def BellState.started (now : Time) (assembled : Bool) (b : BellState) : BellState :=
  { plunger := b.plunger, sense := b.sense
    outbound := Assembler.started now b.plunger (b.outbound.piece.any fun p => p.pressed && p.counted) assembled
    inbound := Assembler.started now b.sensed false assembled
    driveSince := b.driveSince, sounderUntil := b.sounderUntil }

/-- R126, R147: a section's record at a start, and when it is given up. DEDUCED, log entry 51: the handle goes on as it
was read, MOVING and UNREADABLE ones too. -/
def SectionState.started (r : SectionState) : SectionState :=
  { blockedMade := r.blockedMade, clearMade := r.clearMade, trainMade := r.trainMade, handle := r.handle
    movingSince := r.movingSince }

/-- R88: a lock's record at a start. -/
def lockStart (now : Time) (signal : Position) : ApproachState :=
  { phase := if signal = .normal then .free else .engaged, remaining := none, since := now, releaseAsked := false }

namespace State

/-! ### Start values of the blocks -/

def startLever (n : Nat) (s : State) : State := s.updLever n fun l => l.started s.now (s.hasLock n)

def startLock (a : Nat) (s : State) : State :=
  match s.approachRec a with
  | none => s
  | some rec => s.updLock a fun _ => lockStart s.now (s.lever rec.signal.toNat).position

def startBell (x : SectionId) (s : State) : State := s.updBell x fun b => b.started s.now (s.assembles x)

def startSectn (x : SectionId) (s : State) : State := s.updSect x SectionState.started

/-- Every block takes the records of the table now active, or gives up the old ones (R40, R66, R73, R88, R120,
R126). The approach locks start from the positions the frame unit has just derived. -/
def startRecords (s : State) : State :=
  let s1 : State := { s with tracks := Vector.replicate 24 {}, seqs := Vector.replicate 16 {},
                             locks := Vector.replicate 16 {} }
  let s2 := forEach allLevers startLever s1
  let s3 : State := { s2 with frame := { s2.frame with lowRun := 0, lockSupply := false } }
  let s4 := forEach allLocks startLock s3
  let s5 := forEach allSections startBell s4
  forEach allSections startSectn s5

/-- R39, R40: a fitted lever found in CONTACT_FAULT raises LEVER_CONTACT, where it is not active already. -/
def contactAtStart (was : Bool) (n : Nat) (s : State) : State :=
  if s.leverFitted n && (s.lever n).position == .contactFault then
    let s1 := s.updLever n fun l => { l with contactActive := true }
    if was then s1 else s1.raise .leverContact n
  else s

/-! ### Conditions ended with a table (R38, R40, R67, R119, R147) -/

/-- R67, R68: the conditions of a circuit. -/
def endTrack (t : Nat) (s : State) : State :=
  let r := s.track t
  (s.endIf r.channelFault .trackChannel t).endIf r.degraded .trackDegraded t

/-- R147: the condition of a section. -/
def endSectn (x : SectionId) (s : State) : State :=
  s.endIf (s.sectn x).mismatch .indicatorMismatch (secCode x).toNat

/-- R120, R121: the conditions of a section's bells. -/
def endBell (x : SectionId) (s : State) : State :=
  let crossed := s.bellFaults x && (s.bell x).crossed
  let ring := s.bellFaults x && s.ringStands x
  (s.endIf crossed .bellCrossed (secCode x).toNat).endIf ring .heldRing (secCode x).toNat

/-- The conditions of the track unit, the block unit and the bell unit under the table that goes. -/
def endOwners (s : State) : State :=
  let s1 := forEach allTracks endTrack s
  let s2 := forEach allSections endSectn s1
  (forEach allSections endBell s2).endIf s.frame.lockSupply .lockSupply 0

/-- R38: every condition of a lever. -/
def endLever (n : Nat) (s : State) : State :=
  let l := s.lever n
  (((s.endIf l.contactActive .leverContact n).endIf l.forcedActive .leverForced n).endIf l.driveActive .lockDrive
    n).endIf l.stuckActive .lockStuckFree n

/-- R40: a lever's conditions at a commission, `s` being already the state under the new table and `l` the
lever's record under the old one. LEVER_CONTACT stays for a fitted lever in CONTACT_FAULT, LOCK_STUCK_FREE for a
lock-fitted one whose readback is energised. -/
def carryLever (l : LeverState) (n : Nat) (s : State) : State :=
  let inFault := s.leverFitted n && (s.lever n).position == .contactFault
  let stuck := l.stuckActive && s.hasLock n && l.readback
  let s1 := ((((s.endIf (l.contactActive && !inFault) .leverContact n).endIf l.forcedActive .leverForced n).endIf
    l.driveActive .lockDrive n).endIf (l.stuckActive && !stuck) .lockStuckFree n)
  (s1.updLever n fun x => { x with stuckActive := stuck }).contactAtStart l.contactActive n

/-! ### Reports of the table store (R179) -/

def partReport (row : Nat) (detail : List Byte) (s : State) : State := s.report .part 0 row detail

/-! ### Power-on (R168) -/

/-- A lever's record with the levels found at power-on. -/
def leverInputs (p : PowerInputs) (n : Nat) (s : State) : State :=
  s.updLever n fun l =>
    { l with normalMade := p.normal.getLsbD (n - 1), reverseMade := p.reverse.getLsbD (n - 1),
             readback := p.readback.getLsbD (n - 1) }

def bellInputs (p : PowerInputs) (x : SectionId) (s : State) : State :=
  s.updBell x fun b =>
    { b with plunger := p.bellPlunger.getLsbD (secCode x).toNat, sense := p.bellSense.getLsbD (secCode x).toNat }

/-- R140: the handle as first read; one found MOVING is timed from power-on. -/
def handleInputs (p : PowerInputs) (x : SectionId) (s : State) : State :=
  s.updSect x fun r =>
    let b := p.handleBlocked.getLsbD (secCode x).toNat
    let c := p.handleClear.getLsbD (secCode x).toNat
    let t := p.handleTrain.getLsbD (secCode x).toNat
    let h := handleOf b c t
    { r with blockedMade := b, clearMade := c, trainMade := t, handle := h,
             movingSince := if h = .moving then some 0 else none }

def plungerInputs (p : PowerInputs) (k : Nat) (s : State) : State :=
  { s with plungers := Bank.put s.plungers k (p.plungers.getLsbD (k - 1)) }

/-- The part with every item at its power-on value, its inputs read, and no table. What outlives a power-on is
the non-volatile copy; the queue of commands is the sender's. DESIGN CHOICE, log entry 55: a reply formed and not yet
transmitted is dropped. -/
def poweredWith (p : PowerInputs) (s : State) : State :=
  let blank : State :=
    { pending := s.pending, store := { copy := s.store.copy }, resetKey := p.resetKey,
      commissioningKey := p.commissioningKey, link := { address := p.addressStraps, rate := p.rateStraps } }
  let s1 := forEach allLevers (leverInputs p) blank
  let s2 := forEach (List.range' 1 8) (plungerInputs p) s1
  let s3 := forEach allSections (bellInputs p) s2
  forEach allSections (handleInputs p) s3

/-- R168: the stored table, if the copy passes. -/
def StoreCopy.passes (readable : Bool) : StoreCopy → Option Table
  | .written t => if readable && fingerprintOf t.records == t.fingerprint then some t else none
  | .blank => none
  | .spoiled => none

/-- R168: the part found with a copy that passes. DESIGN CHOICE, log entry 56: the alternatives of the PART report. -/
def powerWithTable (t : Table) (s : State) : State :=
  let s1 := (s.setStore { s.store with active := some t, part := .proving, entered := s.now }).partReport 1
    (1 :: be16 t.fingerprint)
  (forEach allLevers (contactAtStart false) s1.startRecords).evaluate .partState

/-- R168: a copy that fails the comparison or cannot be read. DESIGN CHOICE, log entry 56: the alternatives of the PART
report. -/
def powerWithFault (s : State) : State := ((s.raiseAndEnd .store 0).partReport 1 [0, 1]).startRecords

/-- R168: a copy never written. DESIGN CHOICE, log entry 56: the alternatives of the PART report. -/
def powerBlank (s : State) : State := (s.partReport 1 [0, 0]).startRecords

def powerUp (p : PowerInputs) (s : State) : State :=
  let s1 := s.poweredWith p
  match StoreCopy.passes p.copyReadable s1.store.copy with
  | some t => s1.powerWithTable t
  | none => if s1.store.copy = .blank ∧ p.copyReadable = true then s1.powerBlank else s1.powerWithFault

/-! ### The end of PROVING (R169) -/

/-- PROVING has lasted its 3 s. -/
def provingDue (s : State) : Bool :=
  s.store.part == .proving && decide (s.store.entered + Config.provingTime ≤ s.now)

/-- R169: the start states, then RUNNING. DESIGN CHOICE, log entry 47: R169 lets either hand-off be taken first. -/
def endProving (s : State) : State :=
  let s1 := s.startSections
  ((s1.setStore { s1.store with part := .running, entered := s1.now }).partReport 5 []).evaluate .partState

/-! ### The store write (R171, R172) -/

/-- R166: the supervisor empties the frozen and the failed set of its register. -/
def emptyRegister (s : State) : State := s.setFaults { s.faults with frozenSet := 0, failedSet := 0 }

/-- R171: the write completes: the buffered table becomes the active one. -/
def writeComplete (t : Table) (s : State) : State :=
  let s1 := s.endOwners
  let s2 : State :=
    { s1 with epoch := s1.epoch + 1
              store := { s1.store with active := some t, copy := .written t, buffer := none, part := .proving,
                                       entered := s1.now } }
  let s3 := (s2.emptyRegister.partReport 3 (be16 t.fingerprint)).startRecords
  (forEach allLevers (fun n => carryLever (s.lever n) n) s3).evaluate .partState

/-- R121: a code in progress discarded with the table. -/
def discardCode (x : SectionId) (d : Direction) (s : State) : State :=
  if ((s.bell x).side d).code.isSome then s.bellReport x 14 [dirCode d] else s

def discardCodes (x : SectionId) (s : State) : State := (s.discardCode x .outbound).discardCode x .inbound

def releaseLever (n : Nat) (s : State) : State := (s.endLever n).updLever n LeverState.released

/-- R172: STORE, then no table, and every block gives up its records. DESIGN CHOICE, log entry 39: the crossings and
held rings that end so make no BELL report of their own. -/
def writeFail (s : State) : State :=
  let s1 := (forEach allSections discardCodes (s.raiseAndEnd .store 0)).endOwners
  let s2 := forEach allLevers releaseLever s1
  let s3 : State :=
    { s2 with epoch := s2.epoch + 1
              store := { s2.store with active := none, copy := .spoiled, buffer := none, part := .uncommissioned,
                                       entered := s2.now }
              tracks := Vector.replicate 24 {}, seqs := Vector.replicate 16 {}, locks := Vector.replicate 16 {}
              frame := { s2.frame with lowRun := 0, lockSupply := false } }
  let s4 := (s3.emptyRegister).partReport 4 []
  forEach allSections startSectn (forEach allSections startBell s4)

/-- R172: the write has not completed 2 s after the entry into STORING. -/
def writeOverdue (s : State) : Bool := s.isStoring && decide (s.store.entered + Config.storeTime ≤ s.now)

/-- R171: the write can still complete. -/
def writeOpen (s : State) : Option Table :=
  if s.isStoring && decide (s.now ≤ s.store.entered + Config.storeTime) then s.store.buffer else none

end State

/-! ### Meanings -/

/-- POWER_ON (R168, R39, R46, R66, R73, R88, R120, R126, R153, R166, R173, R180, R190). -/
def execPowerOn (p : PowerInputs) (s : State) : Result := .next (s.powerUp p)

/-- PROVING_END (R169). -/
def execProvingEnd (s : State) : Result := .next <| if s.provingDue then s.endProving else s

/-- STORE_WRITE_COMPLETE (R171): the read-back agrees. -/
def execStoreWriteComplete (s : State) : Result :=
  .next <|
    match s.writeOpen with
    | none => s
    | some t => s.writeComplete t

/-- STORE_WRITE_FAILED (R172): the read-back differs, or the 2 s have passed. -/
def execStoreWriteFailed (s : State) : Result := .next <| if s.isStoring then s.writeFail else s

end Sys2Proof.Machine
end

