-- ==== Sys2Proof/Machine/Reads.lean ====
section
/-! DEFINITION. The data of replies (10.5): READ LEVERS (R43), READ TRACKS (R70), READ SECTION (R123, R150), READ
APPROACH (R100), READ SEQUENCES (R84), READ RAW (R46), READ FAULTS (R165), READ TABLE and LOAD STATUS (R178),
IDENTIFY (R185) and the reports of POLL (R186, R188). -/

namespace Sys2Proof.Machine

/-- A table field of an object that is not fitted is absent (log entry 10). -/
def orAbsent : Option Byte → Byte
  | none => absent
  | some b => b

def orAbsent16 : Option Word16 → List Byte
  | none => absent16
  | some w => be16 w

/-- `n` bytes of 255. -/
def absents (n : Nat) : List Byte := List.replicate n absent

def listCode : LeverEnd → Byte
  | .reverse => 0
  | .normal => 1

/-- Objects from the first named, at most `count` of them, up to the last of the part. -/
def firstFrom (first count last : Nat) : List Nat := List.range' first (min count (last + 1 - first))

namespace State

/-! ### READ LEVERS (R43) -/

def leverEntry (s : State) (n : Nat) : List Byte :=
  let l := s.lever n
  let rec? := s.leverRec n
  let locked := s.hasLock n
  let flags := flagBits [rec?.isSome, locked, l.normalMade, l.reverseMade, l.readback, l.verdict]
  let governs := if rec?.isSome then l.governing else none
  let held := locked && l.command == .held
  let timed := rec?.isSome && l.position == .transit
  [byte n, byte flags, orAbsent (rec?.map (·.kind)), l.position.code, optEnd l.lastProved,
    orAbsent (governs.map listCode), optByte l.blocking, if locked then l.command.code else 2] ++
  (if held then sat16 (s.now - l.commandTime) else absent16) ++
  (if timed then elapsedTenths s.now l.transitSince else absent16) ++ [0]

def leversData (s : State) (first : Nat) : List Byte :=
  let ns := firstFrom first 16 48
  [flag s.frame.supplyOn, byte s.frame.lowRun, flag s.frame.lockSupply, byte ns.length] ++ ns.flatMap s.leverEntry

/-! ### READ TRACKS (R70) -/

def trackEntry (s : State) (t : Nat) : List Byte :=
  match s.trackRec t with
  | some r =>
    let x := s.track t
    [byte t, 1] ++ be16 r.pick ++ be16 r.drop ++
      [r.clearCount, r.degrade, x.state.code, byte x.acc, byte x.tally, byte x.overRun] ++
      be16 (x.lastRaw.setWidth 16) ++
      [orAbsent (x.lastClass.map SampleClass.code), byte (flagBits [x.degraded, x.channelFault, x.failedMark])]
  | none =>
    let raw := if s.hasTable then absent16 else be16 ((Bank.at s.scanner.raw t).setWidth 16)
    [byte t, 0] ++ absent16 ++ absent16 ++ absents 6 ++ raw ++ [absent, 0]

def tracksData (s : State) (first : Nat) : List Byte :=
  let ns := firstFrom first 12 24
  byte ns.length :: ns.flatMap s.trackEntry

/-! ### READ SECTION (R123, R150) -/

/-- One direction of the bells: code in progress, MALFORMED, pattern. DESIGN CHOICE, log entry 45: what an idle
direction does not have, and the beats of groups a pattern does not have, are written 0. -/
def bellSideBytes (a : Assembler) : List Byte :=
  match a.code with
  | none => [0, 0] ++ patternBytes []
  | some c => [1, flag c.malformed] ++ patternBytes c.groups

/-- R123: a slot and the time left to its deadline. DESIGN CHOICE, log entry 40: while the line is held, to the
deadline as it stands. -/
def slotBytes (now : Time) : Option Slot → List Byte
  | none => absent :: absent16
  | some o => byte o.entry :: leftTenths now o.deadline

def bellPart (s : State) (x : SectionId) : List Byte :=
  let b := s.bell x
  bellSideBytes b.outbound ++ bellSideBytes b.inbound ++
    (match b.silentSince with
     | none => absent16
     | some t => elapsedTenths s.now t) ++
    slotBytes s.now b.awaited ++ slotBytes s.now b.owed

/-- The two flag bytes: the block unit's flags of a fitted section, then the bell unit's. -/
def sectionFlags (s : State) (x : SectionId) : List Byte :=
  let r := s.sectn x
  let b := s.bell x
  let f := s.sectionFitted x
  be16 (BitVec.ofNat 16 (flagBits
    [f && r.releaseUsed, f && r.obstruction, f && r.attention.isSome, f && r.earlyClear, f && r.cancelReceived,
      f && r.outSent, f && r.frozen, f && r.consumeAsked, f && r.outOfCorr, b.crossed, b.heldSince.isSome,
      b.driving, b.sounderUntil.isSome]))

def contactBits (r : SectionState) : Byte := byte (flagBits [r.blockedMade, r.clearMade, r.trainMade])

/-- READ SECTION (R150, R123). DESIGN CHOICE, log entry 54: of a section that is not fitted each of the 13 bytes of the
SECTION record proper is 255, the two-byte I_on and I_off too. -/
def sectionData (s : State) (x : SectionId) : List Byte :=
  let r := s.sectn x
  (match s.sectionRec x with
   | some rec =>
     encodeRecord (.blockSection rec) ++ [optBlock r.state] ++ s.sectionFlags x ++
       (match r.attention with
        | none => absent16
        | some t => leftTenths s.now t) ++
       [optByte r.offered, r.measured.code, orAbsent (r.candidate.map Polarity.code), byte r.candRun,
         byte r.scaleRun, byte r.mismatchRun, r.handle.code, contactBits r, r.drive.code, optByte (litLamp r.state)] ++
       be16 (r.lastRaw.setWidth 16)
   | none =>
     absents 13 ++ [absent] ++ s.sectionFlags x ++ absent16 ++ absents 6 ++
       [r.handle.code, contactBits r, r.drive.code, absent] ++ absent16) ++
  s.bellPart x

/-! ### READ APPROACH (R100) -/

def approachEntry (s : State) (a : Nat) : List Byte :=
  match s.approachRec a with
  | some rec =>
    let r := s.lockn a
    [byte a, 1, rec.signal, rec.track] ++ be16 rec.hold ++
      [rec.plunger, rec.release, byte (flagBits [rec.alwaysTime, r.releaseAsked]), r.phase.code] ++
      remainingBytes r.remaining ++ elapsedTenths s.now r.since
  | none => [byte a, 0, absent, absent] ++ absent16 ++ [absent, absent, 0, absent] ++ absent16 ++ absent16

def approachData (s : State) : List Byte := allLocks.flatMap s.approachEntry

/-! ### READ SEQUENCES (R84) -/

/-- The circuits of a sequence in four bytes, the unused ones 255. -/
def circuitBytes (cs : List Byte) : List Byte :=
  [cs.getD 0 absent, cs.getD 1 absent, cs.getD 2 absent, cs.getD 3 absent]

def sequenceEntry (s : State) (q : Nat) : List Byte :=
  match s.seqRec q with
  | some rec =>
    let r := s.seqn q
    [byte q, 1, byte rec.circuits.length] ++ circuitBytes rec.circuits ++ [rec.gate] ++ be16 rec.timeout ++
      [byte r.step] ++
      (match r.stepTime with
       | none => absent16
       | some t => elapsedTenths s.now t) ++
      [byte (flagBits [r.latch, r.unused])]
  | none => [byte q, 0, absent] ++ absents 4 ++ [absent] ++ absent16 ++ [absent] ++ absent16 ++ [0]

def sequencesData (s : State) : List Byte := allSequences.flatMap s.sequenceEntry

/-! ### READ RAW (R46) -/

def rawData (s : State) (c : Nat) : List Byte :=
  byte c :: (be16 ((Bank.at s.scanner.raw (c + 1)).setWidth 16) ++ [flag (Bank.at s.scanner.fresh (c + 1))])

/-! ### READ FAULTS (R165) -/

def faultEntry (e : FaultEntry) : List Byte :=
  [e.cls.code, byte e.object] ++ be32 (e.raised / 1000) ++ be32 (e.lastRaised / 1000) ++
    [byte (flagBits [!e.active, e.unmasked, e.alarmPending]), byte e.count]

def faultsData (s : State) : List Byte :=
  let f := s.faults
  [flag f.overflow] ++ be16 f.masked ++ [flag f.frameCut, f.frozenSet.setWidth 8] ++ trackSetBytes f.failedSet ++
    [flag s.alarmSounds, byte s.lamp, byte f.entries.length] ++ f.entries.flatMap faultEntry

/-! ### The table (R178) -/

/-- The data of LOAD RECORD and LOAD STATUS. -/
def loadData (s : State) : List Byte :=
  [s.store.load.code, byte s.store.staged.length] ++ sat16 (poolUse s.store.staged) ++
    (match s.store.load with
     | .empty | .opened => []
     | .verified fp => be16 fp
     | .rejected i why => [byte i, why.code])

/-- R178: the record of a kind and a number in the active table. -/
def tableRecord (s : State) (kind n : Nat) : Option Record :=
  match kind with
  | 0 => (frameOf s.table).map .frame
  | 1 => (leverOf n s.table).map .lever
  | 2 => (trackOf n s.table).map .track
  | 3 => (sequenceOf n s.table).map .sequence
  | 4 => (approachOf n s.table).map .approach
  | 5 => (sectionOf n s.table).map .blockSection
  | 6 => (timingOf s.table).map .timing
  | 7 => (codeOf n s.table).map .code
  | _ => none

def tableData (s : State) (kind n : Nat) : List Byte :=
  match s.tableRecord kind n with
  | none => [0]
  | some r => 1 :: encodeRecord r

/-! ### IDENTIFY (R185) -/

def activePrint (s : State) : Word16 := (s.store.active.map (·.fingerprint)).getD 0

def identifyData (s : State) : List Byte :=
  [s.store.part.code, s.link.address.setWidth 8, s.link.rate.setWidth 8, flag s.hasTable] ++ be16 s.activePrint ++
    [s.store.load.code, byte s.store.staged.length] ++ be16 s.link.nextSeq

/-! ### POLL (R188) -/

/-- A detail in its 13 bytes, the unused ones 0 (10.5). -/
def detailBytes (d : List Byte) : List Byte := (d ++ List.replicate 13 0).take 13

/-- A report in its 24 bytes (10.5). -/
def reportBytes (r : Report) : List Byte :=
  be16 r.seq ++ be32 (r.time / 1000) ++ be16 (BitVec.ofNat 16 (r.time % 1000)) ++
    [byte r.category.number, byte r.object, byte r.event] ++ detailBytes r.detail

/-- The data of POLL `n`: the reports returned, those left, the lost count. -/
def pollData (s : State) (n : Nat) : List Byte :=
  let out := s.link.queue.take n
  [byte out.length, byte (s.link.queue.length - out.length)] ++ sat16 s.link.lost ++ out.flatMap reportBytes

end State

end Sys2Proof.Machine
end

