-- ==== Sys2Proof/Machine/Requests.lean ====
section
/-! DEFINITION. The host requests (10.2) and the events of the link (R181, R182). A request is taken when it
carries the part's address (R180) in a frame of at most 250 body bytes (R181); the link unit tests its length, then
its owner tests it (R183). -/

namespace Sys2Proof.Machine

namespace State

/-! ### Taking a request (R180, R181, R183) -/

/-- R180, R181: the part takes the frame of an addressed request with these fields. A part whose straps give 15
answers none. -/
def receives (s : State) (fields : List Byte) : Bool := fieldsOk fields && s.link.address != 15

/-- R183: a request, its length test, and its owner. -/
def request (k : RequestKind) (fields : List Byte) (lenOk : Bool) (owner : State → State) (s : State) : State :=
  if s.receives fields then
    if lenOk then owner s else s.refuse k.code .badField
  else s

/-- R170: a request refused BUSY in STORING. -/
def unlessBusy (k : RequestKind) (owner : State → State) (s : State) : State :=
  if s.isStoring then s.refuse k.code .busy else owner s

/-- A request without fields, refused BUSY in STORING. -/
def plainRequest (k : RequestKind) (fields : List Byte) (owner : State → State) (s : State) : State :=
  s.request k fields fields.isEmpty (unlessBusy k owner)

/-- A request with one byte of field. -/
def byteRequest (k : RequestKind) (fields : List Byte) (owner : Nat → State → State) (s : State) : State :=
  s.request k fields (fields.length == 1) (owner (fields.headD 0).toNat)

/-! ### Link unit -/

/-- R188. -/
def poll (n : Nat) (s : State) : State :=
  if 1 ≤ n ∧ n ≤ 8 then
    ({ s with link := { s.link with queue := s.link.queue.drop n, lost := 0 } } : State).accept RequestKind.poll.code
      (s.pollData n)
  else s.refuse RequestKind.poll.code .badField

/-- Two lists of codes, each with its count (10.5). -/
def twoLists (fields : List Byte) : Option (List Nat × List Nat) :=
  match fields with
  | [] => none
  | m :: rest =>
    if m.toNat < rest.length then
      match rest.drop m.toNat with
      | [] => none
      | u :: tail =>
        if tail.length = u.toNat then some ((rest.take m.toNat).map (·.toNat), tail.map (·.toNat)) else none
    else none

/-- A set of codes with those of one list put in and those of another taken out. -/
def changeSet (v : BitVec 16) (add del : List Nat) : BitVec 16 :=
  (v ||| BitVec.ofNat 16 (flagBits ((List.range 16).map add.contains))) &&&
    ~~~ BitVec.ofNat 16 (flagBits ((List.range 16).map del.contains))

/-- R189: the lists of a SET REPORTING that is refused BAD_FIELD. -/
def badCategories (enable disable : List Nat) : Bool :=
  (enable ++ disable).any (fun c => decide (10 ≤ c)) || enable.any disable.contains ||
    disable.contains Category.fault.number || disable.contains Category.part.number

/-- R189. -/
def setReporting (enable disable : List Nat) (s : State) : State :=
  if badCategories enable disable then s.refuse RequestKind.setReporting.code .badField
  else
    ({ s with link := { s.link with filters := changeSet s.link.filters enable disable } } : State).accept
      RequestKind.setReporting.code []

/-- R190: the link reset. -/
def resetLink (s : State) : State :=
  { s with link := { s.link with queue := [], lost := 0, filters := 0x3FD }
           store := { s.store with staged := [], load := .empty } }

/-! ### Scanner (R46) -/

def readRaw (c : Nat) (s : State) : State :=
  if c ≤ 31 then
    ({ s with scanner := { s.scanner with fresh := Bank.put s.scanner.fresh (c + 1) false } } : State).accept
      RequestKind.readRaw.code (s.rawData c)
  else s.refuse RequestKind.readRaw.code .badField

/-! ### Fault supervisor (R154, R165) -/

/-- R165: what TAKE FAULTS leaves. -/
def takeMasked (s : State) : State :=
  s.setFaults { s.faults with entries := s.faults.entries.filter fun e => e.active || e.unmasked }

/-- The classes that have a place in the mask set (R153): neither LEVER_FORCED, LOCK_STUCK_FREE nor STORE. -/
def maskableCode (c : Nat) : Bool := c != FaultClass.leverForced.number && c != FaultClass.lockStuckFree.number &&
  c != FaultClass.store.number

/-- R154: a list names a value that is not a class, or a class stands in both. -/
def badClasses (mask unmask : List Nat) : Bool :=
  (mask ++ unmask).any (fun c => decide (14 ≤ c)) || mask.any unmask.contains

/-- R154. -/
def setMasks (mask unmask : List Nat) (s : State) : State :=
  if badClasses mask unmask then s.refuse RequestKind.setMasks.code .badField
  else if mask.any (fun c => !maskableCode c) then s.refuse RequestKind.setMasks.code .alwaysUnmasked
  else
    let v := changeSet s.faults.masked mask unmask
    let s1 := s.setFaults { s.faults with masked := v }
    let s2 := if v = s.faults.masked then s1 else s1.report .fault 0 8 (be16 v)
    s2.accept RequestKind.setMasks.code []

/-! ### Track unit (R58 to R60) -/

def trackOutOfUse (t : Nat) (s : State) : State :=
  if s.hasTable then
    if s.trackFitted t then (s.takeOutOfUse t).accept RequestKind.trackOutOfUse.code []
    else s.refuse RequestKind.trackOutOfUse.code .badField
  else s.refuse RequestKind.trackOutOfUse.code .noTable

def trackInUse (t : Nat) (s : State) : State :=
  if s.hasTable then
    match s.trackRec t with
    | none => s.refuse RequestKind.trackInUse.code .badField
    | some rec =>
      if (s.track t).state = .outOfUse then
        (s.putInUse t rec.clearCount.toNat).accept RequestKind.trackInUse.code []
      else s.refuse RequestKind.trackInUse.code .wrongState
  else s.refuse RequestKind.trackInUse.code .noTable

/-! ### Table store (R173 to R178) -/

def loadBegin (s : State) : State :=
  ((s.setStore { s.store with staged := [], load := .opened }).partReport 6 [0]).accept RequestKind.loadBegin.code []

def loadAbandon (s : State) : State :=
  ((s.setStore { s.store with staged := [], load := .empty }).partReport 6 [1]).accept RequestKind.loadAbandon.code []

/-- R174, R175: the load closes REJECTED. -/
def reject (i : Nat) (why : LoadReason) (s : State) : State :=
  (s.setStore { s.store with load := .rejected i why }).partReport 7 [1, byte i, why.code]

/-- R175: the closed load judged. -/
def verify (s : State) : State :=
  match verifyLoad s.store.staged with
  | some (i, why) => s.reject i why
  | none =>
    let fp := fingerprintOf s.store.staged
    (s.setStore { s.store with load := .verified fp }).partReport 7 (0 :: be16 fp)

/-- R174: a record that fits, taken into an OPEN load. -/
def stage (more : Bool) (r : Record) (s : State) : State :=
  if Config.stagingSize ≤ s.store.staged.length then s.reject (Config.stagingSize + 1) .tooMany
  else
    let s1 := s.setStore { s.store with staged := s.store.staged ++ [r] }
    if more then s1 else s1.verify

/-- R174, R192: the tests of a LOAD RECORD in the order of R174's table (log entry 9). DESIGN CHOICE, log entry 44: a
more-follows byte other than 0 counts as set. -/
def loadRecord (more : Byte) (body : List Byte) (s : State) : State :=
  if s.store.load = .opened then
    match parseRecord body with
    | none => s.refuse RequestKind.loadRecord.code .badField
    | some r =>
      let s1 := s.stage (more != 0) r
      s1.accept RequestKind.loadRecord.code s1.loadData
  else s.refuse RequestKind.loadRecord.code .wrongState

/-- R177: the reason a COMMISSION is refused for, tested in order, or the fingerprint of the load it commissions. -/
def commissionTest (fp : Word16) (key : Bool) (s : State) : Except ReplyOutcome Word16 :=
  if s.store.part = .storing then .error .busy
  else if s.store.part = .proving then .error .wrongState
  else
    match s.store.load with
    | .verified v =>
      if fp ≠ v then .error .mismatch
      else if key = false then .error .keyOff
      else if s.store.part = .running ∧ s.quiet = false then .error .notQuiet
      else .ok v
    | .empty | .opened | .rejected _ _ => .error .noTable

/-- R170: the entry into STORING. The copy is written over from this moment. -/
def enterStoring (fp : Word16) (s : State) : State :=
  ((s.setStore
    { s.store with buffer := some { records := s.store.staged.map Record.filled, fingerprint := fp },
                   copy := .spoiled, part := .storing, entered := s.now }).partReport 2 (0 :: be16 fp)).evaluate
    .partState

/-- R177: a COMMISSION judged. -/
def commission (fp : Word16) (key : Bool) (s : State) : State :=
  match s.commissionTest fp key with
  | .error why => (s.partReport 2 [1, why.code]).refuse RequestKind.commission.code why
  | .ok v => (s.enterStoring v).accept RequestKind.commission.code []

/-- R178, R184: READ TABLE refused NO_TABLE in UNCOMMISSIONED, BAD_FIELD for a kind not among the eight. -/
def readTable (kind n : Nat) (s : State) : State :=
  if s.hasTable then
    if kind ≤ 7 then s.accept RequestKind.readTable.code (s.tableData kind n)
    else s.refuse RequestKind.readTable.code .badField
  else s.refuse RequestKind.readTable.code .noTable

end State

/-! ### Meanings: link unit -/

/-- IDENTIFY (R185). -/
def execIdentify (f : List Byte) (s : State) : Result :=
  .next <| s.request .identify f f.isEmpty fun t => t.accept RequestKind.identify.code t.identifyData

/-- POLL (R188). -/
def execPoll (f : List Byte) (s : State) : Result := .next <| s.byteRequest .poll f State.poll

/-- SET_REPORTING (R189). -/
def execSetReporting (f : List Byte) (s : State) : Result :=
  .next <|
    match State.twoLists f with
    | none => s.request .setReporting f false id
    | some (e, d) => s.request .setReporting f true (State.unlessBusy .setReporting (State.setReporting e d))

/-- LINK_RESET (R190): addressed, answered after its effects; by broadcast, taken by every part and not answered. -/
def execLinkReset (f : List Byte) (broadcast : Bool) (s : State) : Result :=
  .next <|
    if broadcast then (if f.isEmpty then s.resetLink else s)
    else s.request .linkReset f f.isEmpty fun t => t.resetLink.accept RequestKind.linkReset.code []

/-- UNKNOWN_REQUEST_KIND (R183): refused BAD_KIND, whatever the body holds. A kind byte that is a request kind is
no such command. -/
def execUnknownRequestKind (k : Byte) (f : List Byte) (s : State) : Result :=
  if (RequestKind.ofCode k.toNat).isSome then .fault .knownKind
  else .next (if s.receives f then s.refuse k .badKind else s)

/-- FRAME_DISCARDED (R181, R182): no reply, and nothing changes. -/
def execFrameDiscarded (_ : DiscardReason) (s : State) : Result := .next s

/-- INTER_CHARACTER_GAP (R181): the frame is abandoned, and nothing changes. -/
def execInterCharacterGap (s : State) : Result := .next s

/-- R180, R181: the characters of a frame: the start character, the only one with the mark set, then the length, the
body and the check. -/
def frameChars (start : Byte) (body : List Byte) : List SentChar :=
  { mark := true, data := start } ::
    (byte body.length :: (body ++ be16 (crc16 (byte body.length :: body)))).map fun b => { mark := false, data := b }

/-- R181: the frame of a reply starts with 16 plus the address. -/
def replyFrame (address : BitVec 4) (body : List Byte) : List SentChar := frameChars (address.setWidth 8 + 16) body

/-- REPLY_TRANSMISSION (R182): the first formed reply is transmitted. -/
def execReplyTransmission (s : State) : Result :=
  .next <|
    match s.link.replies with
    | [] => s
    | b :: rest => s.setLink { s.link with replies := rest, line := replyFrame s.link.address b }

/-! ### Meanings: readings -/

/-- READ_LEVERS (R43). -/
def execReadLevers (f : List Byte) (s : State) : Result :=
  .next <| s.byteRequest .readLevers f fun n => State.unlessBusy .readLevers fun t =>
    if leverOk n then t.accept RequestKind.readLevers.code (t.leversData n)
    else t.refuse RequestKind.readLevers.code .badField

/-- READ_TRACKS (R70). -/
def execReadTracks (f : List Byte) (s : State) : Result :=
  .next <| s.byteRequest .readTracks f fun n => State.unlessBusy .readTracks fun t =>
    if 1 ≤ n ∧ n ≤ 24 then t.accept RequestKind.readTracks.code (t.tracksData n)
    else t.refuse RequestKind.readTracks.code .badField

/-- READ_SECTION (R123, R150). -/
def execReadSection (f : List Byte) (s : State) : Result :=
  .next <| s.byteRequest .readSection f fun n => State.unlessBusy .readSection fun t =>
    match secOfCode n with
    | some x => t.accept RequestKind.readSection.code (t.sectionData x)
    | none => t.refuse RequestKind.readSection.code .badField

/-- READ_APPROACH (R100). -/
def execReadApproach (f : List Byte) (s : State) : Result :=
  .next <| s.plainRequest .readApproach f fun t => t.accept RequestKind.readApproach.code t.approachData

/-- READ_SEQUENCES (R84). -/
def execReadSequences (f : List Byte) (s : State) : Result :=
  .next <| s.plainRequest .readSequences f fun t => t.accept RequestKind.readSequences.code t.sequencesData

/-- READ_RAW (R46): answered in every part state. -/
def execReadRaw (f : List Byte) (s : State) : Result := .next <| s.byteRequest .readRaw f State.readRaw

/-- READ_FAULTS (R165). -/
def execReadFaults (f : List Byte) (s : State) : Result :=
  .next <| s.plainRequest .readFaults f fun t => t.accept RequestKind.readFaults.code t.faultsData

/-- TAKE_FAULTS (R165): the reply shows the list before the removal. -/
def execTakeFaults (f : List Byte) (s : State) : Result :=
  .next <| s.plainRequest .takeFaults f fun t => t.takeMasked.accept RequestKind.takeFaults.code t.faultsData

/-! ### Meanings: supervisor and track unit -/

/-- SET_MASKS (R154). -/
def execSetMasks (f : List Byte) (s : State) : Result :=
  .next <|
    match State.twoLists f with
    | none => s.request .setMasks f false id
    | some (m, u) => s.request .setMasks f true (State.unlessBusy .setMasks (State.setMasks m u))

/-- TRACK_OUT_OF_USE (R58, R60). -/
def execTrackOutOfUse (f : List Byte) (s : State) : Result :=
  .next <| s.byteRequest .trackOutOfUse f fun n => State.unlessBusy .trackOutOfUse (State.trackOutOfUse n)

/-- TRACK_IN_USE (R59, R60). -/
def execTrackInUse (f : List Byte) (s : State) : Result :=
  .next <| s.byteRequest .trackInUse f fun n => State.unlessBusy .trackInUse (State.trackInUse n)

/-! ### Meanings: table store -/

/-- LOAD_BEGIN (R173). -/
def execLoadBegin (f : List Byte) (s : State) : Result := .next <| s.plainRequest .loadBegin f State.loadBegin

/-- LOAD_ABANDON (R173). -/
def execLoadAbandon (f : List Byte) (s : State) : Result := .next <| s.plainRequest .loadAbandon f State.loadAbandon

/-- LOAD_RECORD (R174). -/
def execLoadRecord (f : List Byte) (s : State) : Result :=
  .next <|
    match f with
    | [] => s.request .loadRecord f false id
    | more :: body => s.request .loadRecord f true (State.unlessBusy .loadRecord (State.loadRecord more body))

/-- LOAD_STATUS (R178). -/
def execLoadStatus (f : List Byte) (s : State) : Result :=
  .next <| s.plainRequest .loadStatus f fun t => t.accept RequestKind.loadStatus.code t.loadData

/-- COMMISSION (R177): the key is read as it stands when the request is taken. -/
def execCommission (f : List Byte) (key : Bool) (s : State) : Result :=
  .next <|
    match f with
    | [hi, lo] =>
      s.request .commission f true fun t =>
        ({ t with commissioningKey := key } : State).commission (word hi lo) key
    | _ => s.request .commission f false id

/-- READ_TABLE (R178). -/
def execReadTable (f : List Byte) (s : State) : Result :=
  .next <|
    match f with
    | [kind, n] => s.request .readTable f true (State.unlessBusy .readTable (State.readTable kind.toNat n.toNat))
    | _ => s.request .readTable f false id

end Sys2Proof.Machine
end

