-- ==== Sys2Proof/Decode.lean ====
section
/-! DEFINITION. The words of the table (none: no row of spec/opcode_table.json has bits), and the frames of the link:
what the receiver takes from the characters of the line and the part's own transmissions (R180 to R182), and the frame
the host sends for a request (R181, 10.5). -/

namespace Sys2Proof

/-- No row of the table has bits, so no word spells a command. -/
def decodeTableWord (_ _ : Nat) : Option Instr := none

namespace Machine

/-- A character as the receiver hears it (R180): its mark bit, whether its stop bit is there, its data, and the ms
from the end of the character before it. -/
structure LineChar where
  mark : Bool
  stop : Bool
  data : Byte
  gap : Nat
  deriving DecidableEq, Repr, Inhabited

/-- What happens on the line of a part (R180 to R182): a character, and the beginning and the end of a reply that the
part transmits. -/
inductive LineEvent
  | character (c : LineChar)
  | replyBegins
  | replyEnds
  deriving DecidableEq, Repr, Inhabited

/-- R183, 10.5: the command of an addressed request with a kind and its fields; `key` is the commissioning key as it
stands (R177). -/
def commandOf (kind : Byte) (fields : List Byte) (key : Bool) : Instr :=
  match RequestKind.ofCode kind.toNat with
  | none => .unknownRequestKind kind fields
  | some .identify => .identify fields
  | some .poll => .poll fields
  | some .readLevers => .readLevers fields
  | some .readTracks => .readTracks fields
  | some .readSection => .readSection fields
  | some .readApproach => .readApproach fields
  | some .readSequences => .readSequences fields
  | some .readRaw => .readRaw fields
  | some .readFaults => .readFaults fields
  | some .readTable => .readTable fields
  | some .takeFaults => .takeFaults fields
  | some .setMasks => .setMasks fields
  | some .setReporting => .setReporting fields
  | some .trackOutOfUse => .trackOutOfUse fields
  | some .trackInUse => .trackInUse fields
  | some .loadBegin => .loadBegin fields
  | some .loadRecord => .loadRecord fields
  | some .loadAbandon => .loadAbandon fields
  | some .loadStatus => .loadStatus fields
  | some .commission => .commission fields key
  | some .linkReset => .linkReset fields false

/-- R182: a broadcast frame is a link reset, or is ignored. -/
def broadcastOf (kind : Byte) (fields : List Byte) : Instr :=
  if RequestKind.ofCode kind.toNat = some .linkReset then .linkReset fields true else .frameDiscarded .broadcastOther

/-- What the receiver holds between two events of the line (R181, R182). -/
inductive Receiving
  /-- Every character is ignored until the next marked one. -/
  | waiting
  /-- A frame is in progress, for 15 or for the part: its characters so far, after the start. -/
  | inFrame (broadcast : Bool) (bytes : List Byte)
  /-- The part transmits, and no character is received. -/
  | blanked
  deriving DecidableEq, Repr, Inhabited

/-- R181, R182: the command of a complete frame, from its length, its body and its check. -/
def commandOfFrame (broadcast key : Bool) (bytes : List Byte) : Instr :=
  match bytes with
  | [] => .frameDiscarded .badLength
  | len :: rest =>
    let body := rest.take len.toNat
    if rest.drop len.toNat = be16 (crc16 (len :: body)) then
      match body with
      | [] => .frameDiscarded .badLength
      | kind :: fields => if broadcast then broadcastOf kind fields else commandOf kind fields key
    else .frameDiscarded .badCheck

/-- R181: what is given up with the frame in progress: none where there is no frame. -/
def abandoned (i : Instr) : Receiving → List Instr
  | .waiting | .blanked => []
  | .inFrame _ _ => [i]

/-- R180, R181: a marked character begins a frame, for the part or for 15, or one that is not for this part. -/
def beginFrame (address : BitVec 4) (start : Byte) : List Instr × Receiving :=
  if start = 15 then ([], .inFrame true [])
  else if start = address.setWidth 8 then ([], .inFrame false [])
  else ([.frameDiscarded .notForThisPart], .waiting)

/-- R181: a character taken into the frame in progress: its length character bounds it, and the character that makes
it complete ends it, whatever follows. -/
def continueFrame (key broadcast : Bool) (bytes : List Byte) (b : Byte) : List Instr × Receiving :=
  let all := bytes ++ [b]
  let len := all.headD 0
  if len = 0 ∨ 250 < len.toNat then ([.frameDiscarded .badLength], .waiting)
  else if all.length < len.toNat + 3 then ([], .inFrame broadcast all)
  else ([commandOfFrame broadcast key all], .waiting)

/-- R180, R181: the receiver of a part of an address, not blanked, takes one character: the commands it makes, and what
the receiver holds after it. A gap, a framing error and a marked character each abandon the frame in progress; for the
last, which begins another frame, there is no command. `key` is the commissioning key as it stands (R177). -/
def hearCharacter (address : BitVec 4) (key : Bool) (r : Receiving) (c : LineChar) : List Instr × Receiving :=
  let late := decide (Config.characterGap < c.gap)
  let gave := if late then abandoned .interCharacterGap r else []
  let r1 := if late then .waiting else r
  if c.stop = false then (gave ++ abandoned (.frameDiscarded .framingError) r1, .waiting)
  else if c.mark then
    let begun := beginFrame address c.data
    (gave ++ begun.1, begun.2)
  else
    match r1 with
    | .waiting | .blanked => (gave, .waiting)
    | .inFrame broadcast bytes => continueFrame key broadcast bytes c.data

/-- R180 to R182: the receiver takes one event of the line. A reply that begins is transmitted, and abandons the frame
in progress; while it lasts the receiver is blanked. DEDUCED, log entry 8: an abandoned frame makes no command there,
and after the reply the receiver waits for the next marked character. -/
def hear (address : BitVec 4) (key : Bool) (r : Receiving) : LineEvent → List Instr × Receiving
  | .replyBegins => ([.replyTransmission], .blanked)
  | .replyEnds => ([], if r = .blanked then .waiting else r)
  | .character c => if r = .blanked then ([], .blanked) else hearCharacter address key r c

/-- R180 to R182: the commands that the events of the line are to a part of an address, in order, from what its
receiver holds. -/
def commandsFrom (address : BitVec 4) (key : Bool) : Receiving → List LineEvent → List Instr
  | _, [] => []
  | r, e :: es =>
    let out := hear address key r e
    out.1 ++ commandsFrom address key out.2 es

/-- The commands of the events of a line that was silent before. -/
def commandsOf (address : BitVec 4) (key : Bool) (es : List LineEvent) : List Instr :=
  commandsFrom address key .waiting es

/-- A host request: its kind byte, its fields, and whether it goes out by broadcast. -/
def requestOf : Instr → Option (Byte × List Byte × Bool)
  | .identify f => some (RequestKind.identify.code, f, false)
  | .poll f => some (RequestKind.poll.code, f, false)
  | .readLevers f => some (RequestKind.readLevers.code, f, false)
  | .readTracks f => some (RequestKind.readTracks.code, f, false)
  | .readSection f => some (RequestKind.readSection.code, f, false)
  | .readApproach f => some (RequestKind.readApproach.code, f, false)
  | .readSequences f => some (RequestKind.readSequences.code, f, false)
  | .readRaw f => some (RequestKind.readRaw.code, f, false)
  | .readFaults f => some (RequestKind.readFaults.code, f, false)
  | .takeFaults f => some (RequestKind.takeFaults.code, f, false)
  | .setMasks f => some (RequestKind.setMasks.code, f, false)
  | .setReporting f => some (RequestKind.setReporting.code, f, false)
  | .trackOutOfUse f => some (RequestKind.trackOutOfUse.code, f, false)
  | .trackInUse f => some (RequestKind.trackInUse.code, f, false)
  | .loadBegin f => some (RequestKind.loadBegin.code, f, false)
  | .loadAbandon f => some (RequestKind.loadAbandon.code, f, false)
  | .loadRecord f => some (RequestKind.loadRecord.code, f, false)
  | .loadStatus f => some (RequestKind.loadStatus.code, f, false)
  | .commission f _ => some (RequestKind.commission.code, f, false)
  | .readTable f => some (RequestKind.readTable.code, f, false)
  | .linkReset f b => some (RequestKind.linkReset.code, f, b)
  | .unknownRequestKind k f => some (k, f, false)
  | .powerOn _ => none
  | .frameDiscarded _ => none
  | .interCharacterGap => none
  | .replyTransmission => none
  | .scanPass _ => none
  | .leverContactChange _ _ _ => none
  | .transitLimit _ => none
  | .lockReadbackChange _ _ => none
  | .readbackWindowClose _ => none
  | .plungerChange _ _ => none
  | .boxResetKey _ => none
  | .handleContactChange _ _ _ => none
  | .handleMovingTimeout _ => none
  | .bellPlungerChange _ _ => none
  | .bellSenseChange _ _ => none
  | .regenerationDriveStart _ => none
  | .driveEnd _ => none
  | .sounderStrike _ => none
  | .sounderOff _ => none
  | .pressQualifies _ _ => none
  | .longPressReached _ _ => none
  | .heldPendingReached _ _ => none
  | .heldRing _ _ => none
  | .pressSettles _ _ => none
  | .codeEnd _ _ => none
  | .crossingCleared _ => none
  | .awaitedDeadline _ => none
  | .owedDeadline _ => none
  | .attentionLapsed _ => none
  | .stepTimeout _ => none
  | .consumptionNotification _ _ => none
  | .approachConsumptionAnswer _ => none
  | .blockConsumptionAnswer _ => none
  | .approachCountdownStep _ => none
  | .approachExpiry _ => none
  | .provingEnd => none
  | .storeWriteComplete => none
  | .storeWriteFailed => none
  | .shortAlarmEnd => none

/-- A character as it is heard: sent without a gap, its stop bit in place. -/
def SentChar.heard (c : SentChar) : LineChar := { mark := c.mark, stop := true, data := c.data, gap := 0 }

/-- R181, 10.5: the frame the host sends for a request to the part of an address. -/
def encodeFrame (address : BitVec 4) (i : Instr) : Option (List LineEvent) :=
  (requestOf i).map fun r =>
    (frameChars (if r.2.2 then 15 else address.setWidth 8) (r.1 :: r.2.1)).map fun c => .character c.heard

end Machine

end Sys2Proof
end

