-- ==== Sys2Proof/Machine/Scan.lean ====
section
/-! DEFINITION. The scan (R44 to R47). -/

namespace Sys2Proof.Machine

namespace State

/-- R46: a conversion replaces the raw value and sets the fresh flag. -/
def convert (c : Nat) (v : Sample) (s : State) : State :=
  { s with scanner := { raw := Bank.put s.scanner.raw (c + 1) v, fresh := Bank.put s.scanner.fresh (c + 1) true } }

/-- R47: the sample goes to the owner of its channel; without a table no record takes it. -/
def handSample (c : Nat) (v : Sample) (s : State) : State :=
  if c < 24 then s.trackSample (c + 1) v
  else
    match secOfCode (c - 24) with
    | some x => s.sectionSample x v
    | none => if c = 28 then s.supplySample v else s

/-- R44: one channel of a pass, converted if it is enabled. -/
def scanChannel (raw : Bank Sample 32) (c : Nat) (s : State) : State :=
  if s.channelEnabled c then (s.convert c (Bank.at raw (c + 1))).handSample c (Bank.at raw (c + 1)) else s

end State

/-- SCAN_PASS (R44): the enabled channels in ascending order. -/
def execScanPass (raw : Bank Sample 32) (s : State) : Result :=
  .next <| forEach (List.range' 0 32) (State.scanChannel raw) s

end Sys2Proof.Machine
end

