-- ==== Sys2Proof/Machine/Clock.lean ====
section
/-! DEFINITION. What the part does of itself: the timed events and the hand-offs that are steps of their own, each
found by its due test. Log entry 2: on an empty queue the step takes the first due, or lets a millisecond pass. -/

namespace Sys2Proof.Machine

namespace State

/-- The first of a list of objects whose event is due. -/
def firstOf {α : Type} (xs : List α) (due : α → Bool) (mk : α → Instr) : Option Instr := (xs.find? due).map mk

/-- The event of a section and a direction, outbound first. -/
def dueSide (due : SectionId → Direction → Bool) (mk : SectionId → Direction → Instr) : Option Instr :=
  firstOf [(.a, .outbound), (.a, .inbound), (.b, .outbound), (.b, .inbound), (.c, .outbound), (.c, .inbound),
    (.d, .outbound), (.d, .inbound)] (fun p : SectionId × Direction => due p.1 p.2) (fun p => mk p.1 p.2)

def dueSection (due : SectionId → Bool) (mk : SectionId → Instr) : Option Instr := firstOf allSections due mk

/-- R132: attention has lapsed. -/
def attentionDue (s : State) (x : SectionId) : Bool :=
  match (s.sectn x).attention with
  | none => false
  | some t => decide (t ≤ s.now)

/-- The notification longest in flight. -/
def noticeDue (s : State) : Option Instr :=
  s.notices.head?.map fun n => .consumptionNotification n.consumer n.seq

/-- The answer longest in flight. -/
def answerDue (s : State) : Option Instr :=
  s.answers.head?.bind fun a =>
    match a.consumer with
    | .approach n => some (.approachConsumptionAnswer n)
    | .block x => some (.blockConsumptionAnswer x)
    | .lever _ => none

def when (b : Bool) (i : Instr) : Option Instr := if b then some i else none

/-- The first event due, in the order of the table (log entry 2). -/
def firstDue (s : State) : Option Instr :=
  (when (!s.link.replies.isEmpty) .replyTransmission) <|>
  (firstOf allLevers s.transitDue .transitLimit) <|>
  (firstOf allLevers s.windowDue .readbackWindowClose) <|>
  (dueSection s.handleDue .handleMovingTimeout) <|>
  (dueSection s.driveStartDue .regenerationDriveStart) <|>
  (dueSection s.driveEndDue .driveEnd) <|>
  (dueSection s.strikeDue .sounderStrike) <|>
  (dueSection s.soundOffDue .sounderOff) <|>
  (dueSide s.qualifyDue .pressQualifies) <|>
  (dueSide s.longDue .longPressReached) <|>
  (dueSide s.pendingDue .heldPendingReached) <|>
  (dueSide s.ringDue .heldRing) <|>
  (dueSide s.settleDue .pressSettles) <|>
  (dueSide s.codeEndDue .codeEnd) <|>
  (dueSection s.crossClearDue .crossingCleared) <|>
  (dueSection (fun x => s.slotDue x (s.bell x).awaited) .awaitedDeadline) <|>
  (dueSection (fun x => s.slotDue x (s.bell x).owed) .owedDeadline) <|>
  (dueSection s.attentionDue .attentionLapsed) <|>
  (firstOf allSequences s.stepTimeoutDue .stepTimeout) <|>
  s.noticeDue <|>
  s.answerDue <|>
  (firstOf allLocks s.countdownDue .approachCountdownStep) <|>
  (firstOf allLocks s.expiryDue .approachExpiry) <|>
  (when s.provingDue .provingEnd) <|>
  (when s.writeOverdue .storeWriteFailed) <|>
  (when s.shortAlarmDue .shortAlarmEnd)

end State

end Sys2Proof.Machine
end

