-- ==== Sys2Proof/Machine/Dispatch.lean ====
section
/-! DEFINITION. One arm per command, each one direct call of its meaning. -/

namespace Sys2Proof.Machine

def exec (i : Instr) (s : State) : Host.Outcome State Fault Refusal :=
  match i with
  | .powerOn inputs => Sys2Proof.Machine.execPowerOn inputs s
  | .identify fields => Sys2Proof.Machine.execIdentify fields s
  | .poll fields => Sys2Proof.Machine.execPoll fields s
  | .readLevers fields => Sys2Proof.Machine.execReadLevers fields s
  | .readTracks fields => Sys2Proof.Machine.execReadTracks fields s
  | .readSection fields => Sys2Proof.Machine.execReadSection fields s
  | .readApproach fields => Sys2Proof.Machine.execReadApproach fields s
  | .readSequences fields => Sys2Proof.Machine.execReadSequences fields s
  | .readRaw fields => Sys2Proof.Machine.execReadRaw fields s
  | .readFaults fields => Sys2Proof.Machine.execReadFaults fields s
  | .takeFaults fields => Sys2Proof.Machine.execTakeFaults fields s
  | .setMasks fields => Sys2Proof.Machine.execSetMasks fields s
  | .setReporting fields => Sys2Proof.Machine.execSetReporting fields s
  | .trackOutOfUse fields => Sys2Proof.Machine.execTrackOutOfUse fields s
  | .trackInUse fields => Sys2Proof.Machine.execTrackInUse fields s
  | .loadBegin fields => Sys2Proof.Machine.execLoadBegin fields s
  | .loadAbandon fields => Sys2Proof.Machine.execLoadAbandon fields s
  | .loadRecord fields => Sys2Proof.Machine.execLoadRecord fields s
  | .loadStatus fields => Sys2Proof.Machine.execLoadStatus fields s
  | .commission fields key => Sys2Proof.Machine.execCommission fields key s
  | .readTable fields => Sys2Proof.Machine.execReadTable fields s
  | .linkReset fields broadcast => Sys2Proof.Machine.execLinkReset fields broadcast s
  | .unknownRequestKind kind fields => Sys2Proof.Machine.execUnknownRequestKind kind fields s
  | .frameDiscarded why => Sys2Proof.Machine.execFrameDiscarded why s
  | .interCharacterGap => Sys2Proof.Machine.execInterCharacterGap s
  | .replyTransmission => Sys2Proof.Machine.execReplyTransmission s
  | .scanPass raw => Sys2Proof.Machine.execScanPass raw s
  | .leverContactChange lever contact made => Sys2Proof.Machine.execLeverContactChange lever contact made s
  | .transitLimit lever => Sys2Proof.Machine.execTransitLimit lever s
  | .lockReadbackChange lever energised => Sys2Proof.Machine.execLockReadbackChange lever energised s
  | .readbackWindowClose lever => Sys2Proof.Machine.execReadbackWindowClose lever s
  | .plungerChange plunger pressed => Sys2Proof.Machine.execPlungerChange plunger pressed s
  | .boxResetKey pressed => Sys2Proof.Machine.execBoxResetKey pressed s
  | .handleContactChange sec contact made => Sys2Proof.Machine.execHandleContactChange sec contact made s
  | .handleMovingTimeout sec => Sys2Proof.Machine.execHandleMovingTimeout sec s
  | .bellPlungerChange sec pressed => Sys2Proof.Machine.execBellPlungerChange sec pressed s
  | .bellSenseChange sec pressed => Sys2Proof.Machine.execBellSenseChange sec pressed s
  | .regenerationDriveStart sec => Sys2Proof.Machine.execRegenerationDriveStart sec s
  | .driveEnd sec => Sys2Proof.Machine.execDriveEnd sec s
  | .sounderStrike sec => Sys2Proof.Machine.execSounderStrike sec s
  | .sounderOff sec => Sys2Proof.Machine.execSounderOff sec s
  | .pressQualifies sec dir => Sys2Proof.Machine.execPressQualifies sec dir s
  | .longPressReached sec dir => Sys2Proof.Machine.execLongPressReached sec dir s
  | .heldPendingReached sec dir => Sys2Proof.Machine.execHeldPendingReached sec dir s
  | .heldRing sec dir => Sys2Proof.Machine.execHeldRing sec dir s
  | .pressSettles sec dir => Sys2Proof.Machine.execPressSettles sec dir s
  | .codeEnd sec dir => Sys2Proof.Machine.execCodeEnd sec dir s
  | .crossingCleared sec => Sys2Proof.Machine.execCrossingCleared sec s
  | .awaitedDeadline sec => Sys2Proof.Machine.execAwaitedDeadline sec s
  | .owedDeadline sec => Sys2Proof.Machine.execOwedDeadline sec s
  | .attentionLapsed sec => Sys2Proof.Machine.execAttentionLapsed sec s
  | .stepTimeout seq => Sys2Proof.Machine.execStepTimeout seq s
  | .consumptionNotification consumer seq => Sys2Proof.Machine.execConsumptionNotification consumer seq s
  | .approachConsumptionAnswer lock => Sys2Proof.Machine.execApproachConsumptionAnswer lock s
  | .blockConsumptionAnswer sec => Sys2Proof.Machine.execBlockConsumptionAnswer sec s
  | .approachCountdownStep lock => Sys2Proof.Machine.execApproachCountdownStep lock s
  | .approachExpiry lock => Sys2Proof.Machine.execApproachExpiry lock s
  | .provingEnd => Sys2Proof.Machine.execProvingEnd s
  | .storeWriteComplete => Sys2Proof.Machine.execStoreWriteComplete s
  | .storeWriteFailed => Sys2Proof.Machine.execStoreWriteFailed s
  | .shortAlarmEnd => Sys2Proof.Machine.execShortAlarmEnd s

end Sys2Proof.Machine
end

