-- ==== Sys2Proof/Safety.lean ====
section
/-! DEFINITION. The terms the statements use: what a command leads to, what it leaves alone, the request bodies that
fit, and what holds of the part in every state a run goes through. -/

namespace Sys2Proof.Machine

/-! ### What a command leads to -/

/-- The command completes, in a state of which `P` holds. -/
def Becomes (i : Instr) (s : State) (P : State → Prop) : Prop := ∃ t, exec i s = .next t ∧ P t

/-- `s` with one more reply formed: the kind, the outcome, the data (R182). -/
def State.answered (k : RequestKind) (o : ReplyOutcome) (data : List Byte) (s : State) : State :=
  { s with link := { s.link with replies := s.link.replies ++ [k.code :: o.code :: data] } }

/-- 10.5: the fields of a request have the length its kind requires. -/
def RequestKind.fits (f : List Byte) : RequestKind → Prop
  | .identify | .readApproach | .readSequences | .readFaults | .takeFaults | .loadBegin | .loadAbandon | .loadStatus
  | .linkReset => f.length = 0
  | .poll | .readLevers | .readTracks | .readSection | .readRaw | .trackOutOfUse | .trackInUse => f.length = 1
  | .readTable | .commission => f.length = 2
  | .setMasks | .setReporting =>
    ∃ a b : List Byte, a.length ≤ 255 ∧ b.length ≤ 255 ∧ f = byte a.length :: (a ++ byte b.length :: b)
  | .loadRecord => 1 ≤ f.length

/-- An ACTIVE entry for a class and an object stands in the list, or the overflow flag tells of one that has none
(R157, R158, R160). -/
def State.faultShown (c : FaultClass) (obj : Nat) (s : State) : Prop :=
  (∃ e ∈ s.faults.entries, e.cls = c ∧ e.object = obj ∧ e.active = true) ∨ s.faults.overflow = true

/-- The entry of a class and an object is not ACTIVE, or there is none (R159). -/
def State.faultOver (c : FaultClass) (obj : Nat) (s : State) : Prop :=
  ∀ e, s.faults.entryOf c obj = some e → e.active = false

/-- `bs` stands in the data of a reply from byte `k` on. -/
def Stands (data : List Byte) (k : Nat) (bs : List Byte) : Prop := (data.drop k).take bs.length = bs

/-- R178: the record of a kind and a number; FRAME (0) and BELL_TIMING (6) have no number. -/
def Record.named (kind n : Nat) (r : Record) : Prop :=
  r.kindOrder = kind ∧ (kind = 0 ∨ kind = 6 ∨ r.number = n)

/-- Of checks in the order of a table, each with its reason: the first that holds gives the reason, and where none does
there is none. -/
def FirstFailing : List (Prop × LoadReason) → Option LoadReason → Prop
  | [], found => found = none
  | check :: rest, found => (check.1 → found = some check.2) ∧ (¬check.1 → FirstFailing rest found)

/-! ### What a command leaves alone -/

/-- Nothing but the link unit. -/
def OnlyLink (s t : State) : Prop := ∃ l, t = { s with link := l }

/-- Nothing but the link unit and the supervisor. -/
def OnlyFaults (s t : State) : Prop := ∃ l f, t = { s with link := l, faults := f }

/-- Nothing but the link unit, the supervisor and the frame unit. -/
def OnlyEval (s t : State) : Prop := ∃ l f fr, t = { s with link := l, faults := f, frame := fr }

/-- What a raise can reach: the above, and the owners of the orders (R156) with the monitor (R80). -/
def OnlyOrders (s t : State) : Prop :=
  ∃ l f fr tr sq se, t = { s with link := l, faults := f, frame := fr, tracks := tr, seqs := sq, sections := se }

/-- What the hand-offs of a field event can reach: the above, the approach locks and the notifications. -/
def OnlyField (s t : State) : Prop :=
  ∃ l f fr tr sq se lo no, t = { s with link := l, faults := f, frame := fr, tracks := tr, seqs := sq,
                                        sections := se, locks := lo, notices := no }

/-- What a bell event can reach: the above and the bells. -/
def OnlyBells (s t : State) : Prop := ∃ b, OnlyField { s with bells := b } t

/-- The contacts, the readback, the position and the proved end of every lever but `n` are as they were. -/
def OtherLevers (n : Nat) (s t : State) : Prop :=
  ∀ m, m ≠ n →
    (t.lever m).normalMade = (s.lever m).normalMade ∧ (t.lever m).reverseMade = (s.lever m).reverseMade ∧
    (t.lever m).readback = (s.lever m).readback ∧ (t.lever m).position = (s.lever m).position ∧
    (t.lever m).lastProved = (s.lever m).lastProved

/-- The bells of every section but `x` are as they were. -/
def OtherBells (x : SectionId) (s t : State) : Prop := ∀ y, y ≠ x → t.bell y = s.bell y

/-- The handle of every section but `x` is as it was. -/
def OtherHandles (x : SectionId) (s t : State) : Prop :=
  ∀ y, y ≠ x →
    (t.sectn y).blockedMade = (s.sectn y).blockedMade ∧ (t.sectn y).clearMade = (s.sectn y).clearMade ∧
    (t.sectn y).trainMade = (s.sectn y).trainMade ∧ (t.sectn y).handle = (s.sectn y).handle

/-- R129, R134, R142: the record of a section after an entry into a state: the drive of the state, with the mismatch run
at 0 where it changes and the drive cause over where it goes off; the flags that the entry clears; the handle in
correspondence with the state, or held without re-test, but for one that is MOVING. -/
def SectionState.entered (b : BlockState) (r : SectionState) : SectionState :=
  let drive : Drive := if b = .clearIn then .positive else if b = .onLineIn then .negative else .off
  { r with
    state := some b
    drive := drive
    mismatchRun := if r.drive = drive then r.mismatchRun else 0
    driveCause := r.driveCause && decide (r.drive = drive ∨ drive ≠ .off)
    releaseUsed := if b = .blocked ∨ b = .clearOut then false else r.releaseUsed
    earlyClear :=
      if b = .blocked ∨ b = .clearOut ∨ b = .offeredOut ∨ b = .offeredIn ∨ b = .onLineOut then false else r.earlyClear
    cancelReceived := if b = .blocked ∨ b = .clearIn ∨ b = .onLineIn then false else r.cancelReceived
    outSent := if b = .blocked then false else r.outSent
    offered := if b = .blocked then none else r.offered
    outOfCorr := if r.handle = .moving then r.outOfCorr else decide (r.handle ≠ handleFor b)
    retest := false }

/-- R107: a code has at most 4 groups, each of 1 to 12 beats, and at most 24 beats. -/
def Code.lawful (c : Code) : Prop :=
  c.groups.length ≤ 4 ∧ (∀ g ∈ c.groups, 1 ≤ g ∧ g ≤ 12) ∧ c.groups.sum ≤ 24

namespace State

/-! ### Locks (R13, R29, R36) -/

/-- R13: the verdict and the blocking term held for every fitted lever are those its conditions give now. -/
def verdictsFresh (s : State) : Prop :=
  ∀ n, leverOk n = true → s.leverFitted n = true →
    ((s.lever n).verdict, (s.lever n).blocking) = s.verdictOf n

/-- R29: a lock is commanded FREE exactly in RUNNING with the frame supply on, for a lever that is fitted, lock-fitted
and may move. -/
def locksLawful (s : State) : Prop :=
  ∀ n, leverOk n = true → ((s.lever n).command = .free ↔ s.wantsFree n = true)

/-- R36: while the list holds an entry of LEVER_FORCED or LOCK_STUCK_FREE, the frame supply is off. -/
def supplyLawful (s : State) : Prop :=
  ∀ e ∈ s.faults.entries, (e.cls = .leverForced ∨ e.cls = .lockStuckFree) → s.frame.supplyOn = false

/-! ### The register and the owners of the orders (R36, R61, R62, R144, R145, R156) -/

/-- R156: the register says of the frame supply, the sections and the fitted circuits what their owners hold; a failed
circuit carries its mark, and a marked one is FAILED or OUT_OF_USE (R61). -/
def registerLawful (s : State) : Prop :=
  s.faults.frameCut = !s.frame.supplyOn ∧
  (∀ x, (s.sectn x).frozen = s.faults.frozenSet.getLsbD (secCode x).toNat) ∧
  ∀ t, 1 ≤ t → t ≤ 24 → s.trackFitted t = true →
    (s.track t).failedMark = s.faults.failedSet.getLsbD (t - 1) ∧
    ((s.track t).state = .failed → (s.track t).failedMark = true) ∧
    ((s.track t).failedMark = true → (s.track t).state = .failed ∨ (s.track t).state = .outOfUse)

/-! ### Sections (R129) and bells (R107, R111) -/

/-- R129: the indicator line is driven positive in CLEAR_IN, negative in ON_LINE_IN, and in no other state. -/
def drivesLawful (s : State) : Prop := ∀ x, (s.sectn x).drive = driveOf (s.sectn x).state

/-- R107, R111: no section has codes in progress in both directions, none while CROSSED, and every code is within its
bounds. -/
def bellsLawful (s : State) : Prop :=
  ∀ x, ((s.bell x).outbound.code = none ∨ (s.bell x).inbound.code = none) ∧
    ((s.bell x).crossed = true → (s.bell x).outbound.code = none ∧ (s.bell x).inbound.code = none) ∧
    (∀ c, (s.bell x).outbound.code = some c → Code.lawful c) ∧ (∀ c, (s.bell x).inbound.code = some c → Code.lawful c)

/-! ### Track circuits, sequences, approach locks (R52, R73, R87) -/

/-- R52: every accumulator within 0 to C of its circuit, every tally within 0 to 255, every run within 0 to 3. -/
def tracksBounded (s : State) : Prop :=
  ∀ t rec, s.trackRec t = some rec →
    (s.track t).acc ≤ rec.clearCount.toNat ∧ (s.track t).tally ≤ 255 ∧ (s.track t).overRun ≤ 3

/-- R55: a fitted circuit is CLEAR only while its accumulator is above C − 4. -/
def clearCircuits (s : State) : Prop :=
  ∀ t rec, s.trackRec t = some rec → (s.track t).state = .clear → rec.clearCount.toNat < (s.track t).acc + 4

/-- R73: the step of a sequence is 0 to n, and it has a step time exactly while it is not 0. -/
def stepsLawful (s : State) : Prop :=
  ∀ q rec, s.seqRec q = some rec →
    (s.seqn q).step ≤ rec.circuits.length ∧ ((s.seqn q).step = 0 ↔ (s.seqn q).stepTime = none)

/-- R87: a lock has a remaining time exactly in TIMING, and never more than its hold time. -/
def timingLawful (s : State) : Prop :=
  ∀ a rec, s.approachRec a = some rec →
    ((s.lockn a).phase = .timing ↔ (s.lockn a).remaining.isSome = true) ∧
    ∀ m, (s.lockn a).remaining = some m → m ≤ rec.hold.toNat

/-! ### Fault list and mask set (8.4, R153) -/

/-- 8.4, R157 to R160: at most 16 entries, one for a class and object, each with a count of 1 to 255, and alarm
pending only with an unmasked response of an alarm class. -/
def listLawful (s : State) : Prop :=
  s.faults.entries.length ≤ 16 ∧
  s.faults.entries.Pairwise (fun e f => ¬(e.cls = f.cls ∧ e.object = f.object)) ∧
  ∀ e ∈ s.faults.entries, 1 ≤ e.count ∧ e.count ≤ 255 ∧
    (e.alarmPending = true → e.unmasked = true ∧ e.cls.isAlarm = true)

/-- R153: no always-unmasked class, and nothing but a class, is ever in the masked set. -/
def masksLawful (s : State) : Prop :=
  ∀ c, (c = FaultClass.leverForced.number ∨ c = FaultClass.lockStuckFree.number ∨ c = FaultClass.store.number ∨ 14 ≤ c) →
    s.faults.masked.getLsbD c = false

/-! ### Link (R187, R189) and staging (R173, R174) -/

/-- R187: at most 64 reports, the lost count at most 65535; R189: FAULT and PART are never disabled. -/
def linkLawful (s : State) : Prop :=
  s.link.queue.length ≤ 64 ∧ s.link.lost ≤ 65535 ∧
  s.link.filters.getLsbD Category.fault.number = true ∧ s.link.filters.getLsbD Category.part.number = true

/-- 9.2, R173, R174: at most 160 records, none in EMPTY. -/
def stagingLawful (s : State) : Prop :=
  s.store.staged.length ≤ 160 ∧ (s.store.load = .empty → s.store.staged = [])

end State

/-! ### What a rule makes of what it finds -/

/-- R137: the state of a section that is not frozen after a measured polarity is taken. -/
def polarityNext (b : BlockState) (m : Polarity) : BlockState :=
  match b, m with
  | .blocked, .negative => .onLineOut
  | .offeredOut, .positive => .clearOut
  | .offeredOut, .negative => .onLineOut
  | .clearOut, .negative => .onLineOut
  | .clearOut, .none => .blocked
  | .cancellingOut, .negative => .onLineOut
  | .cancellingOut, .none => .blocked
  | .onLineOut, .positive => .blocked
  | .onLineOut, .none => .blocked
  | _, _ => b

/-- R137: the changes of polarity that raise BLOCK_IRREGULAR; `used` is the release used of CLEAR_OUT. -/
def polarityIrregular (b : BlockState) (m : Polarity) (used : Bool) : Bool :=
  match b, m with
  | .blocked, .negative => true
  | .offeredOut, .negative => true
  | .clearOut, .none => used
  | .cancellingOut, .negative => true
  | .onLineOut, .positive => true
  | _, _ => false

/-- R141: a LINE CLEAR handle in OFFERED_IN is accepted: a permitted class is offered, the home signal is proved
Normal, and the clearing track, if there is one, is CLEAR. -/
def State.acceptsTrain (s : State) (x : SectionId) (rec : SectionRec) : Bool :=
  (s.sectn x).offered.any (fun cls => rec.classes.getLsbD cls) && (s.lever rec.home.toNat).position == .normal &&
  (rec.clearing == absent || (s.track rec.clearing.toNat).state == .clear)

/-- R94: the notifications that the release test sends for the locks a test picks: in lock order, one for each that
has a release sequence whose latch is set and whose release asked is clear. -/
def State.askedBy (s : State) (p : Nat → ApproachRec → Bool) : List Notice :=
  allLocks.filterMap fun a =>
    match s.approachRec a with
    | none => none
    | some rec =>
      if p a rec = true ∧ rec.release ≠ absent ∧ (s.lockn a).releaseAsked = false ∧
          (s.seqn rec.release.toNat).latch = true then
        some { consumer := .approach a, seq := rec.release.toNat, epoch := s.epoch }
      else none

/-- R142, R143: the notifications of the sections in ON_LINE_IN whose arrival sequence is `q` and whose handle is held
at LINE BLOCKED with out sent. -/
def State.blocksAsking (s : State) (q : Nat) : List Notice :=
  allSections.filterMap fun x =>
    match s.sectionRec x with
    | none => none
    | some rec =>
      let r := s.sectn x
      if rec.arrival.toNat = q ∧ r.state = some .onLineIn ∧ r.handle = .lineBlocked ∧ r.retest = true ∧
          r.frozen = false ∧ s.store.part ≠ .storing ∧ r.outSent = true ∧ r.consumeAsked = false then
        some { consumer := .block x, seq := q, epoch := s.epoch }
      else none

/-- R75, R76: an occupation of circuit `t` that advances a sequence: it is the next of the list, and the circuit last
reached is not CLEAR. -/
def State.advances (s : State) (q t : Nat) (rec : SequenceRec) : Prop :=
  1 ≤ (s.seqn q).step ∧ (s.seqn q).step < rec.circuits.length ∧ rec.circuitAt ((s.seqn q).step + 1) = t ∧
  (s.track (rec.circuitAt (s.seqn q).step)).state ≠ .clear

/-- R76, R78: sequence `q` completes: a latch found clear is set and handed on, one found set makes the completion
unused. -/
def State.completesSeq (s : State) (q : Nat) (t : State) : Prop :=
  (∀ p, p ≠ q → t.seqn p = s.seqn p) ∧
  ((s.seqn q).latch = true →
    t.seqn q = { s.seqn q with step := 0, stepTime := none, unused := true } ∧
    ∃ l, t = { s with link := l, seqs := t.seqs }) ∧
  ((s.seqn q).latch = false →
    t.seqn q = { s.seqn q with step := 0, stepTime := none, latch := true } ∧
    t.notices = s.notices ++
      (s.updSeq q fun r => { r with latch := true }).askedBy (fun a rec =>
        decide (rec.release.toNat = q) && ((s.lockn a).phase == .awaitRelease || (s.lockn a).phase == .timing)) ++
      s.blocksAsking q ∧
    t.verdictsFresh ∧ OnlyField s t)

/-- R109: the end of a hold moves the deadlines held later by its length, or by the part of it that follows the
setting of the slot; without an end they stand. The line is held, from now or from when it was, while a press that has
reached the held pending is pressed, and not otherwise. -/
def HoldMoves (x : SectionId) (s t : State) : Prop :=
  let goesOn := ∃ d p, ((t.bell x).side d).press = some p ∧ p.release = none ∧ p.pendingReached = true
  (goesOn → (t.bell x).heldSince = some ((s.bell x).heldSince.getD s.now)) ∧
  (¬goesOn → (t.bell x).heldSince = none) ∧
  (∀ h, (s.bell x).heldSince = some h → ¬goesOn →
    let moved (o : Slot) : Slot := { o with deadline := o.deadline + (s.now - max h o.setAt) }
    (t.bell x).awaited = (s.bell x).awaited.map moved ∧
    (t.bell x).owed = (s.bell x).owed.map moved) ∧
  ((s.bell x).heldSince = none ∨ goesOn →
    (t.bell x).awaited = (s.bell x).awaited ∧ (t.bell x).owed = (s.bell x).owed)

/-- R112: the silence of a crossed section is broken while a piece is pressed, and runs from now or from when it began
while none is. -/
def SilenceRuns (x : SectionId) (s t : State) : Prop :=
  let pressed := ∃ d p, ((t.bell x).side d).piece = some p ∧ p.release = none
  (t.bell x).crossed = (s.bell x).crossed ∧
  ((s.bell x).crossed = true → pressed → (t.bell x).silentSince = none) ∧
  ((s.bell x).crossed = true → ¬pressed →
    (t.bell x).silentSince = some ((s.bell x).silentSince.getD s.now)) ∧
  ((s.bell x).crossed = false → (t.bell x).silentSince = (s.bell x).silentSince)

/-- R106: a press as it begins. -/
def pressFrom (now : Time) : Press :=
  { start := now, release := none, qualified := false, longReached := false, pendingReached := false,
    ringReached := false, gap := 0 }

/-- R103, R106: a piece begins. Less than the merge gap after the last release it joins the press of its direction, and
otherwise it begins a new one; a press whose merge gap has passed has then settled. -/
def PieceStarts (x : SectionId) (d : Direction) (s t : State) : Prop :=
  let a := (s.bell x).side d
  let b := (t.bell x).side d
  let merge := s.timing.mergeGap.toNat
  let settles := s.assembles x = true ∧ ∃ p r, a.press = some p ∧ p.release = some r ∧ r + merge ≤ s.now
  b.piece = some { start := s.now, release := none, counted := false } ∧
  (s.assembles x = false → b.press = none) ∧
  (s.assembles x = true → a.press = none ∨ settles → b.press = some (pressFrom s.now)) ∧
  (∀ p r, s.assembles x = true → a.press = some p → p.release = some r → s.now < r + merge →
    b.press = some { p with release := none }) ∧
  (¬settles → b.code = a.code ∧ t = { s with bells := t.bells }) ∧
  (settles → ∀ u, exec (.pressSettles x d) s = .next u →
    b.code = ((u.bell x).side d).code ∧ t = { u with bells := t.bells })

/-- R103, R106, R107: the piece in progress ends, and with it its press and, once that has qualified, the last release
of its code. With no piece pressed nothing ends. -/
def PieceEnds (x : SectionId) (d : Direction) (s t : State) : Prop :=
  let a := (s.bell x).side d
  let b := (t.bell x).side d
  (∀ p, a.piece = some p → p.release = none →
    b.piece = some { p with release := some s.now } ∧
    b.press = a.press.map (fun q => { q with release := some s.now }) ∧
    ((∃ q, a.press = some q ∧ q.qualified = true) → b.code = a.code.map fun c => { c with release := some s.now }) ∧
    ((∀ q, a.press = some q → q.qualified = false) → b.code = a.code)) ∧
  ((∀ p, a.piece = some p → p.release ≠ none) → b = a) ∧
  t = { s with bells := t.bells }

/-- R120, R121: the bells of a section at a start, from the levels of its inputs and the drive and the strike that run
on; `carries` says that the piece then pressed carries the drive on. -/
def bellFrom (now : Time) (plunger sense : Bool) (drive sounder : Option Time) (carries assembled : Bool) : BellState :=
  let side (pressed counted : Bool) : Assembler :=
    { piece := if pressed then some { start := now, release := none, counted := counted } else none
      press := if pressed && assembled then some (pressFrom now) else none
      code := none }
  { plunger := plunger, sense := sense, outbound := side plunger carries, inbound := side (sense && drive.isNone) false
    crossed := false, silentSince := none, heldSince := none, awaited := none, owed := none
    driveSince := drive, sounderUntil := sounder }

/-- R120, R121: every section's bells start afresh from their inputs as they stand; the drive and the strike run on. A
plunger piece that was driving goes on driving (log entry 12). -/
def State.bellsStart (s t : State) : Prop :=
  ∀ x, t.bell x =
    bellFrom s.now (s.bell x).plunger (s.bell x).sense (s.bell x).driveSince (s.bell x).sounderUntil
      ((s.bell x).outbound.piece.any fun p => p.release.isNone && p.counted) (t.assembles x)

/-- R38, R40, R67, R120, R121, R147: every condition held under the table that goes is over, but for those kept. -/
def State.conditionsEnd (keep : FaultClass → Nat → Prop) (s t : State) : Prop :=
  let ends (held : Bool) (c : FaultClass) (obj : Nat) : Prop := held = true → ¬keep c obj → t.faultOver c obj
  (∀ n, leverOk n = true →
    ends (s.lever n).contactActive .leverContact n ∧ ends (s.lever n).forcedActive .leverForced n ∧
    ends (s.lever n).driveActive .lockDrive n ∧ ends (s.lever n).stuckActive .lockStuckFree n) ∧
  ends s.frame.lockSupply .lockSupply 0 ∧
  (∀ m, 1 ≤ m → m ≤ 24 →
    ends (s.track m).channelFault .trackChannel m ∧ ends (s.track m).degraded .trackDegraded m) ∧
  ∀ x,
    let obj := (secCode x).toNat
    ends ((s.sectn x).scaleCause || (s.sectn x).driveCause) .indicatorMismatch obj ∧
    ends (s.sectionFitted x && (s.bell x).crossed) .bellCrossed obj ∧
    ((∃ d p, ((s.bell x).side d).press = some p ∧ p.ringReached = true) → ends (s.sectionFitted x) .heldRing obj)

/-- R163, step 3: every condition that its owner holds active is shown by the list or the overflow flag. -/
def State.activeShown (s : State) : Prop :=
  (∀ n, leverOk n = true →
    ((s.lever n).contactActive = true → s.faultShown .leverContact n) ∧
    ((s.lever n).forcedActive = true → s.faultShown .leverForced n) ∧
    ((s.lever n).driveActive = true → s.faultShown .lockDrive n) ∧
    ((s.lever n).stuckActive = true → s.faultShown .lockStuckFree n)) ∧
  (s.frame.lockSupply = true → s.faultShown .lockSupply 0) ∧
  (∀ t, 1 ≤ t → t ≤ 24 →
    ((s.track t).channelFault = true → s.faultShown .trackChannel t) ∧
    ((s.track t).degraded = true → s.faultShown .trackDegraded t)) ∧
  ∀ x,
    ((s.sectn x).scaleCause = true ∨ (s.sectn x).driveCause = true →
      s.faultShown .indicatorMismatch (secCode x).toNat) ∧
    (s.sectionFitted x = true → (s.bell x).crossed = true → s.faultShown .bellCrossed (secCode x).toNat) ∧
    (s.sectionFitted x = true → (∃ d p, ((s.bell x).side d).press = some p ∧ p.ringReached = true) →
      s.faultShown .heldRing (secCode x).toNat)

end Sys2Proof.Machine
end

