-- ==== Sys2Proof/Certificates/Slice0/Obligations.lean ====
section
/-! DEFINITION. The statements for the provers. -/

open Sys2Proof Sys2Proof.Machine

/-! ## The queue and the interface -/

/-- A step runs the command at the front of the queue on the state with the queue's rest. -/
def Obligations.StepRunsTheFront : Prop :=
  ∀ (c : Instr) (rest : List Instr) (s : State),
    s.pending = c :: rest → step s = exec c { s with pending := rest }

/-- Every command that exists at the part completes, in every state, and leaves the queue as it is. -/
def Obligations.EveryCommandCompletes : Prop :=
  ∀ (i : Instr) (s : State), i.wellFormed = true → Becomes i s fun t => t.pending = s.pending

/-- The model's own choice (log entry 2): with no command waiting, the first event that is due is put into the queue;
with none due, a millisecond passes. The model's own choice (log entry 18): a number that names no object of the part
(00_scope.md 3.2), and UNKNOWN_REQUEST_KIND with a kind that is known (R183), stop the machine by name. -/
def Obligations.ModelConventions : Prop :=
  (∀ s : State, s.pending = [] →
     (∀ i, s.firstDue = some i → step s = .next { s with pending := [i] }) ∧
     (s.firstDue = none → step s = .next { s with now := s.now + 1 })) ∧
  (∀ s : State,
     (∀ n, leverOk n = false →
       (∀ k b, exec (.leverContactChange n k b) s = .fault .noSuchObject) ∧
       exec (.transitLimit n) s = .fault .noSuchObject ∧
       (∀ b, exec (.lockReadbackChange n b) s = .fault .noSuchObject) ∧
       exec (.readbackWindowClose n) s = .fault .noSuchObject) ∧
     (∀ k b, plungerOk k = false → exec (.plungerChange k b) s = .fault .noSuchObject) ∧
     (∀ q, sequenceOk q = false →
       exec (.stepTimeout q) s = .fault .noSuchObject ∧
       ∀ c, exec (.consumptionNotification c q) s = .fault .noSuchObject) ∧
     (∀ c q, consumerOk c = false → exec (.consumptionNotification c q) s = .fault .noSuchObject) ∧
     (∀ a, lockOk a = false →
       exec (.approachConsumptionAnswer a) s = .fault .noSuchObject ∧
       exec (.approachCountdownStep a) s = .fault .noSuchObject ∧
       exec (.approachExpiry a) s = .fault .noSuchObject) ∧
     (∀ k f, (RequestKind.ofCode k.toNat).isSome = true → exec (.unknownRequestKind k f) s = .fault .knownKind))

/-! ## The link -/

/-- R180 to R182, 10.5: the frame the host sends for a request is taken by the part it is sent to as that request,
whatever the receiver holds when its marked character arrives and whatever follows it. R181, R182: the frame of a
request is discarded by every other part, but for a broadcast LINK RESET, which each part takes. R181: characters that
are not marked make no command while no frame is in progress, and a framing error or a gap of more than 20 ms abandons
one. R182: a reply that begins is transmitted; it abandons a frame not yet complete, whatever follows, and while it
lasts no character is received. That an abandoned frame makes no command there, and that the receiver then waits for
the next marked character, is the model's own reading (log entry 8). -/
def Obligations.FramesRoundTrip : Prop :=
  (∀ (address : BitVec 4) (key : Bool) (i : Instr) (r : Receiving) (frame rest : List LineEvent),
     address ≠ 15 → i.wellFormed = true → (∀ f k, i = .commission f k → k = key) → r ≠ .blanked →
     encodeFrame address i = some frame →
     commandsFrom address key r (frame ++ rest) = i :: commandsFrom address key .waiting rest) ∧
  (∀ (address other : BitVec 4) (key : Bool) (i : Instr) (r : Receiving) (frame rest : List LineEvent),
     address ≠ 15 → other ≠ address → i.wellFormed = true → r ≠ .blanked → encodeFrame address i = some frame →
     commandsFrom other key r (frame ++ rest) =
       (match i with
        | .linkReset f true => .linkReset f true
        | _ => .frameDiscarded .notForThisPart) :: commandsFrom other key .waiting rest) ∧
  (∀ (address : BitVec 4) (key : Bool) (cs : List LineChar) (rest : List LineEvent), (∀ c ∈ cs, c.mark = false) →
    let heard := cs.map LineEvent.character
    commandsFrom address key .waiting (heard ++ rest) = commandsFrom address key .waiting rest ∧
    ∀ (broadcast : Bool) (bytes : List Byte) (c : LineChar), (c.stop = false ∨ 20 < c.gap) → c.mark = false →
      commandsFrom address key (.inFrame broadcast bytes) (.character c :: (heard ++ rest)) =
        (if 20 < c.gap then .interCharacterGap else .frameDiscarded .framingError) ::
          commandsFrom address key .waiting rest) ∧
  ∀ (address : BitVec 4) (key : Bool) (r : Receiving) (cs : List LineChar) (rest : List LineEvent),
    let lost := cs.map LineEvent.character
    commandsFrom address key r (.replyBegins :: (lost ++ .replyEnds :: rest)) =
      .replyTransmission :: commandsFrom address key .waiting rest ∧
    ∀ (i : Instr) (begun cut : List LineEvent),
      i.wellFormed = true → encodeFrame address i = some (begun ++ cut) → cut ≠ [] →
      commandsFrom address key r (begun ++ .replyBegins :: (cut ++ lost ++ .replyEnds :: rest)) =
        .replyTransmission :: commandsFrom address key .waiting rest

/-- R191, R192: a record is read from its layout as it was written, and a body that is read is the layout of the
record read. -/
def Obligations.RecordsRoundTrip : Prop :=
  (∀ r : Record,
    (∀ l, r = .lever l → l.reverseList.length ≤ 255 ∧ l.normalList.length ≤ 255) →
    (∀ q, r = .sequence q → q.circuits.length ≤ 255) → (∀ c, r = .code c → c.groups.length ≤ 255) →
    parseRecord (encodeRecord r) = some r) ∧
  ∀ (bs : List Byte) (r : Record), parseRecord bs = some r → encodeRecord r = bs

/-- R181, R182: a discarded or abandoned frame gets no reply and changes nothing. R180: a part whose straps give 15
takes no addressed request. -/
def Obligations.UnansweredFrames : Prop :=
  (∀ (s : State) (why : DiscardReason),
     exec (.frameDiscarded why) s = .next s ∧ exec .interCharacterGap s = .next s) ∧
  (∀ (s : State) (kind : Byte) (f : List Byte) (key : Bool),
     s.link.address = 15 → exec (commandOf kind f key) s = .next s)

/-- R180 to R182: a formed reply is transmitted from the part's start character, which alone is marked, to the check of
its length and body, and nothing else changes; with none formed, nothing does. The model's own choice (log entry 8):
several formed replies wait in the order in which they were formed, and each goes out whole in one step. -/
def Obligations.ReplyTransmission : Prop :=
  ∀ s : State,
    (s.link.replies = [] → exec .replyTransmission s = .next s) ∧
    ∀ body rest, s.link.replies = body :: rest →
      exec .replyTransmission s =
        .next { s with
          link := { s.link with
            replies := rest
            line := { mark := true, data := s.link.address.setWidth 8 + 16 } ::
              (byte body.length :: (body ++ be16 (crc16 (byte body.length :: body)))).map fun b =>
                { mark := false, data := b } } }

/-- R183: a kind byte that is no request kind is refused BAD_KIND, whatever the body holds; a body whose length is not
the length its kind's fields require is refused BAD_FIELD. R170, R183: in STORING every request is refused BUSY but
IDENTIFY, POLL, READ RAW and LINK RESET. (COMMISSION, which makes a report besides, stands in Commission.) The model's
own readings: the length is tested before the part state, so that a body of a wrong length is refused BAD_FIELD in
STORING too, and a COMMISSION of a wrong length without a PART report (log entry 23, DEDUCED); a LOAD RECORD fits with
one byte or more, so that in STORING every such body is refused BUSY (log entry 9). -/
def Obligations.RequestTests : Prop :=
  (∀ (s : State) (kind : Byte) (f : List Byte) (key : Bool),
     s.receives f = true → RequestKind.ofCode kind.toNat = none →
     commandOf kind f key = .unknownRequestKind kind f ∧
     exec (commandOf kind f key) s =
       .next { s with link := { s.link with replies := s.link.replies ++ [[kind, ReplyOutcome.badKind.code]] } }) ∧
  (∀ (s : State) (k : RequestKind) (f : List Byte) (key : Bool),
     s.receives f = true → ¬ k.fits f →
     exec (commandOf k.code f key) s = .next (s.answered k .badField [])) ∧
  (∀ (s : State) (k : RequestKind) (f : List Byte) (key : Bool),
     s.receives f = true → k.fits f → s.store.part = .storing →
     k ≠ .identify → k ≠ .poll → k ≠ .readRaw → k ≠ .linkReset → k ≠ .commission →
     exec (commandOf k.code f key) s = .next (s.answered k .busy []))

/-- R186, R187, R189: a report of a disabled category is not produced; a produced one takes the next number and the
time, and joins the queue of 64 or is counted lost. R188: POLL *n* hands out the oldest reports, `n` of them or all,
with the number left and the lost count, which goes to 0; in every part state. 10.5, R191: each report goes out in 24
bytes: its number, the seconds and the milliseconds of its time, category, object and event, and 13 bytes of detail, the
unused ones 0. A number outside 1 to 8 is refused BAD_FIELD. -/
def Obligations.ReportsAndPolls : Prop :=
  (∀ (s : State) (c : Category) (obj event : Nat) (detail : List Byte),
     (s.link.filters.getLsbD c.number = false → s.report c obj event detail = s) ∧
     (s.link.filters.getLsbD c.number = true → s.link.queue.length < 64 →
       s.report c obj event detail =
         { s with
           link := { s.link with
             nextSeq := s.link.nextSeq + 1
             queue := s.link.queue ++ [{ seq := s.link.nextSeq, time := s.now, category := c, object := obj,
                                         event := event, detail := detail }] } }) ∧
     (s.link.filters.getLsbD c.number = true → 64 ≤ s.link.queue.length →
       s.report c obj event detail =
         { s with link := { s.link with nextSeq := s.link.nextSeq + 1, lost := min 65535 (s.link.lost + 1) } })) ∧
  (∀ (s : State) (b : Byte), s.receives [b] = true →
     let layout (r : Report) : List Byte :=
       be16 r.seq ++ be32 (r.time / 1000) ++ be16 (BitVec.ofNat 16 (r.time % 1000)) ++
         (match r.category with
          | .lever => 0 | .lock => 1 | .track => 2 | .seq => 3 | .approach => 4
          | .sec => 5 | .bell => 6 | .handle => 7 | .fault => 8 | .part => 9) ::
         byte r.object :: byte r.event :: (List.range 13).map fun k => r.detail.getD k 0
     (∀ r, (layout r).length = 24) ∧
     (1 ≤ b.toNat → b.toNat ≤ 8 →
       exec (.poll [b]) s =
         .next (State.answered .poll .accepted
           (byte (min b.toNat s.link.queue.length) :: byte (s.link.queue.length - b.toNat) ::
             (sat16 s.link.lost ++ (s.link.queue.take b.toNat).flatMap layout))
           { s with link := { s.link with queue := s.link.queue.drop b.toNat, lost := 0 } })) ∧
     (b.toNat = 0 ∨ 8 < b.toNat → exec (.poll [b]) s = .next (s.answered .poll .badField [])))

/-- R190: a link reset empties the report queue, the lost count and the staging area and restores the default filters;
addressed it is answered, by broadcast not, and it changes nothing else. -/
def Obligations.LinkReset : Prop :=
  ∀ s : State,
    let reset : State :=
      { s with link := { s.link with queue := [], lost := 0, filters := 0x3FD }
               store := { s.store with staged := [], load := .empty } }
    exec (.linkReset [] true) s = .next reset ∧
    (s.receives [] = true → exec (.linkReset [] false) s = .next (reset.answered .linkReset .accepted []))

/-- R189: SET REPORTING enables every category of its first list and disables every category of its second, all at
once; it is refused BAD_FIELD for a value that is no category, a category in both lists, and FAULT or PART to disable.
-/
def Obligations.SetReporting : Prop :=
  ∀ (s : State) (on off : List Byte),
    let f := byte on.length :: (on ++ byte off.length :: off)
    s.receives f = true → s.store.part ≠ .storing →
    (((∃ c ∈ on ++ off, 10 ≤ c.toNat) ∨ (∃ c ∈ on, c ∈ off) ∨ (8 : Byte) ∈ off ∨ (9 : Byte) ∈ off) →
      exec (.setReporting f) s = .next (s.answered .setReporting .badField [])) ∧
    (¬((∃ c ∈ on ++ off, 10 ≤ c.toNat) ∨ (∃ c ∈ on, c ∈ off) ∨ (8 : Byte) ∈ off ∨ (9 : Byte) ∈ off) →
      ∃ v : BitVec 16,
        (∀ c, c < 16 → v.getLsbD c =
          if byte c ∈ on then true else if byte c ∈ off then false else s.link.filters.getLsbD c) ∧
        exec (.setReporting f) s =
          .next (State.answered .setReporting .accepted [] { s with link := { s.link with filters := v } }))

/-- R185: IDENTIFY is answered in every part state and changes nothing. R43, R70, R84, R100, R123, R150, R165, R178: a
reading outside STORING is answered with its data, laid out as 10.5 gives, and changes nothing; an object number out
of range is refused BAD_FIELD. R178, R183: READ TABLE answers with the first record of a kind and a number in the
active table, as its layout gives it, or with the flag that there is none; NO_TABLE without a table, BAD_FIELD for a
kind not among the eight. The model's own choices: what an absent two-byte value is written as (log entry 10), and in
the SECTION record proper of a section that is not fitted (log entry 54), that READ TABLE takes every number for FRAME
and BELL_TIMING (log entry 31), the times left in tenths (log entry 40), 0 for the beat counts of groups a pattern does
not have (log entry 45), and that elapsed times and fault times are rounded down (log entry 49). -/
def Obligations.Readings : Prop :=
  (∀ s : State, s.receives [] = true →
     exec (.identify []) s =
       .next (s.answered .identify .accepted
         ([s.store.part.code, s.link.address.setWidth 8, s.link.rate.setWidth 8,
           flag s.store.active.isSome] ++
          be16 (match s.store.active with | none => 0 | some t => t.fingerprint) ++
          [s.store.load.code, byte s.store.staged.length] ++ be16 s.link.nextSeq))) ∧
  (∀ s : State, s.receives [0] = true → s.store.part ≠ .storing →
     (∀ b : Byte, 1 ≤ b.toNat → b.toNat ≤ 48 →
       exec (.readLevers [b]) s = .next (s.answered .readLevers .accepted (s.leversData b.toNat)) ∧
       (s.leversData b.toNat).length = 4 + 13 * min 16 (49 - b.toNat)) ∧
     (∀ b : Byte, b.toNat = 0 ∨ 48 < b.toNat →
       exec (.readLevers [b]) s = .next (s.answered .readLevers .badField [])) ∧
     (∀ b : Byte, 1 ≤ b.toNat → b.toNat ≤ 24 →
       exec (.readTracks [b]) s = .next (s.answered .readTracks .accepted (s.tracksData b.toNat)) ∧
       (s.tracksData b.toNat).length = 1 + 16 * min 12 (25 - b.toNat)) ∧
     (∀ b : Byte, b.toNat = 0 ∨ 24 < b.toNat →
       exec (.readTracks [b]) s = .next (s.answered .readTracks .badField [])) ∧
     (∀ x : SectionId,
       exec (.readSection [secCode x]) s = .next (s.answered .readSection .accepted (s.sectionData x)) ∧
       (s.sectionData x).length = 52) ∧
     (∀ b : Byte, 3 < b.toNat → exec (.readSection [b]) s = .next (s.answered .readSection .badField [])) ∧
     (exec (.readApproach []) s = .next (s.answered .readApproach .accepted s.approachData) ∧
       s.approachData.length = 224) ∧
     (exec (.readSequences []) s = .next (s.answered .readSequences .accepted s.sequencesData) ∧
       s.sequencesData.length = 224) ∧
     (exec (.readFaults []) s = .next (s.answered .readFaults .accepted s.faultsData) ∧
       s.faultsData.length = 11 + 12 * s.faults.entries.length) ∧
     exec (.loadStatus []) s = .next (s.answered .loadStatus .accepted
       ([s.store.load.code, byte s.store.staged.length] ++
        sat16 (s.store.staged.map fun
          | .lever r => r.reverseList.length + r.normalList.length
          | _ => 0).sum ++
        (match s.store.load with
         | .empty => []
         | .opened => []
         | .verified fp => be16 fp
         | .rejected i why => [byte i, why.code])))) ∧
  (∀ (s : State) (b n : Nat), 1 ≤ b → b ≤ n → n < b + 16 → n ≤ 48 →
     let l := s.lever n
     Stands (s.leversData b) 0
       [flag s.frame.supplyOn, byte s.frame.lowRun, flag s.frame.lockSupply, byte (min 16 (49 - b))] ∧
     Stands (s.leversData b) (4 + 13 * (n - b))
       (match s.leverRec n with
        | some rec =>
          [byte n, byte (flagBits [true, rec.lockFitted, l.normalMade, l.reverseMade, l.readback, l.verdict]), rec.kind,
            l.position.code, optEnd l.lastProved,
            (match l.position, l.lastProved with
             | .normal, _ => 0
             | .reverse, _ => 1
             | .transit, some .normal => 0
             | .transit, some .reverse => 1
             | _, _ => 255),
            optByte l.blocking, (if rec.lockFitted then l.command.code else 2)] ++
          (if rec.lockFitted = true ∧ l.command = .held then sat16 (s.now - l.commandTime) else absent16) ++
          (if l.position = .transit then sat16 ((s.now - l.transitSince) / 100) else absent16) ++ [0]
        | none =>
          [byte n, byte (flagBits [false, false, l.normalMade, l.reverseMade, l.readback, l.verdict]), 255,
            l.position.code, optEnd l.lastProved, 255, optByte l.blocking, 2])) ∧
  (∀ (s : State) (b t : Nat), 1 ≤ b → b ≤ t → t < b + 12 → t ≤ 24 →
     let x := s.track t
     Stands (s.tracksData b) 0 [byte (min 12 (25 - b))] ∧
     Stands (s.tracksData b) (1 + 16 * (t - b))
       (match s.trackRec t with
        | some rec =>
          [byte t, 1] ++ be16 rec.pick ++ be16 rec.drop ++
            [rec.clearCount, rec.degrade, x.state.code, byte x.acc, byte x.tally, byte x.overRun] ++
            be16 (x.lastRaw.setWidth 16) ++
            [(match x.lastClass with | none => 255 | some c => c.code),
              byte (flagBits [x.degraded, x.channelFault, x.failedMark])]
        | none => [byte t, 0]) ∧
     (s.store.active = none →
       Stands (s.tracksData b) (1 + 16 * (t - b) + 12) (be16 ((Bank.at s.scanner.raw t).setWidth 16)))) ∧
  (∀ (s : State) (x : SectionId),
     let r := s.sectn x
     let b := s.bell x
     let side (a : Assembler) : List Byte :=
       match a.code with
       | none => [0]
       | some c => [1, flag c.malformed, byte c.groups.length, byte (c.groups.getD 0 0), byte (c.groups.getD 1 0),
           byte (c.groups.getD 2 0), byte (c.groups.getD 3 0)]
     let slot (o : Option Slot) : List Byte :=
       match o with
       | none => [255]
       | some y => byte y.entry :: sat16 ((y.deadline - s.now) / 100)
     (∀ rec, s.sectionRec x = some rec →
       Stands (s.sectionData x) 0
         (encodeRecord (.blockSection rec) ++ [optBlock r.state] ++
           be16 (BitVec.ofNat 16 (flagBits
             [r.releaseUsed, r.obstruction, r.attention.isSome, r.earlyClear, r.cancelReceived, r.outSent, r.frozen,
               r.consumeAsked, r.outOfCorr, b.crossed, b.heldSince.isSome, b.driveSince.isSome,
               b.sounderUntil.isSome])) ++
           (match r.attention with | none => absent16 | some d => sat16 ((d - s.now) / 100)) ++
           [optByte r.offered, r.measured.code, (match r.candidate with | none => 255 | some p => p.code),
             byte r.candRun, byte r.scaleRun, byte r.mismatchRun]) ∧
       Stands (s.sectionData x) 27
         ((match r.state with
           | none => 255
           | some .blocked | some .offeredOut | some .cancellingOut | some .offeredIn => 0
           | some .clearOut | some .clearIn => 1
           | some .onLineOut | some .onLineIn => 2) :: be16 (r.lastRaw.setWidth 16))) ∧
     (s.sectionFitted x = false → Stands (s.sectionData x) 0 (List.replicate 14 255)) ∧
     Stands (s.sectionData x) 24
       [r.handle.code, byte (flagBits [r.blockedMade, r.clearMade, r.trainMade]), r.drive.code] ∧
     Stands (s.sectionData x) 30 (side b.outbound) ∧ Stands (s.sectionData x) 37 (side b.inbound) ∧
     Stands (s.sectionData x) 44
       (match b.silentSince with | none => absent16 | some d => sat16 ((s.now - d) / 100)) ∧
     Stands (s.sectionData x) 46 (slot b.awaited) ∧ Stands (s.sectionData x) 49 (slot b.owed)) ∧
  (∀ (s : State) (n : Nat), 1 ≤ n → n ≤ 16 →
     let r := s.lockn n
     let q := s.seqn n
     Stands s.approachData (14 * (n - 1))
       (match s.approachRec n with
        | some rec =>
          [byte n, 1, rec.signal, rec.track] ++ be16 rec.hold ++
            [rec.plunger, rec.release, byte (flagBits [rec.alwaysTime, r.releaseAsked]), r.phase.code] ++
            (match r.remaining with | none => absent16 | some m => sat16 m) ++ sat16 ((s.now - r.since) / 100)
        | none => [byte n, 0]) ∧
     Stands s.sequencesData (14 * (n - 1))
       (match s.seqRec n with
        | some rec =>
          [byte n, 1, byte rec.circuits.length, rec.circuits.getD 0 255, rec.circuits.getD 1 255,
            rec.circuits.getD 2 255, rec.circuits.getD 3 255, rec.gate] ++ be16 rec.timeout ++ [byte q.step] ++
            (match q.stepTime with | none => absent16 | some d => sat16 ((s.now - d) / 100)) ++
            [byte (flagBits [q.latch, q.unused])]
        | none => [byte n, 0])) ∧
  (∀ s : State,
     Stands s.faultsData 0
       ([flag s.faults.overflow] ++ be16 s.faults.masked ++ [flag s.faults.frameCut, s.faults.frozenSet.setWidth 8] ++
        [(s.faults.failedSet >>> 16).setWidth 8, (s.faults.failedSet >>> 8).setWidth 8, s.faults.failedSet.setWidth 8] ++
        [flag s.alarmSounds, byte s.lamp, byte s.faults.entries.length]) ∧
     ∀ (i : Nat) (e : FaultEntry), s.faults.entries[i]? = some e →
       Stands s.faultsData (11 + 12 * i)
         ([e.cls.code, byte e.object] ++ be32 (e.raised / 1000) ++ be32 (e.lastRaised / 1000) ++
          [byte (flagBits [!e.active, e.unmasked, e.alarmPending]), byte e.count])) ∧
  (∀ (s : State) (kind n : Byte), s.receives [kind, n] = true → s.store.part ≠ .storing →
     (s.store.active = none → exec (.readTable [kind, n]) s = .next (s.answered .readTable .noTable [])) ∧
     (s.store.active ≠ none → 7 < kind.toNat →
       exec (.readTable [kind, n]) s = .next (s.answered .readTable .badField [])) ∧
     (s.store.active ≠ none → kind.toNat ≤ 7 →
       (∀ before r after, s.table = before ++ r :: after → r.named kind.toNat n.toNat →
         (∀ q ∈ before, ¬q.named kind.toNat n.toNat) →
         exec (.readTable [kind, n]) s = .next (s.answered .readTable .accepted (1 :: encodeRecord r))) ∧
       ((∀ q ∈ s.table, ¬q.named kind.toNat n.toNat) →
         exec (.readTable [kind, n]) s = .next (s.answered .readTable .accepted [0]))))

/-- R46: READ RAW returns the raw value and the fresh flag of a channel and clears that flag, in every part state; no
other flag and no raw value changes. -/
def Obligations.ReadRaw : Prop :=
  ∀ (s : State) (b : Byte), s.receives [b] = true →
    (31 < b.toNat → exec (.readRaw [b]) s = .next (s.answered .readRaw .badField [])) ∧
    (b.toNat ≤ 31 →
      ∃ fresh : Bank Bool 32,
        exec (.readRaw [b]) s =
          .next (State.answered .readRaw .accepted
            (b :: (be16 ((Bank.at s.scanner.raw (b.toNat + 1)).setWidth 16) ++
              [if Bank.at s.scanner.fresh (b.toNat + 1) then 1 else 0]))
            { s with scanner := { s.scanner with fresh := fresh } }) ∧
        ∀ c, 1 ≤ c → c ≤ 32 →
          Bank.at fresh c = if c = b.toNat + 1 then false else Bank.at s.scanner.fresh c)

/-! ## The fault supervisor -/

/-- R155, R157, R158, R160: what a raise leaves in the fault list. -/
def Obligations.RaiseEntersTheList : Prop :=
  ∀ (s : State) (c : FaultClass) (obj : Nat) (momentary : Bool),
    let u : Bool := c == .leverForced || c == .lockStuckFree || c == .store || !s.faults.masked.getLsbD c.number ||
      (s.faults.entryOf c obj).any fun e => e.unmasked
    let t := s.enterRaise c obj momentary
    let new : FaultEntry :=
      { cls := c, object := obj, raised := s.now, lastRaised := s.now, active := !momentary, count := 1, unmasked := u,
        alarmPending := u && c.isAlarm }
    (s.faults.entryOf c obj ≠ none →
      t.faults.entries = s.faults.entries.map fun x =>
        if x.cls = c ∧ x.object = obj then
          { x with active := !momentary, count := min 255 (x.count + 1), lastRaised := s.now, unmasked := u,
                   alarmPending := (u && c.isAlarm) || x.alarmPending }
        else x) ∧
    (s.faults.entryOf c obj = none → s.faults.entries.length < 16 → t.faults.entries = s.faults.entries ++ [new]) ∧
    (∀ before d after, s.faults.entries = before ++ d :: after → s.faults.entryOf c obj = none →
      16 ≤ s.faults.entries.length → (∀ x ∈ before, x.active = true) → d.active = false →
      t.faults.entries = before ++ after ++ [new] ∧ (d.alarmPending = true → t.faults.overflow = true)) ∧
    (s.faults.entryOf c obj = none → 16 ≤ s.faults.entries.length → (∀ x ∈ s.faults.entries, x.active = true) →
      t.faults.entries = s.faults.entries ∧ t.faults.overflow = true) ∧
    OnlyFaults s t

/-- R155, R156: the order of an unmasked raise is carried out by its owner, and the register keeps it. -/
def Obligations.RaiseOrders : Prop :=
  ∀ (s : State) (momentary : Bool),
    (∀ (c : FaultClass) (n : Nat), (c = .leverForced ∨ c = .lockStuckFree) →
      (s.raiseWith momentary c n).frame.supplyOn = false ∧ (s.raiseWith momentary c n).faults.frameCut = true) ∧
    (∀ (c : FaultClass) (n : Nat), (c = .trackChannel ∨ c = .trackDegraded) → 1 ≤ n → n ≤ 24 →
      s.faults.unmaskedFor c n = true →
      (s.raiseWith momentary c n).faults.failedSet.getLsbD (n - 1) = true ∧
      ((s.track n).state ≠ .failed → ((s.raiseWith momentary c n).track n).failedMark = true) ∧
      ((s.track n).state ≠ .outOfUse → ((s.raiseWith momentary c n).track n).state = .failed)) ∧
    (∀ (c : FaultClass) (x : SectionId), (c = .indicatorMismatch ∨ c = .blockIrregular) →
      s.faults.unmaskedFor c (secCode x).toNat = true →
      ((s.raiseWith momentary c (secCode x).toNat).sectn x).frozen = true ∧
      (s.raiseWith momentary c (secCode x).toNat).faults.frozenSet.getLsbD (secCode x).toNat = true) ∧
    ∀ (c : FaultClass) (n : Nat), (c.order = none ∨ s.faults.unmaskedFor c n = false) →
      OnlyFaults s (s.raiseWith momentary c n)

/-- R161: the fault lamp. R162: the alarm sounds while an entry has alarm pending, while overflow is set with an alarm
it carries, or while the short alarm runs; each unmasked raise of an alarm class makes it sound, a masked HELD_RING
makes it sound for 5 s, and no end silences it. R130: of the repeater lamps of a fitted section the one of its state is
lit, flashing while the section is frozen; with state none, and for a section that is not fitted, all are dark. -/
def Obligations.LampsAndAlarm : Prop :=
  (∀ s : State,
     (s.lamp = 0 ↔ s.faults.entries = [] ∧ s.faults.overflow = false) ∧
     (s.lamp = 2 ↔ ∃ e ∈ s.faults.entries, e.unmasked = true ∧
       (e.cls = .bellCrossed ∨ e.cls = .bellMisrepeat ∨ e.cls = .bellNotRepeated)) ∧
     (s.lamp = 0 ∨ s.lamp = 1 ∨ s.lamp = 2) ∧
     (s.alarmSounds = true ↔ (∃ e ∈ s.faults.entries, e.alarmPending = true) ∨
       (s.faults.overflow = true ∧ s.faults.overflowAlarm = true) ∨ s.faults.shortAlarm ≠ none)) ∧
  (∀ (s : State) (momentary : Bool) (c : FaultClass) (obj : Nat),
     let t := s.raiseWith momentary c obj
     (s.faults.unmaskedFor c obj = true → c ≠ .bellCrossed → c ≠ .bellMisrepeat → c ≠ .bellNotRepeated →
       t.alarmSounds = true) ∧
     (c = .heldRing → s.faults.unmaskedFor c obj = false →
       t.faults.shortAlarm = some (s.now + 5000) ∧ t.alarmSounds = true) ∧
     (¬(c = .heldRing ∧ s.faults.unmaskedFor c obj = false) → t.faults.shortAlarm = s.faults.shortAlarm) ∧
     (s.endFault c obj).alarmSounds = s.alarmSounds) ∧
  ∀ (s : State) (x : SectionId),
    (s.sectionFitted x = false ∨ (s.sectn x).state = none → ∀ k, s.repeaterLamp x k = .dark) ∧
    ∀ b, s.sectionFitted x = true → (s.sectn x).state = some b →
      let lit : Nat :=
        match b with
        | .blocked | .offeredOut | .cancellingOut | .offeredIn => 0
        | .clearOut | .clearIn => 1
        | .onLineOut | .onLineIn => 2
      s.repeaterLamp x lit = (if (s.sectn x).frozen then .flashing else .steady) ∧
      ∀ k, k ≠ lit → s.repeaterLamp x k = .dark

/-- R154: SET MASKS puts every class of its first list into the masked set and takes every class of its second out,
all at once, with a report of a change; it is refused BAD_FIELD for a value that is no class or a class in both lists,
and ALWAYS_UNMASKED for LEVER_FORCED, LOCK_STUCK_FREE or STORE to mask. -/
def Obligations.SetMasks : Prop :=
  ∀ (s : State) (mask unmask : List Byte),
    let f := byte mask.length :: (mask ++ byte unmask.length :: unmask)
    let bad := (∃ c ∈ mask ++ unmask, 14 ≤ c.toNat) ∨ ∃ c ∈ mask, c ∈ unmask
    let always := (1 : Byte) ∈ mask ∨ (3 : Byte) ∈ mask ∨ (13 : Byte) ∈ mask
    s.receives f = true → s.store.part ≠ .storing →
    (bad → exec (.setMasks f) s = .next (s.answered .setMasks .badField [])) ∧
    (¬bad → always → exec (.setMasks f) s = .next (s.answered .setMasks .alwaysUnmasked [])) ∧
    (¬bad → ¬always →
      ∃ v : BitVec 16,
        (∀ c, c < 16 → v.getLsbD c =
          if byte c ∈ mask then true else if byte c ∈ unmask then false else s.faults.masked.getLsbD c) ∧
        exec (.setMasks f) s =
          .next (State.answered .setMasks .accepted []
            (if v = s.faults.masked then s
             else State.report .fault 0 8 (be16 v) { s with faults := { s.faults with masked := v } })))

/-- R165: TAKE FAULTS shows the list as it stood and removes the entries that are ENDED and masked; nothing else
changes. -/
def Obligations.TakeFaults : Prop :=
  ∀ s : State, s.receives [] = true → s.store.part ≠ .storing →
    ∃ rest : List FaultEntry,
      exec (.takeFaults []) s =
        .next (State.answered .takeFaults .accepted s.faultsData { s with faults := { s.faults with entries := rest } }) ∧
      rest.Sublist s.faults.entries ∧
      ∀ e ∈ s.faults.entries, e ∈ rest ↔ ¬(e.active = false ∧ e.unmasked = false)

/-- R163, R164: the box reset key. A level already held and a release change no more than the key. A press with no
order in force and no overflow removes the ENDED entries and silences the alarm. A press with the frame supply cut, no
overflow and no ACTIVE entry of LEVER_FORCED or LOCK_STUCK_FREE restores it. (The order of the bytes in the report is
the model's, log entry 17.) R163, step 3: a press with overflow set leaves every condition that its owner holds active
shown, and overflow set only with a full list; with no
entry of LEVER_FORCED or LOCK_STUCK_FREE in the list after it, the frame supply is restored. R62, R164: a press, with
overflow or without, lifts a failed circuit with no ACTIVE unmasked entry: FAILED becomes OCCUPIED with half-recovery,
OUT_OF_USE only loses its mark; with such an entry the circuit stays. R145, R164: it unfreezes a section with no ACTIVE
unmasked entry: the measured polarity is taken under the state the section held, then the handle under the state that
leaves, and then a new BLOCK_IRREGULAR reaches the supervisor and freezes the section again where it is unmasked. That a
handle at the corresponding position is in correspondence in STORING too is the model's reading of R147 (log entry 11,
DEDUCED). R162: the short alarm stops when its 5 s have passed; nothing happens before. -/
def Obligations.BoxResetKey : Prop :=
  (∀ s : State,
     exec (.boxResetKey s.resetKey) s = .next s ∧
     (s.resetKey = true → exec (.boxResetKey false) s = .next { s with resetKey := false }) ∧
     (s.resetKey = false → s.faults.frameCut = false → s.faults.frozenSet = 0 → s.faults.failedSet = 0 →
       s.faults.overflow = false →
       exec (.boxResetKey true) s =
         .next (State.report .fault 0 7
           [byte (s.faults.entries.filter fun e => !e.active).length, 0, 0, 0, 0, 0, 0]
           { s with
             resetKey := true
             faults := { s.faults with
               entries := (s.faults.entries.filter fun e => e.active).map fun e => { e with alarmPending := false }
               shortAlarm := none } })) ∧
     (s.resetKey = false → s.faults.frameCut = true → s.faults.overflow = false →
       (∀ e ∈ s.faults.entries, e.active = true → e.cls ≠ .leverForced ∧ e.cls ≠ .lockStuckFree) →
       Becomes (.boxResetKey true) s fun t =>
         t.frame.supplyOn = true ∧ t.faults.frameCut = false ∧ t.resetKey = true ∧ OnlyField { s with resetKey := true } t)) ∧
  (∀ s : State, s.resetKey = false → s.faults.overflow = true →
     Becomes (.boxResetKey true) s fun t =>
       t.activeShown ∧ (t.faults.overflow = true → 16 ≤ t.faults.entries.length) ∧
       (s.faults.frameCut = true →
         (∀ e ∈ t.faults.entries, e.cls ≠ .leverForced ∧ e.cls ≠ .lockStuckFree) →
         t.frame.supplyOn = true ∧ t.faults.frameCut = false) ∧
       OnlyField { s with resetKey := true } t) ∧
  (∀ (s : State) (n : Nat) (rec : TrackRec), s.trackRec n = some rec → 1 ≤ n → n ≤ 24 →
     s.resetKey = false → s.faults.failedSet.getLsbD (n - 1) = true → (s.track n).failedMark = true →
     let stands (u : State) := ∃ e ∈ u.faults.entries, e.active = true ∧ e.unmasked = true ∧ e.object = n ∧
       (e.cls = .trackChannel ∨ e.cls = .trackDegraded)
     Becomes (.boxResetKey true) s fun t =>
       (s.faults.overflow = false → (stands t ↔ stands s)) ∧
       t.faults.failedSet.getLsbD (n - 1) = decide (stands t) ∧
       ((s.track n).state = .failed ∨ (s.track n).state = .outOfUse → stands t → t.track n = s.track n) ∧
       (¬stands t → (s.track n).state = .failed →
         t.track n = { s.track n with
           state := .occupied, acc := min (s.track n).acc (rec.clearCount.toNat / 2), failedMark := false }) ∧
       (¬stands t → (s.track n).state = .outOfUse → t.track n = { s.track n with failedMark := false })) ∧
  (∀ (s : State) (x : SectionId) (rec : SectionRec) (b : BlockState), s.sectionRec x = some rec →
     (s.sectn x).state = some b → (s.sectn x).frozen = true → s.resetKey = false →
     s.faults.frozenSet.getLsbD (secCode x).toNat = true →
     let obj := (secCode x).toNat
     let stands (u : State) := ∃ e ∈ u.faults.entries, e.active = true ∧ e.unmasked = true ∧ e.object = obj ∧
       (e.cls = .indicatorMismatch ∨ e.cls = .blockIrregular)
     let b1 := polarityNext b (s.sectn x).measured
     let out := polarityIrregular b (s.sectn x).measured (s.sectn x).releaseUsed
     let again := out && !s.faults.masked.getLsbD FaultClass.blockIrregular.number
     let b2 : BlockState :=
       match b1, (s.sectn x).handle with
       | .offeredIn, .lineClear => if s.store.part ≠ .storing ∧ s.acceptsTrain x rec then .clearIn else .offeredIn
       | .clearIn, .trainOnLine => if s.store.part ≠ .storing then .onLineIn else .clearIn
       | .clearIn, .lineBlocked => if s.store.part ≠ .storing ∧ (s.sectn x).cancelReceived = true then .blocked else .clearIn
       | _, _ => b1
     Becomes (.boxResetKey true) s fun t =>
       (s.faults.overflow = false → (stands t ↔ stands s)) ∧
       (stands t → t.sectn x = s.sectn x ∧ t.faults.frozenSet.getLsbD obj = true) ∧
       (¬stands t → (t.sectn x).frozen = again ∧ t.faults.frozenSet.getLsbD obj = again ∧
         (out = true → s.faults.entries.length < 13 → s.faults.overflow = false →
           ∃ e ∈ t.faults.entries, e.cls = .blockIrregular ∧ e.object = obj ∧ e.active = false) ∧
         (s.faults.overflow = false ∨ b1 ≠ .offeredIn →
           (t.sectn x).state = some b2 ∧ ((t.sectn x).outOfCorr = true ↔ (s.sectn x).handle ≠ handleFor b2)) ∧
         (b = .onLineIn → (s.sectn x).handle = .lineBlocked → s.store.part ≠ .storing → (s.sectn x).outSent = true →
           (s.seqn rec.arrival.toNat).latch = true → (s.sectn x).consumeAsked = false →
           (t.sectn x).consumeAsked = true ∧
           { consumer := .block x, seq := rec.arrival.toNat, epoch := s.epoch } ∈ t.notices))) ∧
  (∀ s : State,
     (∀ d, s.faults.shortAlarm = some d → d ≤ s.now →
       exec .shortAlarmEnd s = .next { s with faults := { s.faults with shortAlarm := none } }) ∧
     ((s.faults.shortAlarm = none ∨ ∃ d, s.faults.shortAlarm = some d ∧ s.now < d) → exec .shortAlarmEnd s = .next s))

/-! ## The table store -/

/-- R173: LOAD BEGIN and LOAD ABANDON clear the staging area, outside STORING. R174, R175, R192: LOAD RECORD. A record
that fits goes to the end of staging while it has room and more records follow; the last one brings the load to
VERIFIED with its fingerprint or REJECTED with the first failure; one for which staging has no room is dropped and
closes the load REJECTED with TOO_MANY; a body that does not fit is refused BAD_FIELD, and every body is refused
WRONG_STATE with no load OPEN. The model's own choices: WRONG_STATE before the fit (log entry 9), and a more-follows
byte above 1 counts as set (log entry 44). -/
def Obligations.LoadRequests : Prop :=
  (∀ s : State, s.receives [] = true → s.store.part ≠ .storing →
     exec (.loadBegin []) s =
       .next (State.answered .loadBegin .accepted []
         (State.report .part 0 6 [0] { s with store := { s.store with staged := [], load := .opened } })) ∧
     exec (.loadAbandon []) s =
       .next (State.answered .loadAbandon .accepted []
         (State.report .part 0 6 [1] { s with store := { s.store with staged := [], load := .empty } }))) ∧
  (∀ (s : State) (more : Byte) (body : List Byte), s.receives (more :: body) = true → s.store.part ≠ .storing →
     (s.store.load ≠ .opened →
       exec (.loadRecord (more :: body)) s = .next (s.answered .loadRecord .wrongState [])) ∧
     (s.store.load = .opened → parseRecord body = none →
       exec (.loadRecord (more :: body)) s = .next (s.answered .loadRecord .badField [])) ∧
     (∀ r, s.store.load = .opened → parseRecord body = some r → more ≠ 0 → s.store.staged.length < 160 →
       let t : State := { s with store := { s.store with staged := s.store.staged ++ [r] } }
       exec (.loadRecord (more :: body)) s = .next (t.answered .loadRecord .accepted t.loadData)) ∧
     (∀ r, s.store.load = .opened → parseRecord body = some r → more = 0 → s.store.staged.length < 160 →
       verifyLoad (s.store.staged ++ [r]) = none →
       let fp := fingerprintOf (s.store.staged ++ [r])
       let t : State :=
         State.report .part 0 7 (0 :: be16 fp)
           { s with store := { s.store with staged := s.store.staged ++ [r], load := .verified fp } }
       exec (.loadRecord (more :: body)) s = .next (t.answered .loadRecord .accepted t.loadData)) ∧
     (∀ r i why, s.store.load = .opened → parseRecord body = some r → more = 0 → s.store.staged.length < 160 →
       verifyLoad (s.store.staged ++ [r]) = some (i, why) →
       let t : State :=
         State.report .part 0 7 [1, byte i, why.code]
           { s with store := { s.store with staged := s.store.staged ++ [r], load := .rejected i why } }
       exec (.loadRecord (more :: body)) s = .next (t.answered .loadRecord .accepted t.loadData)) ∧
     (∀ r, s.store.load = .opened → parseRecord body = some r → 160 ≤ s.store.staged.length →
       let t : State :=
         State.report .part 0 7 [1, 161, LoadReason.tooMany.code]
           { s with store := { s.store with load := .rejected 161 .tooMany } }
       exec (.loadRecord (more :: body)) s = .next (t.answered .loadRecord .accepted t.loadData)))

/-- R4, R18, R20, R48, R72, R86, R101, R113, R125, R175: what a table that passes verification is: one FRAME and one
BELL_TIMING record, no two records of one kind and number, and in every record each value in its range, each object
named present, each signal lever a SIGNAL, no list too long, no term of its own lever, no PASSAGE in a when-condition,
no term of a spare lever, no circuit twice in a sequence, no pattern twice in a code set. R18, R19, R175: a load that
fails names its first failing record in load order, and of a LEVER record the first reason in R18's order; with every
record passing, FRAME_COUNT and then TIMING_COUNT, with 0 or the place of the second. R20, R48, R72, R86, R101, R113,
R125: and of a record of every other kind the first reason in the order of its kind's table, and none where none holds.
NOT_SIGNAL looks at the first LEVER record of the number (the model's own choice, log entry 35). -/
def Obligations.Verification : Prop :=
  (∀ rs : List Record, verifyLoad rs = none →
    let signal (n : Byte) := ∃ l : LeverRec, .lever l ∈ rs ∧ l.number = n ∧ l.kind = 0
    let lever (n : Byte) := ∃ l : LeverRec, .lever l ∈ rs ∧ l.number = n
    let track (n : Byte) := ∃ k : TrackRec, .track k ∈ rs ∧ k.circuit = n
    let seq (n : Byte) := ∃ q : SequenceRec, .sequence q ∈ rs ∧ q.number = n
    (∃ f : FrameRec, rs.filter Record.isFrame = [.frame f] ∧
      (f.transitLimit = 0 ∨ 2 ≤ f.transitLimit.toNat ∧ f.transitLimit.toNat ≤ 60) ∧
      (f.travelTime = 0 ∨ 50 ≤ f.travelTime.toNat ∧ f.travelTime.toNat ≤ 500) ∧
      100 ≤ f.threshold.toNat ∧ f.threshold.toNat ≤ 1000) ∧
    (∃ b : TimingRec, rs.filter Record.isTiming = [.timing b] ∧
      let t := b.filled
      20 ≤ t.beatMinimum.toNat ∧ t.beatMinimum.toNat ≤ 60 ∧ 400 ≤ t.longPress.toNat ∧ t.longPress.toNat ≤ 900 ∧
      700 ≤ t.heldPending.toNat ∧ t.heldPending.toNat ≤ 1200 ∧ 1200 ≤ t.heldRing.toNat ∧ t.heldRing.toNat ≤ 3000 ∧
      20 ≤ t.mergeGap.toNat ∧ t.mergeGap.toNat ≤ 100 ∧ 300 ≤ t.groupGap.toNat ∧ t.groupGap.toNat ≤ 800 ∧
      1200 ≤ t.codeEndGap.toNat ∧ t.codeEndGap.toNat ≤ 3000 ∧ 5 ≤ t.repetition.toNat ∧ t.repetition.toNat ≤ 60 ∧
      10 ≤ t.attentionLife.toNat ∧ t.attentionLife.toNat ≤ 120 ∧
      t.beatMinimum.toNat < t.longPress.toNat ∧ t.longPress.toNat < t.heldPending.toNat ∧
      t.heldPending.toNat < t.heldRing.toNat ∧ t.mergeGap.toNat < t.groupGap.toNat ∧
      t.groupGap.toNat < t.codeEndGap.toNat) ∧
    (rs.map Record.key).Nodup ∧ poolUse rs ≤ 768 ∧
    (∀ r, .lever r ∈ rs →
      1 ≤ r.number.toNat ∧ r.number.toNat ≤ 48 ∧ r.kind.toNat ≤ 3 ∧ r.reverseList.length ≤ 16 ∧
      r.normalList.length ≤ 16 ∧
      (∀ c ∈ r.conditions, ∃ k, ConditionKind.ofCode c.1.toNat = some k ∧ operandInRange k c.2.toNat = true ∧
        operandPresent rs k c.2.toNat = true ∧ (k = .leverNormal ∨ k = .leverReverse → c.2 ≠ r.number)) ∧
      (∀ t ∈ r.reverseList ++ r.normalList, t.whenKind ≠ 7) ∧
      (r.kind = 3 → r.reverseList = [] ∧ r.normalList = [])) ∧
    (∀ r, .track r ∈ rs →
      1 ≤ r.circuit.toNat ∧ r.circuit.toNat ≤ 24 ∧ 16 ≤ r.pick.toNat ∧ r.pick.toNat ≤ 1000 ∧
      r.drop.toNat + 16 ≤ r.pick.toNat ∧ 8 ≤ r.clearCount.toNat ∧ r.clearCount.toNat ≤ 200 ∧ 32 ≤ r.degrade.toNat) ∧
    (∀ r, .sequence r ∈ rs →
      1 ≤ r.number.toNat ∧ r.number.toNat ≤ 16 ∧ 5 ≤ r.timeout.toNat ∧ r.timeout.toNat ≤ 600 ∧
      2 ≤ r.circuits.length ∧ r.circuits.length ≤ 4 ∧ r.circuits.Nodup ∧ (∀ c ∈ r.circuits, track c) ∧
      (r.gate = absent ∨ lever r.gate)) ∧
    (∀ r, .approach r ∈ rs →
      1 ≤ r.number.toNat ∧ r.number.toNat ≤ 16 ∧ 100 ≤ r.hold.toNat ∧ r.hold.toNat ≤ 6000 ∧ signal r.signal ∧
      track r.track ∧ (r.plunger = absent ∨ 1 ≤ r.plunger.toNat ∧ r.plunger.toNat ≤ 8) ∧
      (r.release = absent ∨ seq r.release)) ∧
    (∀ r, .blockSection r ∈ rs →
      r.letter.toNat ≤ 3 ∧
      (r.fitted = true →
        1 ≤ r.codeSet.toNat ∧ r.codeSet.toNat ≤ 3 ∧ 64 ≤ r.onLevel.toNat ∧ r.onLevel.toNat ≤ 400 ∧
        16 ≤ r.offLevel.toNat ∧ r.offLevel.toNat + 16 ≤ r.onLevel.toNat ∧ signal r.signal ∧ signal r.home ∧
        seq r.arrival ∧ (r.clearing = absent ∨ track r.clearing))) ∧
    (∀ r, .code r ∈ rs →
      1 ≤ r.entry.toNat ∧ r.entry.toNat ≤ 32 ∧ 1 ≤ r.groups.length ∧ r.groups.length ≤ 4 ∧
      (∀ g ∈ r.groups, 1 ≤ g.toNat ∧ g.toNat ≤ 12) ∧ (r.groups.map (·.toNat)).sum ≤ 24 ∧ r.meaning.toNat ≤ 7 ∧
      (r.meaning = 1 → r.trainClass.toNat ≤ 7) ∧ (r.meaning ≠ 1 → r.trainClass = absent) ∧
      r.codeSets ≠ 0 ∧ (∀ k, r.codeSets.getLsbD k = true → 1 ≤ k ∧ k ≤ 3) ∧
      ∀ e, .code e ∈ rs → e.entry ≠ r.entry → e.groups = r.groups → e.codeSets &&& r.codeSets = 0)) ∧
  (∀ (before : List Record) (r : Record) (after : List Record) (why : LoadReason),
    let rs := before ++ r :: after
    (∀ p q z, before = p ++ q :: z → recordReason rs p q = none) → recordReason rs before r = some why →
    verifyLoad rs = some (before.length + 1, why)) ∧
  (∀ rs : List Record, (∀ p q z, rs = p ++ q :: z → recordReason rs p q = none) →
    (rs.filter Record.isFrame = [] → verifyLoad rs = some (0, .frameCount)) ∧
    (∀ p q z, rs = p ++ q :: z → q.isFrame = true → (p.filter Record.isFrame).length = 1 →
      verifyLoad rs = some (p.length + 1, .frameCount)) ∧
    ((rs.filter Record.isFrame).length = 1 → rs.filter Record.isTiming = [] →
      verifyLoad rs = some (0, .timingCount)) ∧
    (∀ p q z, rs = p ++ q :: z → (rs.filter Record.isFrame).length = 1 → q.isTiming = true →
      (p.filter Record.isTiming).length = 1 → verifyLoad rs = some (p.length + 1, .timingCount)) ∧
    ((rs.filter Record.isFrame).length = 1 → (rs.filter Record.isTiming).length = 1 → verifyLoad rs = none)) ∧
  (∀ (all earlier : List Record) (r : LeverRec) (why : LoadReason),
    let known (test : ConditionKind → Nat → Bool) : Prop :=
      ∀ c ∈ r.conditions, ∀ k, ConditionKind.ofCode c.1.toNat = some k → test k c.2.toNat = true
    let fails (w : LoadReason) : Prop :=
      match w with
      | .badValue => r.number.toNat = 0 ∨ 48 < r.number.toNat ∨ 3 < r.kind.toNat
      | .duplicate => ∃ l : LeverRec, .lever l ∈ earlier ∧ l.number = r.number
      | .listLong => 16 < r.reverseList.length ∨ 16 < r.normalList.length
      | .badCondition => ∃ c ∈ r.conditions, 8 < c.1.toNat
      | .refRange => ¬known operandInRange
      | .whenPassage => ∃ t ∈ r.reverseList ++ r.normalList, t.whenKind = 7
      | .selfReference => ∃ c ∈ r.conditions, c.1.toNat ≤ 1 ∧ c.2 = r.number
      | .refAbsent => ¬known (operandPresent all)
      | .spareTerms => r.kind = 3 ∧ r.reverseList ++ r.normalList ≠ []
      | .poolFull => 768 < poolUse earlier + r.reverseList.length + r.normalList.length
      | _ => False
    recordReason all earlier (.lever r) = some why ↔ fails why ∧ ∀ w, w.code < why.code → ¬fails w) ∧
  ∀ all earlier : List Record,
    let outside (lo hi n : Nat) : Prop := n < lo ∨ hi < n
    let noLever (n : Byte) : Prop := ∀ l : LeverRec, .lever l ∈ all → l.number ≠ n
    let noTrack (n : Byte) : Prop := ∀ k : TrackRec, .track k ∈ all → k.circuit ≠ n
    let noSequence (n : Byte) : Prop := ∀ q : SequenceRec, .sequence q ∈ all → q.number ≠ n
    let noSignal (n : Byte) : Prop := ∀ l, leverOf n.toNat all = some l → l.kind ≠ 0
    (∀ r : FrameRec, FirstFailing
      [((r.transitLimit ≠ 0 ∧ outside 2 60 r.transitLimit.toNat) ∨ (r.travelTime ≠ 0 ∧ outside 50 500 r.travelTime.toNat) ∨
          outside 100 1000 r.threshold.toNat, .badValue)]
      (recordReason all earlier (.frame r))) ∧
    (∀ r : TrackRec, FirstFailing
      [(outside 1 24 r.circuit.toNat ∨ outside 16 1000 r.pick.toNat ∨ r.pick.toNat < r.drop.toNat + 16 ∨
          outside 8 200 r.clearCount.toNat ∨ r.degrade.toNat < 32, .badValue),
        (∃ k : TrackRec, .track k ∈ earlier ∧ k.circuit = r.circuit, .duplicate)]
      (recordReason all earlier (.track r))) ∧
    (∀ r : SequenceRec, FirstFailing
      [(outside 1 16 r.number.toNat ∨ outside 2 4 r.circuits.length ∨ outside 5 600 r.timeout.toNat, .badValue),
        (∃ q : SequenceRec, .sequence q ∈ earlier ∧ q.number = r.number, .duplicate),
        ((∃ c ∈ r.circuits, outside 1 24 c.toNat) ∨ (r.gate ≠ absent ∧ outside 1 48 r.gate.toNat), .refRange),
        (¬r.circuits.Nodup, .repeatedTrack),
        ((∃ c ∈ r.circuits, noTrack c) ∨ (r.gate ≠ absent ∧ noLever r.gate), .refAbsent)]
      (recordReason all earlier (.sequence r))) ∧
    (∀ r : ApproachRec, FirstFailing
      [(outside 1 16 r.number.toNat ∨ outside 100 6000 r.hold.toNat, .badValue),
        (∃ q : ApproachRec, .approach q ∈ earlier ∧ q.number = r.number, .duplicate),
        (outside 1 48 r.signal.toNat ∨ outside 1 24 r.track.toNat ∨ (r.plunger ≠ absent ∧ outside 1 8 r.plunger.toNat) ∨
          (r.release ≠ absent ∧ outside 1 16 r.release.toNat), .refRange),
        (noLever r.signal ∨ noTrack r.track ∨ (r.release ≠ absent ∧ noSequence r.release), .refAbsent),
        (noSignal r.signal, .notSignal)]
      (recordReason all earlier (.approach r))) ∧
    (∀ r : SectionRec,
      let worked (p : Prop) : Prop := r.fitted = true ∧ p
      FirstFailing
        [(3 < r.letter.toNat ∨ worked (outside 1 3 r.codeSet.toNat ∨ outside 64 400 r.onLevel.toNat ∨
            r.offLevel.toNat < 16 ∨ r.onLevel.toNat < r.offLevel.toNat + 16), .badValue),
          (∃ q : SectionRec, .blockSection q ∈ earlier ∧ q.letter = r.letter, .duplicate),
          (worked (outside 1 48 r.signal.toNat ∨ outside 1 48 r.home.toNat ∨ outside 1 16 r.arrival.toNat ∨
            (r.clearing ≠ absent ∧ outside 1 24 r.clearing.toNat)), .refRange),
          (worked (noLever r.signal ∨ noLever r.home ∨ noSequence r.arrival ∨
            (r.clearing ≠ absent ∧ noTrack r.clearing)), .refAbsent),
          (worked (noSignal r.signal ∨ noSignal r.home), .notSignal)]
        (recordReason all earlier (.blockSection r))) ∧
    (∀ r : TimingRec,
      let wrong (w : Word16) (lo hi : Nat) : Prop := w ≠ 0 ∧ outside lo hi w.toNat
      let t := r.filled
      FirstFailing
        [(wrong r.beatMinimum 20 60 ∨ wrong r.longPress 400 900 ∨ wrong r.heldPending 700 1200 ∨
            wrong r.heldRing 1200 3000 ∨ wrong r.mergeGap 20 100 ∨ wrong r.groupGap 300 800 ∨
            wrong r.codeEndGap 1200 3000 ∨ wrong r.repetition 5 60 ∨ wrong r.attentionLife 10 120, .badValue),
          (t.longPress.toNat ≤ t.beatMinimum.toNat ∨ t.heldPending.toNat ≤ t.longPress.toNat ∨
            t.heldRing.toNat ≤ t.heldPending.toNat ∨ t.groupGap.toNat ≤ t.mergeGap.toNat ∨
            t.codeEndGap.toNat ≤ t.groupGap.toNat, .timingOrder)]
        (recordReason all earlier (.timing r))) ∧
    ∀ r : CodeRec, FirstFailing
      [(outside 1 32 r.entry.toNat ∨ outside 1 4 r.groups.length ∨ (∃ g ∈ r.groups, outside 1 12 g.toNat) ∨
          24 < (r.groups.map (·.toNat)).sum ∨ 7 < r.meaning.toNat ∨ (r.meaning = 1 ∧ 7 < r.trainClass.toNat) ∨
          (r.meaning ≠ 1 ∧ r.trainClass ≠ absent) ∨ r.codeSets &&& 0x0E = 0 ∨ r.codeSets &&& 0xF1 ≠ 0, .badValue),
        (∃ q : CodeRec, .code q ∈ earlier ∧ q.entry = r.entry, .duplicate),
        (∃ q : CodeRec, .code q ∈ earlier ∧ q.groups = r.groups ∧ q.codeSets &&& r.codeSets ≠ 0, .ambiguous)]
      (recordReason all earlier (.code r))

/-- R176: the fingerprint of a table does not depend on the order in which its records were loaded. -/
def Obligations.FingerprintIsOrderFree : Prop :=
  ∀ rs ss : List Record, rs.Perm ss → (rs.map Record.key).Nodup → fingerprintOf rs = fingerprintOf ss

/-- R177: a COMMISSION is refused for the first of its reasons, in their order, with a PART report; nothing else
changes but the key as it was read. In RUNNING it needs every fitted lever proved Normal, every fitted section BLOCKED,
frozen or not, and no fitted approach lock in TIMING or AWAIT_RELEASE. R170, R177: an accepted COMMISSION takes the staged table, its defaults filled in,
into the write buffer, spoils the stored copy, enters STORING and commands every lock HELD; the blocks go on with the
table active before. -/
def Obligations.Commission : Prop :=
  (∀ (s : State) (hi lo : Byte) (key : Bool), s.receives [hi, lo] = true →
     let quiet := (∀ n, leverOk n = true → s.leverFitted n = true → (s.lever n).position = .normal) ∧
       (∀ x, s.sectionFitted x = true → (s.sectn x).state = some .blocked) ∧
       ∀ a, lockOk a = true → s.approachFitted a = true → (s.lockn a).phase ≠ .timing ∧ (s.lockn a).phase ≠ .awaitRelease
     let refusedWith (why : ReplyOutcome) : Prop :=
       exec (.commission [hi, lo] key) s =
         .next (State.answered .commission why []
           (State.report .part 0 2 [1, why.code] { s with commissioningKey := key }))
     (s.store.part = .storing → refusedWith .busy) ∧
     (s.store.part = .proving → refusedWith .wrongState) ∧
     (s.store.part = .running ∨ s.store.part = .uncommissioned →
       ((∀ v, s.store.load ≠ .verified v) → refusedWith .noTable) ∧
       ∀ v, s.store.load = .verified v →
         (word hi lo ≠ v → refusedWith .mismatch) ∧
         (word hi lo = v → key = false → refusedWith .keyOff) ∧
         (word hi lo = v → key = true → s.store.part = .running → ¬quiet → refusedWith .notQuiet))) ∧
  (∀ (s : State) (hi lo : Byte), s.receives [hi, lo] = true → s.store.load = .verified (word hi lo) →
     (s.store.part = .uncommissioned ∨
       s.store.part = .running ∧
         (∀ n, leverOk n = true → s.leverFitted n = true → (s.lever n).position = .normal) ∧
         (∀ x, s.sectionFitted x = true → (s.sectn x).state = some .blocked) ∧
         ∀ a, lockOk a = true → s.approachFitted a = true →
           (s.lockn a).phase = .free ∨ (s.lockn a).phase = .engaged) →
     Becomes (.commission [hi, lo] true) s fun t =>
       t.store = { s.store with
         buffer := some { records := s.store.staged.map Record.filled, fingerprint := word hi lo }
         copy := .spoiled, part := .storing, entered := s.now } ∧
       t.link.replies = s.link.replies ++ [[RequestKind.commission.code, ReplyOutcome.accepted.code]] ∧
       (∀ n, leverOk n = true → s.hasLock n = true → (t.lever n).command = .held) ∧
       OnlyEval { s with store := t.store, commissioningKey := true } t)

/-- R171: a store write that completes in time makes the buffered table the active and the stored one; the part enters
PROVING, and every block starts with it. R38, R40, R67, R119, R120, R121, R147: in both cases the conditions held under
the old table are over in the list, but that at a commission LEVER_CONTACT is kept for a fitted lever with both contacts
made, and raised where it was not active, and LOCK_STUCK_FREE for a lock whose readback is energised; and the bells
start from their inputs as they stand, a drive and a strike running on. R172: a store write that fails leaves the part
UNCOMMISSIONED with no table and nothing in the copy, every lock HELD, and STORE in the list. The model's own readings:
LOCK_SUPPLY is over at a commission, with its run at 0 (log entry 20, DEDUCED: R40 does not list it); a plunger piece
then pressed that was driving carries the drive on (log entry 12, DEDUCED); a section's handle goes on as read (log
entry 51, DEDUCED); a completion more than 2 s after the entry, or with nothing buffered, has no effect (log entry 30,
DESIGN CHOICE). -/
def Obligations.StoreWrite : Prop :=
  (∀ (s : State) (tb : Table), s.store.part = .storing → s.store.buffer = some tb → s.now ≤ s.store.entered + 2000 →
     Becomes .storeWriteComplete s fun t =>
       t.store = { s.store with active := some tb, copy := .written tb, buffer := none, part := .proving, entered := s.now } ∧
       t.tracks = Vector.replicate 24 {} ∧ t.seqs = Vector.replicate 16 {} ∧
       t.faults.frozenSet = 0 ∧ t.faults.failedSet = 0 ∧ t.faults.masked = s.faults.masked ∧
       t.faults.frameCut = s.faults.frameCut ∧ t.frame.supplyOn = s.frame.supplyOn ∧
       (∀ x, (t.sectn x).state = none ∧ (t.sectn x).drive = .off ∧ (t.sectn x).frozen = false ∧
         (t.sectn x).handle = (s.sectn x).handle ∧ (t.bell x).awaited = none ∧ (t.bell x).owed = none) ∧
       s.bellsStart t ∧ t.frame.lowRun = 0 ∧ t.frame.lockSupply = false ∧
       (let crossed (n : Nat) : Prop := (∃ rec, leverOf n tb.records = some rec) ∧
          (s.lever n).normalMade = true ∧ (s.lever n).reverseMade = true
        let stuck (n : Nat) : Prop := (s.lever n).readback = true ∧ (s.lever n).stuckActive = true ∧
          ∃ rec, leverOf n tb.records = some rec ∧ rec.flags.getLsbD 0 = true
        (∀ n, leverOk n = true →
          ((t.lever n).contactActive = true ↔ crossed n) ∧ ((t.lever n).stuckActive = true ↔ stuck n) ∧
          (t.lever n).forcedActive = false ∧ (t.lever n).driveActive = false ∧
          (crossed n → (s.lever n).contactActive = false → t.faultShown .leverContact n)) ∧
        (s.listLawful →
          s.conditionsEnd (fun c n => (c = .leverContact ∧ crossed n) ∨ (c = .lockStuckFree ∧ stuck n)) t)) ∧
       (∀ n, leverOk n = true → (t.lever n).command = .held ∧ (t.lever n).readback = (s.lever n).readback ∧
         (t.lever n).position = positionOf (s.lever n).normalMade (s.lever n).reverseMade) ∧
       ∀ a rec, approachOf a tb.records = some rec → lockOk a = true →
         (t.lockn a).phase = if (t.lever rec.signal.toNat).position = .normal then .free else .engaged) ∧
  (∀ s : State, (s.store.buffer = none ∨ s.store.entered + 2000 < s.now) → exec .storeWriteComplete s = .next s) ∧
  (∀ s : State,
     (s.store.part ≠ .storing → exec .storeWriteFailed s = .next s ∧ exec .storeWriteComplete s = .next s) ∧
     (s.store.part = .storing →
       Becomes .storeWriteFailed s fun t =>
         t.store = { s.store with active := none, copy := .spoiled, buffer := none, part := .uncommissioned,
                                  entered := s.now } ∧
         t.tracks = Vector.replicate 24 {} ∧ t.seqs = Vector.replicate 16 {} ∧ t.locks = Vector.replicate 16 {} ∧
         t.faults.frozenSet = 0 ∧ t.faults.failedSet = 0 ∧ t.faults.masked = s.faults.masked ∧
         ((∃ e ∈ t.faults.entries, e.cls = .store ∧ e.unmasked = true) ∨ t.faults.overflow = true) ∧
         (∀ x, (t.sectn x).state = none ∧ (t.sectn x).drive = .off ∧ (t.sectn x).frozen = false) ∧
         s.bellsStart t ∧ t.frame.lowRun = 0 ∧ t.frame.lockSupply = false ∧
         (s.listLawful → s.conditionsEnd (fun _ _ => False) t) ∧
         ∀ n, leverOk n = true → (t.lever n).command = .held ∧ (t.lever n).position = (s.lever n).position ∧
           (t.lever n).contactActive = false ∧ (t.lever n).forcedActive = false ∧
           (t.lever n).driveActive = false ∧ (t.lever n).stuckActive = false))

/-- R169, R146: when PROVING has lasted its 3 s, every fitted section takes its start state from its handle and its
measured polarity, the part enters RUNNING, and the locks follow the verdicts; nothing happens before. -/
def Obligations.ProvingEnd : Prop :=
  ∀ s : State,
    (¬(s.store.part = .proving ∧ s.store.entered + 3000 ≤ s.now) → exec .provingEnd s = .next s) ∧
    (s.store.part = .proving → s.store.entered + 3000 ≤ s.now →
      Becomes .provingEnd s fun t =>
        t.store = { s.store with part := .running, entered := s.now } ∧
        (∀ x, s.sectionFitted x = true →
          let b : BlockState :=
            if (s.sectn x).handle = .trainOnLine ∨ (s.sectn x).handle = .lineClear then .onLineIn
            else if (s.sectn x).measured = .positive then .clearOut
            else if (s.sectn x).measured = .negative then .onLineOut
            else .blocked
          (t.sectn x).state = some b ∧ (t.sectn x).drive = driveOf (some b) ∧
          (t.sectn x).releaseUsed = decide (b = .clearOut)) ∧
        (∀ x, s.sectionFitted x = false → t.sectn x = s.sectn x) ∧ t.verdictsFresh ∧
        (∀ n, leverOk n = true → s.hasLock n = true → ((t.lever n).command = .free ↔ t.wantsFree n = true)) ∧
        OnlyOrders { s with store := t.store } t)

/-- R168, R39, R46, R49, R73, R88, R120, R126, R153, R166, R173, R180, R189, R190: a power-on, which keeps the stored copy
(and the sender's queue) and reads every input: the straps, the lever contacts and readbacks, the handle contacts, the
release plungers, the two bell inputs of each section, the box reset key and the commissioning key. The bells start from
their inputs; the report numbering starts afresh with the reports of the power-on, none of them lost; and with a stored
table a fitted lever found with both contacts made raises LEVER_CONTACT. The model's own choice (log entry 55): a reply formed
and not yet transmitted is dropped, and no frame stands as the last one transmitted. The model's own reading (log entry
29, DEDUCED): a copy that cannot be read raises STORE even where it was never written. -/
def Obligations.PowerOn : Prop :=
  ∀ (p : PowerInputs) (s : State),
    Becomes (.powerOn p) s fun t =>
      t.now = 0 ∧ t.pending = s.pending ∧ t.link.address = p.addressStraps ∧ t.link.rate = p.rateStraps ∧
      t.link.filters = 0x3FD ∧ t.link.replies = [] ∧ t.link.line = [] ∧
      t.store.staged = [] ∧ t.store.load = .empty ∧ t.store.buffer = none ∧ t.store.copy = s.store.copy ∧
      t.scanner = {} ∧ t.tracks = Vector.replicate 24 {} ∧ t.seqs = Vector.replicate 16 {} ∧ t.notices = [] ∧
      t.answers = [] ∧ t.frame.supplyOn = true ∧ t.faults.masked = 0x1EC5 ∧ t.faults.frameCut = false ∧
      t.faults.frozenSet = 0 ∧ t.faults.failedSet = 0 ∧ t.faults.shortAlarm = none ∧
      t.resetKey = p.resetKey ∧ t.commissioningKey = p.commissioningKey ∧
      (∀ k, 1 ≤ k → k ≤ 8 → Bank.at t.plungers k = p.plungers.getLsbD (k - 1)) ∧
      (∀ x, t.bell x = bellFrom 0 (p.bellPlunger.getLsbD (secCode x).toNat) (p.bellSense.getLsbD (secCode x).toNat) none
        none false (t.assembles x)) ∧
      t.link.lost = 0 ∧ t.link.nextSeq.toNat = t.link.queue.length ∧
      (∀ (i : Nat) (r : Report), t.link.queue[i]? = some r → r.seq.toNat = i ∧ r.time = 0) ∧
      (∀ n, leverOk n = true →
        (t.lever n).normalMade = p.normal.getLsbD (n - 1) ∧ (t.lever n).reverseMade = p.reverse.getLsbD (n - 1) ∧
        (t.lever n).command = .held ∧ (t.lever n).readback = p.readback.getLsbD (n - 1) ∧
        (t.lever n).position = positionOf (p.normal.getLsbD (n - 1)) (p.reverse.getLsbD (n - 1)) ∧
        (t.lever n).lastProved = (t.lever n).position.provedEnd ∧
        (t.lever n).contactActive = (t.leverFitted n && (t.lever n).position == .contactFault) ∧
        ((t.lever n).contactActive = true → t.faultShown .leverContact n)) ∧
      (∀ x, (t.sectn x).blockedMade = p.handleBlocked.getLsbD (secCode x).toNat ∧
        (t.sectn x).clearMade = p.handleClear.getLsbD (secCode x).toNat ∧
        (t.sectn x).trainMade = p.handleTrain.getLsbD (secCode x).toNat) ∧
      (∀ x, (t.sectn x).state = none ∧ (t.sectn x).drive = .off ∧ (t.sectn x).measured = .none ∧
        (t.sectn x).handle = handleOf (p.handleBlocked.getLsbD (secCode x).toNat)
          (p.handleClear.getLsbD (secCode x).toNat) (p.handleTrain.getLsbD (secCode x).toNat)) ∧
      (∀ tb, s.store.copy = .written tb → p.copyReadable = true → fingerprintOf tb.records = tb.fingerprint →
        t.store.part = .proving ∧ t.store.active = some tb ∧
        ∀ a rec, approachOf a tb.records = some rec → lockOk a = true →
          (t.lockn a).phase = if (t.lever rec.signal.toNat).position = .normal then .free else .engaged) ∧
      ((p.copyReadable = false ∨ s.store.copy = .spoiled ∨
          ∃ tb, s.store.copy = .written tb ∧ fingerprintOf tb.records ≠ tb.fingerprint) →
        t.store.part = .uncommissioned ∧ t.store.active = none ∧
        ∃ e, t.faults.entries = [e] ∧ e.cls = .store ∧ e.active = false ∧ e.unmasked = true) ∧
      (p.copyReadable = true → s.store.copy = .blank →
        t.store.part = .uncommissioned ∧ t.store.active = none ∧ t.faults.entries = [])

/-! ## The evaluator -/

/-- R9, R10: a list is satisfied when each of its terms is, and its blocking term is the first that is not. R5 to R8:
when a condition of each kind holds; one outside the nine kinds never does. R11, R12: the list that governs a fitted
lever, from its position and the end it left, its verdict and its blocking term; a lever that is SPARE, or that no list
governs, may not move. R29: when a lock is to be FREE. -/
def Obligations.TermsAndLists : Prop :=
  (∀ (s : State) (ts : List Term) (i : Nat),
    (s.firstUnsatisfied i ts = none ↔ ∀ t ∈ ts, s.termSatisfied t = true) ∧
    (∀ j, s.firstUnsatisfied i ts = some j →
      ∃ before t after, ts = before ++ t :: after ∧ j = i + before.length ∧ s.termSatisfied t = false ∧
        ∀ u ∈ before, s.termSatisfied u = true) ∧
    ∀ t : Term, s.termSatisfied t = true ↔
      s.codeHolds t.mainKind t.mainOperand = true ∨
        (t.whenKind ≠ absent ∧ s.codeHolds t.whenKind t.whenOperand = false)) ∧
  (∀ (s : State) (b : Byte),
    let n := b.toNat
    (s.codeHolds 0 b = true ↔ (∃ rec, s.leverRec n = some rec) ∧ (s.lever n).position = .normal) ∧
    (s.codeHolds 1 b = true ↔ (∃ rec, s.leverRec n = some rec) ∧ (s.lever n).position = .reverse) ∧
    (s.codeHolds 2 b = true ↔ (∃ rec, s.trackRec n = some rec) ∧ (s.track n).state = .clear) ∧
    (s.codeHolds 3 b = true ↔ s.codeHolds 2 b = false) ∧
    (s.codeHolds 4 b = true ↔ ∃ x rec, b = secCode x ∧ s.sectionRec x = some rec ∧
      (s.sectn x).state = some .clearOut ∧ (s.sectn x).releaseUsed = false ∧ (s.sectn x).obstruction = false ∧
      (s.sectn x).frozen = false) ∧
    (s.codeHolds 5 b = true ↔ ∃ x rec, b = secCode x ∧ s.sectionRec x = some rec ∧
      (s.sectn x).state = some .blocked ∧ (s.sectn x).frozen = false) ∧
    (s.codeHolds 6 b = true ↔ (∃ rec, s.approachRec n = some rec) ∧ (s.lockn n).phase = .free) ∧
    (s.codeHolds 7 b = true ↔ (∃ rec, s.seqRec n = some rec) ∧ (s.seqn n).latch = true) ∧
    (s.codeHolds 8 b = true ↔ Bank.at s.plungers n = true) ∧
    ∀ k : Byte, 8 < k.toNat → s.codeHolds k b = false) ∧
  ∀ (s : State) (n : Nat),
    (s.leverRec n = none → s.verdictOf n = (false, none)) ∧
    (∀ rec, s.leverRec n = some rec →
      let governs : Option (List Term) :=
        match (s.lever n).position, (s.lever n).lastProved with
        | .normal, _ => some rec.reverseList
        | .reverse, _ => some rec.normalList
        | .transit, some .normal => some rec.reverseList
        | .transit, some .reverse => some rec.normalList
        | .transit, none => none
        | .contactFault, _ => none
      (governs = none → s.verdictOf n = (false, none)) ∧
      ∀ ts, governs = some ts →
        (s.verdictOf n).2 = s.firstUnsatisfied 1 ts ∧
        ((s.verdictOf n).1 = true ↔ (∀ t ∈ ts, s.termSatisfied t = true) ∧ rec.kind ≠ 3)) ∧
    (s.wantsFree n = true ↔ s.store.part = .running ∧ s.frame.supplyOn = true ∧
      ∃ rec, s.leverRec n = some rec ∧ rec.flags.getLsbD 0 = true ∧ (s.verdictOf n).1 = true)

/-- R13, R14, R29, R30: an evaluation leaves every verdict fresh and every lock commanded as its verdict, the part
state and the frame supply say; a command that changes takes the time and opens a window; no lever moves. R31, R33: a
LOCK_DRIVE condition ends where the command goes to HELD, and stands elsewhere. -/
def Obligations.EvaluationSettles : Prop :=
  ∀ (s : State) (cause : LockCause),
    let t := s.evaluate cause
    t.verdictsFresh ∧ OnlyEval s t ∧
    (∀ n, leverOk n = true → s.hasLock n = true →
      ((t.lever n).command = .free ↔ s.wantsFree n = true) ∧
      ((t.lever n).command ≠ (s.lever n).command →
        (t.lever n).commandTime = s.now ∧ (t.lever n).window = some s.now) ∧
      ((t.lever n).command = (s.lever n).command →
        (t.lever n).commandTime = (s.lever n).commandTime ∧ (t.lever n).window = (s.lever n).window) ∧
      ((s.lever n).command = .free → (t.lever n).command = .held →
        (t.lever n).driveActive = false ∧
        (s.listLawful → (s.lever n).driveActive = true → t.faultOver .lockDrive n)) ∧
      ((s.lever n).command = .held ∨ (t.lever n).command = .free →
        (t.lever n).driveActive = (s.lever n).driveActive)) ∧
    ∀ n, (t.lever n).stuckActive = (s.lever n).stuckActive ∧ (t.lever n).position = (s.lever n).position ∧ (t.lever n).readback = (s.lever n).readback ∧
      (t.lever n).lastProved = (s.lever n).lastProved

/-! ## Levers and locks -/

/-- R21, R22: a contact accepted at a level: a level already held changes nothing; otherwise the lever has the contact
and the position its two contacts give; no other lever moves. R24, R27, R28, R41: of a fitted lever: found at the end
it left, at that end after CONTACT_FAULT, or at its first end, it is proved there and its conditions end; with both
contacts made it enters CONTACT_FAULT, and LEVER_CONTACT is raised; a stroke that continues, or an open pair that
follows no proved end, starts its time in transit afresh and ends LEVER_CONTACT. In none of these is the move judged.
R22, R28: a lever that is not fitted only has its position and its proved end. -/
def Obligations.LeverContacts : Prop :=
  ∀ (s : State) (n : Nat) (k : LeverContact) (made : Bool), leverOk n = true →
    let nm := if k = .normal then made else (s.lever n).normalMade
    let rm := if k = .reverse then made else (s.lever n).reverseMade
    (nm = (s.lever n).normalMade → rm = (s.lever n).reverseMade → exec (.leverContactChange n k made) s = .next s) ∧
    (¬(nm = (s.lever n).normalMade ∧ rm = (s.lever n).reverseMade) →
      Becomes (.leverContactChange n k made) s fun t =>
        (t.lever n).normalMade = nm ∧ (t.lever n).reverseMade = rm ∧ (t.lever n).readback = (s.lever n).readback ∧
        (t.lever n).position =
          (if nm = true ∧ rm = false then .normal else if nm = false ∧ rm = true then .reverse
           else if nm = false then .transit else .contactFault) ∧
        OtherLevers n s t ∧ OnlyField s t ∧
        (∀ e : LeverEnd, s.leverFitted n = true → nm = decide (e = .normal) → rm = decide (e = .reverse) →
          ((s.lever n).lastProved = none ∨ (s.lever n).lastProved = some e) →
          (t.lever n).lastProved = some e ∧ (t.lever n).notHome = false ∧ (t.lever n).contactActive = false ∧
          (t.lever n).forcedActive = false ∧ ((s.lever n).contactActive = true → t.faultOver .leverContact n) ∧
          ((s.lever n).forcedActive = true → t.faultOver .leverForced n) ∧ t.frame.supplyOn = s.frame.supplyOn ∧
          t.verdictsFresh ∧ OnlyEval s t) ∧
        (s.leverFitted n = true → nm = true → rm = true →
          (t.lever n).contactActive = true ∧ t.faultShown .leverContact n ∧ (t.lever n).notHome = false ∧
          (t.lever n).provedBeforeFault = (s.lever n).position.provedEnd.isSome ∧
          (t.lever n).lastProved = (s.lever n).lastProved ∧ t.frame.supplyOn = s.frame.supplyOn ∧ t.verdictsFresh ∧
          OnlyEval s t) ∧
        (s.leverFitted n = true → nm = false → rm = false → (s.lever n).position.provedEnd = none →
          ¬((s.lever n).position = .contactFault ∧ (s.lever n).provedBeforeFault = true ∧
            (s.lever n).lastProved ≠ none) →
          (t.lever n).transitSince = s.now ∧ (t.lever n).notHome = false ∧ (t.lever n).contactActive = false ∧
          ((s.lever n).contactActive = true → t.faultOver .leverContact n) ∧
          (t.lever n).lastProved = (s.lever n).lastProved ∧ t.frame.supplyOn = s.frame.supplyOn ∧ t.verdictsFresh ∧
          OnlyEval s t) ∧
        (s.leverFitted n = false →
          (t.lever n).lastProved =
            (if nm = true ∧ rm = false then some .normal else if nm = false ∧ rm = true then some .reverse
             else (s.lever n).lastProved) ∧
          t.frame = { s.frame with levers := t.frame.levers } ∧ t.faults = s.faults ∧ OnlyEval s t))

/-- R24, R25, R36, R89: a fitted lever leaves a proved end, from that end or from a CONTACT_FAULT that began there:
neither contact is made. Unless the move is forced, the frame supply stays and its time in transit starts; a forced one
(of a lever with a lock, HELD longer than the travel time) raises LEVER_FORCED, cuts the frame supply and holds every lock. A
departure from Normal engages the lever's approach locks, and no other state of a lock changes. -/
def Obligations.LeverDepartures : Prop :=
  ∀ (s : State) (n : Nat) (k : LeverContact) (made : Bool) (e : LeverEnd), leverOk n = true → s.leverFitted n = true →
    let nm := if k = .normal then made else (s.lever n).normalMade
    let rm := if k = .reverse then made else (s.lever n).reverseMade
    ¬(nm = (s.lever n).normalMade ∧ rm = (s.lever n).reverseMade) → nm = false → rm = false →
    ((s.lever n).position = e.position ∨
      (s.lever n).position = .contactFault ∧ (s.lever n).provedBeforeFault = true ∧ (s.lever n).lastProved = some e) →
    Becomes (.leverContactChange n k made) s fun t =>
      let forced := (∃ rec, s.leverRec n = some rec ∧ rec.flags.getLsbD 0 = true) ∧ (s.lever n).command = .held ∧
        s.travelTime < s.now - (s.lever n).commandTime
      (t.lever n).position = .transit ∧ (t.lever n).transitSince = s.now ∧ (t.lever n).notHome = false ∧
      (t.lever n).lastProved = (s.lever n).lastProved ∧ (t.lever n).contactActive = false ∧
      (s.listLawful → (s.lever n).contactActive = true → t.faultOver .leverContact n) ∧ t.verdictsFresh ∧
      (¬forced →
        t.frame.supplyOn = s.frame.supplyOn ∧ (t.lever n).forcedActive = (s.lever n).forcedActive) ∧
      (forced →
        (t.lever n).forcedActive = true ∧ t.faultShown .leverForced n ∧ t.frame.supplyOn = false ∧
        t.faults.frameCut = true ∧
        ∀ m, leverOk m = true → s.hasLock m = true → (t.lever m).command = .held) ∧
      (∀ a, lockOk a = true →
        (∀ rec, s.approachRec a = some rec → rec.signal.toNat = n → e = .normal → (t.lockn a).phase = .engaged) ∧
        (¬(e = .normal ∧ ∃ rec, s.approachRec a = some rec ∧ rec.signal.toNat = n) → t.lockn a = s.lockn a)) ∧
      t.notices = s.notices ∧ OtherLevers n s t ∧ OnlyField s t

/-- R26: a fitted lever reaches the end it did not leave: the end is proved and its conditions end. R15, R26, R82, R89,
R91, R94, R138: with its lock not forced it completes its move: the set latches that the PASSAGE terms of the list of its
stroke name are notified, at Reverse its approach locks are engaged, at Normal they start their release or go free, each
asking the monitor for a set latch of its release sequence, and the section signals follow. R26, R36, R41, R152: with
its lock forced (a lock HELD longer than the travel time) LEVER_FORCED is raised and ended at once, the frame supply is cut and every lock held; at
Reverse its approach locks are engaged, at Normal they stand; nothing is consumed, and no sequence, section or circuit
learns of it. A move completed to Reverse with its section in CLEAR_OUT and the release unused uses the release; in any
other case it raises BLOCK_IRREGULAR, which freezes the section where it is unmasked, in the set or on its entry (R155), and
changes nothing else of it (R138); with the list full, the raise of another section of the same signal may displace that
entry first (R157), and the section then freezes or stands. No other lever's approach lock and no other signal's section changes. The model's own
choice (log entry 6): the notifications go in ascending order, those of the move before those of the approach locks. -/
def Obligations.Arrivals : Prop :=
  ∀ (s : State) (n : Nat) (k : LeverContact) (made : Bool) (e : LeverEnd), leverOk n = true → s.leverFitted n = true →
    let nm := if k = .normal then made else (s.lever n).normalMade
    let rm := if k = .reverse then made else (s.lever n).reverseMade
    ¬(nm = (s.lever n).normalMade ∧ rm = (s.lever n).reverseMade) → nm = decide (e = .normal) →
    rm = decide (e = .reverse) → (s.lever n).lastProved = some e.other →
    let forced := (∃ rec, s.leverRec n = some rec ∧ rec.flags.getLsbD 0 = true) ∧ (s.lever n).command = .held ∧
      s.travelTime < s.now - (s.lever n).commandTime
    let consumes (q : Nat) := sequenceOk q = true ∧ (∃ qrec, s.seqRec q = some qrec) ∧ (s.seqn q).latch = true ∧
      ∃ rec, s.leverRec n = some rec ∧
        ∃ x ∈ (if e = .reverse then rec.reverseList else rec.normalList), x.mainKind = 7 ∧ x.mainOperand.toNat = q ∧
          (x.whenKind = absent ∨ s.codeHolds x.whenKind x.whenOperand = true)
    (∀ q, q ∈ s.consumedBy n e ↔ consumes q) ∧ (s.consumedBy n e).Pairwise (· < ·) ∧
    Becomes (.leverContactChange n k made) s fun t =>
      (t.lever n).position = e.position ∧ (t.lever n).lastProved = some e ∧ (t.lever n).forcedActive = false ∧
      (t.lever n).contactActive = false ∧ (t.lever n).notHome = false ∧
      (s.listLawful → (s.lever n).contactActive = true → t.faultOver .leverContact n) ∧ t.verdictsFresh ∧
      OtherLevers n s t ∧ OnlyField s t ∧
      (¬forced →
        t.frame.supplyOn = s.frame.supplyOn ∧
        (s.listLawful → (s.lever n).forcedActive = true → t.faultOver .leverForced n) ∧
        t.notices = s.notices ++
          (s.consumedBy n e).map (fun q => { consumer := .lever n, seq := q, epoch := s.epoch }) ++
          s.askedBy (fun a rec => decide (e = .normal) && decide (rec.signal.toNat = n) &&
            (s.lockn a).phase == .engaged && ((s.track rec.track.toNat).state != .clear || rec.alwaysTime)) ∧
        (∀ a rec, s.approachRec a = some rec → lockOk a = true → rec.signal.toNat = n →
          (e = .reverse → (t.lockn a).phase = .engaged) ∧
          (e = .normal → (s.lockn a).phase = .engaged →
            let asks : Bool := (s.lockn a).releaseAsked ||
              (rec.release != absent && (s.seqn rec.release.toNat).latch)
            t.lockn a =
              (if (s.track rec.track.toNat).state = .clear ∧ rec.alwaysTime = false then
                { s.lockn a with phase := .free, remaining := none, since := s.now }
               else if rec.plunger = absent then
                { phase := .timing, remaining := some rec.hold.toNat, since := s.now, releaseAsked := asks }
               else { phase := .awaitRelease, remaining := none, since := s.now, releaseAsked := asks })) ∧
          (e = .normal → (s.lockn a).phase ≠ .engaged → t.lockn a = s.lockn a)) ∧
        t.tracks = s.tracks ∧ t.seqs = s.seqs ∧ (e = .normal → t.sections = s.sections) ∧
        ∀ x,
          ((∀ rec, s.sectionRec x = some rec → rec.signal.toNat ≠ n) → t.sectn x = s.sectn x) ∧
          ∀ rec, s.sectionRec x = some rec → rec.signal.toNat = n → e = .reverse →
            let obj := (secCode x).toNat
            let uses := (s.sectn x).state = some .clearOut ∧ (s.sectn x).releaseUsed = false
            (uses → t.sectn x = { s.sectn x with releaseUsed := true }) ∧
            let unmasked := s.faults.masked.getLsbD FaultClass.blockIrregular.number = false ∨
              ∃ f, s.faults.entryOf .blockIrregular obj = some f ∧ f.unmasked = true
            let crowded := 16 ≤ t.faults.entries.length ∧
              ∃ y yrec, y ≠ x ∧ s.sectionRec y = some yrec ∧ yrec.signal.toNat = n
            let freezes := t.sectn x = { s.sectn x with frozen := true } ∧ t.faults.frozenSet.getLsbD obj = true
            (¬uses → unmasked →
              (s.faults.masked.getLsbD FaultClass.blockIrregular.number = false ∨ ¬crowded → freezes) ∧
              (freezes ∨ t.sectn x = s.sectn x)) ∧
            (¬uses → ¬unmasked → t.sectn x = s.sectn x) ∧
            (¬uses →
              (∃ f ∈ t.faults.entries, f.cls = .blockIrregular ∧ f.object = obj ∧ f.lastRaised = s.now ∧
                f.active = false) ∨
              t.faults.overflow = true ∨ crowded)) ∧
      (∀ a, lockOk a = true → (∀ rec, s.approachRec a = some rec → rec.signal.toNat ≠ n) → t.lockn a = s.lockn a) ∧
      (forced →
        t.frame.supplyOn = false ∧ t.faults.frameCut = true ∧ t.faultOver .leverForced n ∧
        ((∃ f ∈ t.faults.entries, f.cls = .leverForced ∧ f.object = n ∧ f.unmasked = true) ∨ t.faults.overflow = true) ∧
        (∀ m, leverOk m = true → s.hasLock m = true → (t.lever m).command = .held) ∧
        (e = .reverse → ∀ a rec, s.approachRec a = some rec → lockOk a = true → rec.signal.toNat = n →
          (t.lockn a).phase = .engaged) ∧
        (e = .normal → t.locks = s.locks) ∧ t.notices = s.notices ∧ t.tracks = s.tracks ∧ t.seqs = s.seqs ∧
        t.sections = s.sections)

/-- R23: a fitted lever in TRANSIT for the transit limit is "not home" and raises LEVER_CONTACT, once for each time in
transit; nothing happens before. R20: the transit limit, given in seconds, and the lock travel time are those of the
FRAME record of the active table. R102: the timings of the bells are those of its BELL_TIMING record, and without a
table the defaults. R20, R101: a table stores a default for each of these fields that is given as 0. -/
def Obligations.TransitLimit : Prop :=
  (∀ (s : State) (n : Nat), leverOk n = true →
    let due := s.leverFitted n = true ∧ (s.lever n).position = .transit ∧ (s.lever n).notHome = false ∧
      (s.lever n).transitSince + s.transitLimit ≤ s.now
    (¬due → exec (.transitLimit n) s = .next s) ∧
    (due → Becomes (.transitLimit n) s fun t =>
      (t.lever n).notHome = true ∧ (t.lever n).contactActive = true ∧ (t.lever n).position = .transit ∧
      t.faultShown .leverContact n ∧ OtherLevers n s t ∧ t.frame.supplyOn = s.frame.supplyOn ∧ OnlyEval s t)) ∧
  (∀ (s : State) (tb : Table) (before after : List Record), s.store.active = some tb →
    (∀ f, tb.records = before ++ .frame f :: after → (∀ q ∈ before, q.isFrame = false) →
      s.transitLimit = f.transitLimit.toNat * 1000 ∧ s.travelTime = f.travelTime.toNat) ∧
    ∀ b, tb.records = before ++ .timing b :: after → (∀ q ∈ before, q.isTiming = false) → s.timing = b) ∧
  (∀ s : State, s.store.active = none →
    s.timing = { beatMinimum := 30, longPress := 600, heldPending := 800, heldRing := 1500, mergeGap := 60,
                 groupGap := 450, codeEndGap := 1800, repetition := 15, attentionLife := 30 }) ∧
  ∀ r : Record,
    let given (w d : Word16) : Word16 := if w = 0 then d else w
    r.filled =
      match r with
      | .frame f =>
        .frame { f with
          transitLimit := if f.transitLimit = 0 then 15 else f.transitLimit
          travelTime := given f.travelTime 150 }
      | .timing b =>
        .timing { beatMinimum := given b.beatMinimum 30, longPress := given b.longPress 600,
                  heldPending := given b.heldPending 800, heldRing := given b.heldRing 1500,
                  mergeGap := given b.mergeGap 60, groupGap := given b.groupGap 450,
                  codeEndGap := given b.codeEndGap 1800, repetition := given b.repetition 15,
                  attentionLife := given b.attentionLife 30 }
      | _ => r

/-- R21, R31, R32, R35: a readback accepted at a level. A level already held changes nothing, and a lever without a lock
only keeps it. Otherwise: one that comes to agree with the command closes the window; energised it ends LOCK_DRIVE,
de-energised LOCK_STUCK_FREE; one that goes wrong outside a window raises LOCK_STUCK_FREE (HELD), which cuts the frame
supply, or LOCK_DRIVE (FREE), but for that under an active LOCK_SUPPLY. Inside a window, and where LOCK_SUPPLY stands
against LOCK_DRIVE, nothing is raised, and with nothing to end nothing else changes at all. R31, R32, R35: the readback
window closes one lock travel time after it opened, and not before: with the readback in agreement (or a FREE lock under
an active LOCK_SUPPLY) nothing more happens; otherwise LOCK_DRIVE or LOCK_STUCK_FREE is raised. R34, R35: of the samples
of the lock supply the third low one in a row raises LOCK_SUPPLY, and the first good one ends it and opens a fresh
window for every lock commanded FREE whose readback is not energised; any other only counts. -/
def Obligations.Readbacks : Prop :=
  (∀ (s : State) (n : Nat) (on : Bool), leverOk n = true →
     let l := s.lever n
     let agrees := l.command = (if on then .free else .held)
     let raisesStuck := on = true ∧ l.command = .held ∧ l.window = none
     let raisesDrive := on = false ∧ l.command = .free ∧ l.window = none ∧ s.frame.lockSupply = false
     let endsDrive := on = true ∧ l.driveActive = true
     let endsStuck := on = false ∧ l.stuckActive = true
     let heard := s.updLever n fun y =>
       { y with
         readback := on
         window := if agrees then none else l.window
         driveActive := (l.driveActive && !on) || decide raisesDrive
         stuckActive := (l.stuckActive && on) || decide raisesStuck }
     (l.readback = on → exec (.lockReadbackChange n on) s = .next s) ∧
     (l.readback ≠ on → s.hasLock n = false →
       exec (.lockReadbackChange n on) s = .next (s.updLever n fun y => { y with readback := on })) ∧
     (l.readback ≠ on → s.hasLock n = true →
       (¬raisesStuck → ¬raisesDrive → ¬endsDrive → ¬endsStuck → exec (.lockReadbackChange n on) s = .next heard) ∧
       Becomes (.lockReadbackChange n on) s fun t =>
         (s.listLawful → endsDrive → t.faultOver .lockDrive n) ∧
         (s.listLawful → endsStuck → t.faultOver .lockStuckFree n) ∧
         (¬raisesStuck → OnlyFaults heard t) ∧
         (raisesDrive → t.faultShown .lockDrive n) ∧
         (raisesStuck →
           t.faultShown .lockStuckFree n ∧ t.frame.supplyOn = false ∧ t.faults.frameCut = true ∧
           (t.lever n).readback = true ∧ (t.lever n).position = l.position ∧ (t.lever n).window = none ∧
           (t.lever n).driveActive = false ∧ (t.lever n).stuckActive = true ∧
           (s.frame.supplyOn = true →
             ∀ m, leverOk m = true → s.hasLock m = true → (t.lever m).command = .held) ∧
           OtherLevers n s t ∧ OnlyOrders s t))) ∧
  (∀ (s : State) (n : Nat), leverOk n = true →
     let l := s.lever n
     let due := s.hasLock n = true ∧ ∃ w, l.window = some w ∧ w + s.travelTime ≤ s.now
     (¬due → exec (.readbackWindowClose n) s = .next s) ∧
     (due → (l.command = .free ↔ l.readback = true) ∨ (l.command = .free ∧ s.frame.lockSupply = true) →
       exec (.readbackWindowClose n) s = .next (s.updLever n fun y => { y with window := none })) ∧
     (due → l.command = .free → l.readback = false → s.frame.lockSupply = false →
       Becomes (.readbackWindowClose n) s fun t =>
         t.faultShown .lockDrive n ∧
         OnlyFaults (s.updLever n fun y => { y with window := none, driveActive := true }) t) ∧
     (due → l.command = .held → l.readback = true →
       Becomes (.readbackWindowClose n) s fun t =>
         t.faultShown .lockStuckFree n ∧ t.frame.supplyOn = false ∧ t.faults.frameCut = true ∧
         (t.lever n).window = none ∧ (t.lever n).stuckActive = true ∧ (t.lever n).readback = true ∧
         (t.lever n).position = l.position ∧
         (s.frame.supplyOn = true → ∀ m, leverOk m = true → s.hasLock m = true → (t.lever m).command = .held) ∧
         OtherLevers n s t ∧ OnlyOrders s t)) ∧
  ∀ (s : State) (r : Sample),
    let t := s.supplySample r
    let others := { s.frame with lowRun := t.frame.lowRun, lockSupply := t.frame.lockSupply }
    (s.frameRec = none → t = s) ∧
    ∀ rec, s.frameRec = some rec →
      (r.toNat < rec.threshold.toNat → s.frame.lowRun ≠ 2 →
        t = { s with frame := { s.frame with lowRun := min 3 (s.frame.lowRun + 1) } }) ∧
      (r.toNat < rec.threshold.toNat → s.frame.lowRun = 2 →
        t.frame = { s.frame with lowRun := 3, lockSupply := true } ∧ t.faultShown .lockSupply 0 ∧
        OnlyFaults { s with frame := t.frame } t) ∧
      (rec.threshold.toNat ≤ r.toNat → s.frame.lockSupply = false →
        t = { s with frame := { s.frame with lowRun := 0 } }) ∧
      (rec.threshold.toNat ≤ r.toNat → s.frame.lockSupply = true →
        t.frame.lowRun = 0 ∧ t.frame.lockSupply = false ∧ t.faultOver .lockSupply 0 ∧
        (∀ n, leverOk n = true →
          let fresh := s.hasLock n = true ∧ (s.lever n).command = .free ∧ (s.lever n).readback = false
          (fresh → t.lever n = { s.lever n with window := some s.now }) ∧ (¬fresh → t.lever n = s.lever n)) ∧
        t.frame = { others with levers := t.frame.levers } ∧ OnlyEval s t)

/-! ## Channels and track circuits -/

/-- R44, R46, R47: a pass converts every enabled channel, and no other, setting its raw value and its fresh flag; a
pass reaches nothing but the owners of its channels and what they hand on. R50 to R57: each fitted circuit takes its
sample (SampleClasses, AccumulatorAndTally, CircuitTests), and is afterwards in the state that leaves or FAILED by the
order for a raise. R127, R128: each fitted section takes its sample (MeasuredPolarity). R34, R35: the lock supply is
low from the third low sample in a row to the first that is not. R44, R47: the enabled channels are taken in ascending
order, each handed its sample by what the channels before it leave: a circuit (CircuitTests), a section
(MeasuredPolarity), the lock supply (Readbacks). -/
def Obligations.ScanPass : Prop :=
  ∀ (s : State) (raw : Bank Sample 32),
    Becomes (.scanPass raw) s fun t =>
      (∀ c, c < 32 →
        Bank.at t.scanner.raw (c + 1) =
          (if s.channelEnabled c then Bank.at raw (c + 1) else Bank.at s.scanner.raw (c + 1)) ∧
        Bank.at t.scanner.fresh (c + 1) = (s.channelEnabled c || Bank.at s.scanner.fresh (c + 1))) ∧
      (∀ n rec, s.trackRec n = some rec → 1 ≤ n → n ≤ 24 →
        let y := (s.track n).sample rec (Bank.at raw n)
        t.track n = { y with state := (t.track n).state, failedMark := (t.track n).failedMark } ∧
        ((t.track n).state = y.state ∨ (t.track n).state = .failed)) ∧
      (∀ x rec, s.sectionRec x = some rec →
        let r := Bank.at raw (25 + (secCode x).toNat)
        let y := (s.sectn x).confirm (State.sampleCandidate rec (s.sectn x).measured r)
        (t.sectn x).lastRaw = r ∧ (t.sectn x).measured = y.measured ∧ (t.sectn x).candidate = y.candidate ∧
        (t.sectn x).candRun = y.candRun) ∧
      (∀ rec, s.frameRec = some rec →
        let low := decide ((Bank.at raw 29).toNat < rec.threshold.toNat)
        t.frame.lowRun = (if low then min 3 (s.frame.lowRun + 1) else 0) ∧
        t.frame.lockSupply = (low && (s.frame.lockSupply || decide (s.frame.lowRun = 2)))) ∧
      (∀ c, s.channelEnabled c = true ↔
        (s.store.active = none ∧ c ≤ 28) ∨
        (s.store.active ≠ none ∧ ((c < 24 ∧ ∃ rec, s.trackRec (c + 1) = some rec) ∨
          (∃ x rec, c = 24 + (secCode x).toNat ∧ s.sectionRec x = some rec) ∨ c = 28))) ∧
      (∃ u : Nat → State, u 0 = s ∧ u 32 = t ∧ ∀ c, c < 32 →
        let v := Bank.at raw (c + 1)
        let taken : State :=
          { u c with scanner := { raw := Bank.put (u c).scanner.raw (c + 1) v
                                  fresh := Bank.put (u c).scanner.fresh (c + 1) true } }
        (s.channelEnabled c = false → u (c + 1) = u c) ∧
        (s.channelEnabled c = true → c < 24 → u (c + 1) = taken.trackSample (c + 1) v) ∧
        (∀ x, s.channelEnabled c = true → c = 24 + (secCode x).toNat → u (c + 1) = taken.sectionSample x v) ∧
        (c = 28 → u (c + 1) = taken.supplySample v)) ∧
      OnlyField { s with scanner := t.scanner } t

/-- R51: the class of a sample against P and D. -/
def Obligations.SampleClasses : Prop :=
  ∀ (pick drop : Nat) (r : Sample),
    (1020 ≤ r.toNat → classify pick drop r = .overRange) ∧
    (r.toNat < 1020 → pick ≤ r.toNat → classify pick drop r = .energised) ∧
    (r.toNat < 1020 → r.toNat < pick → r.toNat ≤ drop → classify pick drop r = .shunted) ∧
    (r.toNat < 1020 → r.toNat < pick → drop < r.toNat → classify pick drop r = .marginal) ∧
    (∀ (rec : TrackRec) (x : TrackState),
      (x.sample rec r).lastClass = some (classify rec.pick.toNat rec.drop.toNat r))

/-- R52, R53: the accumulator and the marginal tally after a sample, in every state of the circuit but at an
occupation, where the accumulator is the lesser of this and C/2 (R55). -/
def Obligations.AccumulatorAndTally : Prop :=
  ∀ (rec : TrackRec) (r : Sample) (x : TrackState),
    let c := rec.clearCount.toNat
    let k := classify rec.pick.toNat rec.drop.toNat r
    let a := match k with
      | .energised => min c (x.acc + 1)
      | .marginal => x.acc - 1
      | .shunted => x.acc - 4
      | .overRange => x.acc - 4
    ((x.sample rec r).acc = a ∨
      (x.state = .clear ∧ (x.sample rec r).state = .occupied ∧ (x.sample rec r).acc = min a (c / 2))) ∧
    (x.sample rec r).tally = (match k with
      | .marginal => min 255 (x.tally + 8)
      | .energised => x.tally - 1
      | .shunted => x.tally - 1
      | .overRange => x.tally) ∧
    (x.acc ≤ c → x.tally ≤ 255 → (x.sample rec r).acc ≤ c ∧ (x.sample rec r).tally ≤ 255)

/-- R54 to R57: the over-range run and the channel fault, the occupation with its half-recovery, the clearing, and the
degraded condition with its hysteresis; a circuit OUT_OF_USE or FAILED keeps its state. R54, R57, R61, R64: a sample
that begins TRACK_CHANNEL or TRACK_DEGRADED raises it, which where it is unmasked fails the circuit; one that ends it
hands the end; one that changes neither condition nor the state hands nothing on. R63, R142: a circuit that becomes
CLEAR re-tests a handle held at LINE CLEAR in OFFERED_IN in the sections whose clearing track it is. -/
def Obligations.CircuitTests : Prop :=
  (∀ (rec : TrackRec) (r : Sample) (x : TrackState),
    let c := rec.clearCount.toNat
    let k := classify rec.pick.toNat rec.drop.toNat r
    let a := nextAcc c k x.acc
    let y := x.sample rec r
    y.overRun = (if k = .overRange then min 3 (x.overRun + 1) else 0) ∧
    (k ≠ .overRange → y.channelFault = false) ∧
    (k = .overRange → x.overRun = 2 → y.channelFault = true) ∧
    (k = .overRange → x.overRun ≠ 2 → y.channelFault = x.channelFault) ∧
    (x.state = .clear → a + 4 ≤ c → y.state = .occupied ∧ y.acc = min a (c / 2)) ∧
    (x.state = .clear → c < a + 4 → y.state = .clear) ∧
    (x.state = .occupied → (y.state = .clear ↔ a = c)) ∧
    (x.state = .occupied → a ≠ c → y.state = .occupied) ∧
    (x.state = .outOfUse ∨ x.state = .failed → y.state = x.state) ∧
    (x.degraded = false → (y.degraded = true ↔ rec.degrade.toNat ≤ y.tally)) ∧
    (x.degraded = true → (y.degraded = false ↔ y.tally ≤ rec.degrade.toNat / 2)) ∧
    y.failedMark = x.failedMark) ∧
  ∀ (s : State) (n : Nat) (rec : TrackRec) (r : Sample), s.trackRec n = some rec → 1 ≤ n → n ≤ 24 →
    let x := s.track n
    let y := x.sample rec r
    let taken := s.updTrack n fun _ => y
    let t := s.trackSample n r
    let begins (c : FaultClass) : Prop :=
      (c = .trackChannel ∧ x.channelFault = false ∧ y.channelFault = true) ∨
      (c = .trackDegraded ∧ x.degraded = false ∧ y.degraded = true)
    (x.state = y.state → x.channelFault = y.channelFault → x.degraded = y.degraded → t = taken) ∧
    (∀ c, begins c →
      t.faultShown c n ∧
      (s.faults.masked.getLsbD c.number = false →
        t.faults.failedSet.getLsbD (n - 1) = true ∧
        (y.state = .failed ∨ (t.track n).failedMark = true) ∧
        (t.track n).state = (if y.state = .outOfUse then .outOfUse else .failed))) ∧
    (s.listLawful →
      (x.channelFault = true → y.channelFault = false → t.faultOver .trackChannel n) ∧
      (x.degraded = true → y.degraded = false → t.faultOver .trackDegraded n)) ∧
    ((∀ c, ¬begins c) → t.track n = y) ∧
    (x.state = .occupied → y.state = .clear →
      ∀ z zrec, s.sectionRec z = some zrec → zrec.clearing.toNat = n → (s.sectn z).state = some .offeredIn →
        let retests := (s.sectn z).retest = true ∧ (s.sectn z).handle = .lineClear ∧ (s.sectn z).frozen = false ∧
          s.store.part ≠ .storing ∧ taken.acceptsTrain z zrec = true
        (retests → (t.sectn z).state = some .clearIn ∧ (t.sectn z).drive = .positive) ∧
        (¬retests → t.sectn z = s.sectn z))

/-- R58 to R60, R63: a circuit taken out of use or put back, outside STORING: its state, its accumulator and its mark
(half-recovery, or back to FAILED while the supervisor's order stands), and no other circuit; refused NO_TABLE without
a table, BAD_FIELD for a circuit that is not fitted, and WRONG_STATE for one in use that is to be put in use. -/
def Obligations.TrackRequests : Prop :=
  ∀ (s : State) (b : Byte), s.receives [b] = true → s.store.part ≠ .storing →
    (s.store.active = none →
      exec (.trackOutOfUse [b]) s = .next (s.answered .trackOutOfUse .noTable []) ∧
      exec (.trackInUse [b]) s = .next (s.answered .trackInUse .noTable [])) ∧
    (s.store.active ≠ none → s.trackRec b.toNat = none →
      exec (.trackOutOfUse [b]) s = .next (s.answered .trackOutOfUse .badField []) ∧
      exec (.trackInUse [b]) s = .next (s.answered .trackInUse .badField [])) ∧
    ∀ rec, s.trackRec b.toNat = some rec → s.store.active ≠ none → 1 ≤ b.toNat → b.toNat ≤ 24 →
      (Becomes (.trackOutOfUse [b]) s fun t =>
        t.track b.toNat = { s.track b.toNat with state := .outOfUse } ∧ (∀ m, m ≠ b.toNat → t.track m = s.track m) ∧
        OnlyOrders s t ∧ t.frame.supplyOn = s.frame.supplyOn ∧
        (∀ q qrec, s.seqRec q = some qrec → sequenceOk q = true → (byte b.toNat) ∈ qrec.circuits →
          (s.track b.toNat).state ≠ .outOfUse → (t.seqn q).step = 0)) ∧
      ((s.track b.toNat).state ≠ .outOfUse →
        exec (.trackInUse [b]) s = .next (s.answered .trackInUse .wrongState [])) ∧
      ((s.track b.toNat).state = .outOfUse →
        Becomes (.trackInUse [b]) s fun t =>
          t.track b.toNat =
            (if (s.track b.toNat).failedMark = true then { s.track b.toNat with state := .failed }
             else { s.track b.toNat with state := .occupied, acc := min (s.track b.toNat).acc (rec.clearCount.toNat / 2) }) ∧
          (∀ m, m ≠ b.toNat → t.track m = s.track m) ∧ OnlyOrders s t)

/-! ## Sequences and approach locks -/

/-- R79: a sequence in progress whose step has stood for its timeout goes back to 0, its latch unchanged; nothing
happens before. R81, R82: a consumption notification taken by the monitor: it leaves the queue, it consumes the latch
if it is set, and a section or an approach lock is answered; without one in flight nothing happens. A notification of
an earlier table is taken alike, and its answer carries its own epoch (the model's own choice, log entry 5). -/
def Obligations.SequenceEvents : Prop :=
  (∀ (s : State) (q : Nat), sequenceOk q = true →
     let due := ∃ rec, s.seqRec q = some rec ∧ 1 ≤ (s.seqn q).step ∧
       ∃ t, (s.seqn q).stepTime = some t ∧ t + rec.timeout.toNat * 1000 ≤ s.now
     (¬due → exec (.stepTimeout q) s = .next s) ∧
     (due → exec (.stepTimeout q) s =
       .next (State.report .seq q 4 [2, byte (s.seqn q).step]
         (s.updSeq q fun r => { r with step := 0, stepTime := none })))) ∧
  (∀ (s : State) (c : Consumer) (q : Nat), consumerOk c = true → sequenceOk q = true →
     ((∀ m ∈ s.notices, ¬(m.consumer = c ∧ m.seq = q)) → exec (.consumptionNotification c q) s = .next s) ∧
     ∀ before m after, s.notices = before ++ m :: after → (∀ k ∈ before, ¬(k.consumer = c ∧ k.seq = q)) →
       m.consumer = c → m.seq = q →
       Becomes (.consumptionNotification c q) s fun t =>
         t.notices = before ++ after ∧
         t.answers = s.answers ++ (match c with
           | .lever _ => []
           | .block _ | .approach _ =>
             [{ consumer := c, seq := q, epoch := m.epoch, consumed := s.seqFitted q && (s.seqn q).latch }]) ∧
         (s.seqFitted q = true → t.seqn q = { s.seqn q with latch := false, unused := (s.seqn q).unused && !(s.seqn q).latch }) ∧
         (∀ p, p ≠ q → t.seqn p = s.seqn p) ∧
         OnlyEval { s with notices := t.notices, answers := t.answers, seqs := t.seqs } t)

/-- R71, R74 to R78: what a sequence that is fitted makes of an occupation of a circuit. One that it does not list
changes nothing. At step 0 the first circuit starts it, with its gate lever absent or proved Reverse. Later the next
circuit advances it while the one last reached is not CLEAR; step n with circuit 1 CLEAR completes it. Any other listed
circuit, and the next one after a gap, breaks it, and the occupation is then taken at step 0. R76: a clearing of
circuit 1 at step n completes it, and no other clearing changes anything. R80: an entry of a listed circuit into
OUT_OF_USE or FAILED breaks a sequence in progress. R63, R71: each sequence takes the hand-offs of the track unit on
its own: every sequence those of a sample that occupies or clears a circuit and begins or ends no condition, and those
of a fail order. The model's own choice (log entry 6): of the notifications that a setting leads to, those of the
approach locks come first, then those of the sections, each in ascending order. -/
def Obligations.SequenceProgress : Prop :=
  (∀ (s : State) (t q : Nat) (rec : SequenceRec), s.seqRec q = some rec → sequenceOk q = true →
     let k := (s.seqn q).step
     let u := s.occupationAtSeq t q
     let afresh : SequenceState :=
       if rec.circuitAt 1 = t ∧ (rec.gate = absent ∨ (s.lever rec.gate.toNat).position = .reverse) then
         { s.seqn q with step := 1, stepTime := some s.now }
       else { s.seqn q with step := 0, stepTime := none }
     let others := (∀ p, p ≠ q → u.seqn p = s.seqn p) ∧ ∃ l, u = { s with link := l, seqs := u.seqs }
     (rec.lists t = false → u = s) ∧
     (rec.lists t = true →
       (k = 0 → u.seqn q = (if afresh.step = 1 then afresh else s.seqn q) ∧ others) ∧
       (s.advances q t rec →
         (¬(k + 1 = rec.circuits.length ∧ (s.track (rec.circuitAt 1)).state = .clear) →
           u.seqn q = { s.seqn q with step := k + 1, stepTime := some s.now } ∧ others) ∧
         (k + 1 = rec.circuits.length → (s.track (rec.circuitAt 1)).state = .clear → s.completesSeq q u)) ∧
       (1 ≤ k → ¬s.advances q t rec → u.seqn q = afresh ∧ others))) ∧
  (∀ (s : State) (t q : Nat) (rec : SequenceRec), s.seqRec q = some rec → sequenceOk q = true →
     let k := (s.seqn q).step
     (1 ≤ k → k = rec.circuits.length → rec.circuitAt 1 = t → s.completesSeq q (s.clearingAtSeq t q)) ∧
     (¬(1 ≤ k ∧ k = rec.circuits.length ∧ rec.circuitAt 1 = t) → s.clearingAtSeq t q = s)) ∧
  (∀ (s : State) (t q : Nat) (rec : SequenceRec) (why : BreakCause), s.seqRec q = some rec → sequenceOk q = true →
     (rec.lists t = true → 1 ≤ (s.seqn q).step →
       s.entrySeq t why q =
         State.report .seq q 4 [why.code, byte (s.seqn q).step]
           (s.updSeq q fun r => { r with step := 0, stepTime := none })) ∧
     (¬(rec.lists t = true ∧ 1 ≤ (s.seqn q).step) → s.entrySeq t why q = s)) ∧
  ∀ (s : State) (t q : Nat), sequenceOk q = true → 1 ≤ t → t ≤ 24 →
    (∀ (rec : TrackRec) (r : Sample), s.trackRec t = some rec →
      let x := s.track t
      let y := x.sample rec r
      let taken := s.updTrack t fun _ => y
      y.channelFault = x.channelFault → y.degraded = x.degraded →
      (x.state = .clear → y.state = .occupied →
        (s.trackSample t r).seqn q = (taken.occupationAtSeq t q).seqn q) ∧
      (x.state = .occupied → y.state = .clear → (s.trackSample t r).seqn q = (taken.clearingAtSeq t q).seqn q) ∧
      (x.state = y.state → (s.trackSample t r).seqn q = s.seqn q)) ∧
    ((s.track t).state = .clear ∨ (s.track t).state = .occupied →
      (s.failTrack t).seqn q = (s.entrySeq t .failed q).seqn q)

/-- R8, R92: a release plunger accepted at a level: a level already held changes nothing; a press starts the hold time
of each lock that awaits that plunger, and no other lock changes its state. R94: a lock whose hold time starts so asks
the monitor for a set latch of its release sequence, once; that the notifications of several locks on one plunger go in
ascending order is the model's own choice (log entry 6). R93: each 100 ms of TIMING takes a tenth
from the remaining time, and the one that takes it to 0 frees the lock; nothing happens between. -/
def Obligations.HoldTimes : Prop :=
  (∀ (s : State) (k : Nat) (pressed : Bool), plungerOk k = true →
     (Bank.at s.plungers k = pressed → exec (.plungerChange k pressed) s = .next s) ∧
     (Bank.at s.plungers k ≠ pressed →
       Becomes (.plungerChange k pressed) s fun t =>
         (∀ j, Bank.at t.plungers j = if j = k then pressed else Bank.at s.plungers j) ∧
         (∀ a, lockOk a = true →
           (∀ rec, s.approachRec a = some rec → rec.plunger.toNat = k → (s.lockn a).phase = .awaitRelease →
             pressed = true →
             t.lockn a = { phase := .timing, remaining := some rec.hold.toNat, since := s.now,
                           releaseAsked := (s.lockn a).releaseAsked ||
                             (rec.release != absent && (s.seqn rec.release.toNat).latch) }) ∧
           (¬((∃ rec, s.approachRec a = some rec ∧ rec.plunger.toNat = k) ∧ (s.lockn a).phase = .awaitRelease ∧
               pressed = true) → t.lockn a = s.lockn a)) ∧
         t.notices = s.notices ++ s.askedBy (fun a rec =>
           pressed && decide (rec.plunger.toNat = k) && (s.lockn a).phase == .awaitRelease) ∧
         t.verdictsFresh ∧ OnlyField { s with plungers := t.plungers } t)) ∧
  (∀ (s : State) (a : Nat), lockOk a = true →
     (∀ rec, s.approachRec a = some rec → ∀ m, (s.lockn a).remaining = some m → (s.lockn a).phase = .timing →
       let due := (s.lockn a).since + 100 * (rec.hold.toNat - m + 1) ≤ s.now
       (due → 1 < m →
         exec (.approachCountdownStep a) s = .next (s.updLock a fun r => { r with remaining := some (m - 1) }) ∧
         exec (.approachExpiry a) s = .next s) ∧
       (due → m ≤ 1 →
         exec (.approachCountdownStep a) s = .next s ∧
         Becomes (.approachExpiry a) s fun t =>
           t.lockn a = { s.lockn a with phase := .free, remaining := none, since := s.now } ∧
           (∀ b, b ≠ a → t.lockn b = s.lockn b) ∧ t.verdictsFresh ∧ OnlyEval { s with locks := t.locks } t) ∧
       (¬due → exec (.approachCountdownStep a) s = .next s ∧ exec (.approachExpiry a) s = .next s)) ∧
     ((s.lockn a).phase ≠ .timing → exec (.approachCountdownStep a) s = .next s ∧ exec (.approachExpiry a) s = .next s))

/-- R95: the monitor's answer to an approach lock: a consumed latch frees a lock that still awaits its release, and is
only reported otherwise; in every case the lock may ask again. Without an answer in flight nothing happens. An answer
of an earlier table, or for a lock that is not fitted, is only taken away (the model's own choice, log entry 5). -/
def Obligations.ApproachAnswers : Prop :=
  ∀ (s : State) (a : Nat), lockOk a = true →
    ((∀ x ∈ s.answers, x.consumer ≠ .approach a) → exec (.approachConsumptionAnswer a) s = .next s) ∧
    (∀ before x after, s.answers = before ++ x :: after → (∀ y ∈ before, y.consumer ≠ .approach a) →
      x.consumer = .approach a → (x.epoch ≠ s.epoch ∨ s.approachFitted a = false) →
      exec (.approachConsumptionAnswer a) s = .next { s with answers := before ++ after }) ∧
    ∀ before x after, s.answers = before ++ x :: after → (∀ y ∈ before, y.consumer ≠ .approach a) →
      x.consumer = .approach a → x.epoch = s.epoch → s.approachFitted a = true →
      Becomes (.approachConsumptionAnswer a) s fun t =>
        t.answers = before ++ after ∧ (∀ b, b ≠ a → t.lockn b = s.lockn b) ∧
        OnlyEval { s with answers := t.answers, locks := t.locks } t ∧
        t.lockn a =
          (if x.consumed = true ∧ ((s.lockn a).phase = .awaitRelease ∨ (s.lockn a).phase = .timing) then
            { phase := .free, remaining := none, since := s.now, releaseAsked := false }
           else { s.lockn a with releaseAsked := false })

/-! ## Sections -/

/-- R127, R128: a sample out of scale gives no candidate; one in scale the candidate of its distance from 512; and the
measured polarity changes only at the third candidate in a row of one other polarity. R127 to R129, R137: a sample of a
fitted section's channel: a change of the measured polarity is taken under the section's state (IndicatorRules); then
the out-of-scale run and the scale cause follow, and while the line is driven the mismatch run and the drive cause. R142: in
OFFERED_IN a handle held at LINE CLEAR is re-tested; that it is so after those checks, so that a freeze which the sample
brings stops it, is the model's own choice (log entry 36). R148: INDICATOR_MISMATCH is raised where a cause comes to stand
and none stood, which freezes the section where it is unmasked, and ended where none stands any more. -/
def Obligations.MeasuredPolarity : Prop :=
  (∀ (rec : SectionRec) (present : Polarity) (r : Sample) (y : SectionState) (cand : Option Polarity),
    rec.offLevel.toNat < rec.onLevel.toNat →
    (r.toNat ≤ 3 ∨ 1020 ≤ r.toNat → State.sampleCandidate rec present r = none) ∧
    (3 < r.toNat → r.toNat < 1020 → State.sampleCandidate rec present r = some
      (if 512 + rec.onLevel.toNat ≤ r.toNat then .positive
       else if r.toNat + rec.onLevel.toNat ≤ 512 then .negative
       else if 512 ≤ r.toNat + rec.offLevel.toNat ∧ r.toNat ≤ 512 + rec.offLevel.toNat then .none
       else present)) ∧
    (((cand = none ∨ cand = some y.measured) → y.confirm cand = { y with candidate := none, candRun := 0 }) ∧
      (∀ p, cand = some p → p ≠ y.measured → y.candidate ≠ some p →
        y.confirm cand = { y with candidate := some p, candRun := 1 }) ∧
      (∀ p, cand = some p → p ≠ y.measured → y.candidate = some p → y.candRun < 2 →
        y.confirm cand = { y with candRun := y.candRun + 1 }) ∧
      (∀ p, cand = some p → p ≠ y.measured → y.candidate = some p → 2 ≤ y.candRun →
        y.confirm cand = { y with measured := p, candidate := none, candRun := 0 }))) ∧
  ∀ (s : State) (x : SectionId) (rec : SectionRec) (r : Sample), s.sectionRec x = some rec →
    let a := s.sectn x
    let cand := State.sampleCandidate rec a.measured r
    let confirmed := s.updSect x fun y => { y.confirm cand with lastRaw := r }
    let judged := if (confirmed.sectn x).measured = a.measured then confirmed else confirmed.takePolarity x true
    let b := judged.sectn x
    let out := r.toNat ≤ 3 ∨ 1020 ≤ r.toNat
    let t := s.sectionSample x r
    let c := t.sectn x
    let followed : Option Polarity :=
      match b.drive with
      | .positive => some .positive
      | .negative => some .negative
      | .off => none
    let enters := b.state = some .offeredIn ∧ b.retest = true ∧ b.handle = .lineClear ∧ c.frozen = false ∧
      s.store.part ≠ .storing ∧ judged.acceptsTrain x rec = true
    let obj := (secCode x).toNat
    (out → c.scaleRun = min 3 (a.scaleRun + 1) ∧ (c.scaleCause = true ↔ a.scaleCause = true ∨ 2 ≤ a.scaleRun)) ∧
    (¬out → c.scaleRun = 0 ∧ c.scaleCause = false) ∧
    (followed = none → ¬enters → c.mismatchRun = b.mismatchRun ∧ c.driveCause = b.driveCause) ∧
    (∀ p, followed = some p → ¬enters →
      (b.measured = p ∨ cand = some p → c.mismatchRun = 0 ∧ c.driveCause = false) ∧
      (b.measured ≠ p → cand ≠ some p →
        c.mismatchRun = min 3 (b.mismatchRun + 1) ∧ (c.driveCause = true ↔ b.driveCause = true ∨ 2 ≤ b.mismatchRun))) ∧
    (enters → c = { b.entered .clearIn with
      scaleRun := c.scaleRun, scaleCause := c.scaleCause, mismatchRun := c.mismatchRun, driveCause := c.driveCause }) ∧
    (¬enters → c = { b with
      frozen := c.frozen, scaleRun := c.scaleRun, scaleCause := c.scaleCause, mismatchRun := c.mismatchRun,
      driveCause := c.driveCause }) ∧
    (c.scaleCause = true ∨ c.driveCause = true → ¬(a.scaleCause = true ∨ a.driveCause = true) →
      t.faultShown .indicatorMismatch obj ∧
      (s.faults.masked.getLsbD FaultClass.indicatorMismatch.number = false →
        c.frozen = true ∧ t.faults.frozenSet.getLsbD obj = true)) ∧
    (s.listLawful → a.scaleCause = true ∨ a.driveCause = true → ¬(c.scaleCause = true ∨ c.driveCause = true) →
      t.faultOver .indicatorMismatch obj) ∧
    (∀ z, z ≠ x → t.sectn z = s.sectn z) ∧ OnlyOrders s t

/-- R137: what a measured polarity does in each state of a section that is not frozen (`changed`: it has just become
that value, and is reported): the state it enters, with what the entry sets and clears (R129, R134, R142), early clear,
and BLOCK_IRREGULAR for a train or a clear out of its turn, which freezes the section where it is unmasked and nothing
else does. Nothing else of the section changes. R144: nothing in a frozen
section or one with state none but the report. -/
def Obligations.IndicatorRules : Prop :=
  ∀ (s : State) (x : SectionId) (changed : Bool),
    let t := s.takePolarity x changed
    ((s.sectn x).frozen = true ∨ (s.sectn x).state = none → OnlyLink s t ∧ (changed = false → t = s)) ∧
    ∀ b, (s.sectn x).state = some b → (s.sectn x).frozen = false →
      let m := (s.sectn x).measured
      let out := polarityIrregular b m (s.sectn x).releaseUsed
      let moved := if polarityNext b m = b then s.sectn x else (s.sectn x).entered (polarityNext b m)
      t.sectn x = { moved with
        earlyClear :=
          if (b = .blocked ∨ b = .onLineOut) ∧ m = .positive then true
          else if b = .blocked ∧ m = .none then false else moved.earlyClear
        frozen := out && s.faults.unmaskedFor .blockIrregular (secCode x).toNat } ∧
      (out = true →
        (∃ e ∈ t.faults.entries, e.cls = .blockIrregular ∧ e.object = (secCode x).toNat) ∨ t.faults.overflow = true) ∧
      (∀ y, y ≠ x → t.sectn y = s.sectn y) ∧ OnlyOrders s t

/-- R131: a completed exchange taken for a section: one that is not fitted takes none, a frozen one and, but for
ATTENTION and OBSTRUCTION_REMOVED, one with state none only report it. R132: ATTENTION sets attention for its life.
R133: an inbound OBSTRUCTION_REMOVED clears obstruction. R131, R132, R135, R136: an OFFER or CANCEL with attention
required and clear changes nothing but the reports. Otherwise the state it finds decides, and where it acts attention
is cleared, an OFFER sets the offered class, and the section enters the state with what the entry sets and clears (R129,
R134, R142), nothing else of it changing; an inbound CANCEL in CLEAR_IN acts once, and brings BLOCKED only with the handle held at LINE BLOCKED
(R142). R136, R142, R143: an outbound OUT_OF_SECTION in ON_LINE_IN sets out sent, and a handle held at LINE BLOCKED
then asks for the latch. Every other exchange is only reported. -/
def Obligations.OffersAndCancels : Prop :=
  ∀ (s : State) (x : SectionId) (e : Exchange),
    let t := s.takeExchange x e
    let removed := e.meaning = .obstructionRemoved ∧ e.dir = .inbound
    (s.sectionFitted x = false → t = s) ∧
    (∀ y, y ≠ x → t.sectn y = s.sectn y) ∧
    ((s.sectn x).frozen = true → OnlyLink s t) ∧
    (∀ rec, s.sectionRec x = some rec → (s.sectn x).frozen = false →
      (e.meaning = .attention →
        t.sectn x = { s.sectn x with attention := some (s.now + s.timing.attentionLife.toNat * 1000) } ∧
        OnlyLink { s with sections := t.sections } t) ∧
      (removed →
        t.sectn x = { s.sectn x with obstruction := false } ∧ OnlyEval { s with sections := t.sections } t) ∧
      ((s.sectn x).state = none → e.meaning ≠ .attention → ¬removed → OnlyLink s t) ∧
      ∀ b, (s.sectn x).state = some b →
        let announced := rec.attentionRequired = false ∨ (s.sectn x).attention ≠ none
        let heldBlocked := (s.sectn x).handle = .lineBlocked ∧ (s.sectn x).retest = true ∧ s.store.part ≠ .storing
        let after : Option BlockState :=
          match e.meaning, e.dir, b with
          | .offer, .outbound, .blocked => some (if (s.sectn x).earlyClear then .clearOut else .offeredOut)
          | .offer, .inbound, .blocked => some .offeredIn
          | .cancel, .outbound, .offeredOut => some .blocked
          | .cancel, .outbound, .clearOut => some .cancellingOut
          | .cancel, .inbound, .offeredIn => some .blocked
          | _, _, _ => none
        let clearIn := e.meaning = .cancel ∧ e.dir = .inbound ∧ b = .clearIn
        let outOf := e.meaning = .outOfSection ∧ e.dir = .outbound ∧ b = .onLineIn
        (e.meaning = .offer ∨ e.meaning = .cancel → ¬announced → OnlyLink s t) ∧
        (∀ a, after = some a → announced →
          t.sectn x =
            ({ s.sectn x with
               attention := none
               offered := if e.meaning = .offer then some e.trainClass else (s.sectn x).offered } :
              SectionState).entered a ∧
          OnlyEval { s with sections := t.sections } t) ∧
        (clearIn → announced → (s.sectn x).cancelReceived = true → OnlyLink s t) ∧
        (clearIn → announced → (s.sectn x).cancelReceived = false →
          (heldBlocked →
            t.sectn x = ({ s.sectn x with attention := none } : SectionState).entered .blocked ∧
            OnlyEval { s with sections := t.sections } t) ∧
          (¬heldBlocked → t.sectn x = { s.sectn x with cancelReceived := true, attention := none } ∧
            OnlyLink { s with sections := t.sections } t)) ∧
        (outOf →
          let asks := heldBlocked ∧ (s.seqn rec.arrival.toNat).latch = true ∧ (s.sectn x).consumeAsked = false
          (asks → t.sectn x = { s.sectn x with outSent := true, consumeAsked := true } ∧
            t.notices = s.notices ++ [{ consumer := .block x, seq := rec.arrival.toNat, epoch := s.epoch }]) ∧
          (¬asks → t.sectn x = { s.sectn x with outSent := true } ∧ t.notices = s.notices) ∧
          OnlyLink { s with sections := t.sections, notices := t.notices } t) ∧
        (after = none → ¬clearIn → ¬outOf → e.meaning ≠ .attention → ¬removed → OnlyLink s t))

/-- R140: a handle contact accepted at a level: a level already held changes nothing; otherwise the handle is what its
contacts give, MOVING from now where none is made; nothing more happens for one that comes to be MOVING, and one that
comes to be UNREADABLE leaves the state, the drive and the flags, and in a fitted section with a state that is not frozen
is out of correspondence. In no case does another section, a circuit, a sequence or an approach lock change. R140, R142: a handle MOVING for 500 ms
becomes UNREADABLE, and in a fitted section with a state that is not frozen it is out of correspondence; nothing
happens before. The model's own reading of R142 (log entry 11, DEDUCED): a handle that was UNREADABLE and stays so makes
no report. -/
def Obligations.Handles : Prop :=
  (∀ (s : State) (x : SectionId) (k : HandleContact) (made : Bool),
     let bl := if k = .lineBlocked then made else (s.sectn x).blockedMade
     let cl := if k = .lineClear then made else (s.sectn x).clearMade
     let tr := if k = .trainOnLine then made else (s.sectn x).trainMade
     (bl = (s.sectn x).blockedMade → cl = (s.sectn x).clearMade → tr = (s.sectn x).trainMade →
       exec (.handleContactChange x k made) s = .next s) ∧
     (¬(bl = (s.sectn x).blockedMade ∧ cl = (s.sectn x).clearMade ∧ tr = (s.sectn x).trainMade) →
       let read : SectionState :=
         { s.sectn x with
           blockedMade := bl, clearMade := cl, trainMade := tr, retest := false, movingSince := none, handle := .unreadable }
       let held := s.sectionFitted x = true ∧ (s.sectn x).state ≠ none ∧ (s.sectn x).frozen = false ∧
         (s.sectn x).handle ≠ .unreadable
       Becomes (.handleContactChange x k made) s fun t =>
         (t.sectn x).blockedMade = bl ∧ (t.sectn x).clearMade = cl ∧ (t.sectn x).trainMade = tr ∧
         (t.sectn x).handle =
           (if bl = false ∧ cl = false ∧ tr = false then .moving
            else if bl = true ∧ cl = false ∧ tr = false then .lineBlocked
            else if bl = false ∧ cl = true ∧ tr = false then .lineClear
            else if bl = false ∧ cl = false ∧ tr = true then .trainOnLine
            else .unreadable) ∧
         (t.sectn x).movingSince = (if bl = false ∧ cl = false ∧ tr = false then some s.now else none) ∧
         ((s.sectn x).handle = .unreadable → (t.sectn x).handle = .unreadable → t.link = s.link) ∧
         ((t.sectn x).handle = .moving → t = s.updSect x fun _ => { read with handle := .moving, movingSince := some s.now }) ∧
         ((t.sectn x).handle = .unreadable →
           (held → t.sectn x = { read with outOfCorr := true }) ∧ (¬held → t.sectn x = read) ∧
           OnlyLink { s with sections := t.sections } t) ∧
         (∀ y, y ≠ x → t.sectn y = s.sectn y) ∧
         OnlyEval { s with sections := t.sections, notices := t.notices } t)) ∧
  (∀ (s : State) (x : SectionId),
     let due := (s.sectn x).handle = .moving ∧ ∃ m, (s.sectn x).movingSince = some m ∧ m + 500 ≤ s.now
     (¬due → exec (.handleMovingTimeout x) s = .next s) ∧
     (due → Becomes (.handleMovingTimeout x) s fun t =>
       (t.sectn x).handle = .unreadable ∧ (t.sectn x).movingSince = none ∧ (t.sectn x).state = (s.sectn x).state ∧
       (t.sectn x).drive = (s.sectn x).drive ∧
       (s.sectionFitted x = true → (s.sectn x).state ≠ none → (s.sectn x).frozen = false → (t.sectn x).outOfCorr = true) ∧
       (∀ y, y ≠ x → t.sectn y = s.sectn y) ∧ ∃ l, t = { s with link := l, sections := t.sections }))

/-- R141, R143, R144, R147: a handle of a fitted section reaches a position, from MOVING as a contact is made or from
UNREADABLE as one opens. Outside STORING each of the four rules that change the section acts where its test holds, an
entry into a state setting and clearing what R129, R134 and R142 say; everywhere else, and in STORING always, the state
stands, and a position that does not correspond to it is held out of correspondence (one that corresponds is in
correspondence in STORING too, log entry 11). In a frozen section nothing of it changes but the handle. Nothing else of
the section changes in any case, and no other section, circuit, sequence or approach lock does. -/
def Obligations.HandleRules : Prop :=
  ∀ (s : State) (x : SectionId) (rec : SectionRec) (k : HandleContact) (made : Bool) (pos : Handle) (b : BlockState),
    s.sectionRec x = some rec → (s.sectn x).state = some b →
    let bl := if k = .lineBlocked then made else (s.sectn x).blockedMade
    let cl := if k = .lineClear then made else (s.sectn x).clearMade
    let tr := if k = .trainOnLine then made else (s.sectn x).trainMade
    ¬(bl = (s.sectn x).blockedMade ∧ cl = (s.sectn x).clearMade ∧ tr = (s.sectn x).trainMade) →
    (bl = true ∧ cl = false ∧ tr = false ∧ pos = .lineBlocked) ∨
      (bl = false ∧ cl = true ∧ tr = false ∧ pos = .lineClear) ∨
      (bl = false ∧ cl = false ∧ tr = true ∧ pos = .trainOnLine) →
    let allowed : Prop :=
      (∃ cls, (s.sectn x).offered = some cls ∧ rec.classes.getLsbD cls = true) ∧
      (s.lever rec.home.toNat).position = .normal ∧
      (rec.clearing = absent ∨ (s.track rec.clearing.toNat).state = .clear)
    let blockBack : Prop := (s.sectn x).outSent = true ∧ (s.seqn rec.arrival.toNat).latch = true ∧
      (s.sectn x).consumeAsked = false
    Becomes (.handleContactChange x k made) s fun t =>
      let read : SectionState :=
        { s.sectn x with
          blockedMade := bl, clearMade := cl, trainMade := tr, retest := false, movingSince := none, handle := pos }
      let waits := { read with outOfCorr := true, retest := true }
      let settles := { read with outOfCorr := decide (handleFor b ≠ pos) }
      ((s.sectn x).frozen = true → t.sectn x = read ∧ t.notices = s.notices) ∧
      ((s.sectn x).frozen = false → s.store.part = .storing → t.sectn x = settles ∧ t.notices = s.notices) ∧
      ((s.sectn x).frozen = false → s.store.part ≠ .storing →
        (b = .offeredIn → pos = .lineClear → allowed → t.sectn x = read.entered .clearIn) ∧
        (b = .offeredIn → pos = .lineClear → ¬allowed → t.sectn x = waits) ∧
        (b = .clearIn → pos = .trainOnLine → t.sectn x = read.entered .onLineIn) ∧
        (b = .clearIn → pos = .lineBlocked → (s.sectn x).cancelReceived = true → t.sectn x = read.entered .blocked) ∧
        (b = .clearIn → pos = .lineBlocked → (s.sectn x).cancelReceived = false → t.sectn x = waits) ∧
        (b = .onLineIn → pos = .lineBlocked →
          (blockBack → t.sectn x = { waits with consumeAsked := true } ∧
            t.notices = s.notices ++ [{ consumer := .block x, seq := rec.arrival.toNat, epoch := s.epoch }]) ∧
          (¬blockBack → t.sectn x = waits)) ∧
        (¬(b = .offeredIn ∧ pos = .lineClear) → ¬(b = .clearIn ∧ (pos = .trainOnLine ∨ pos = .lineBlocked)) →
          ¬(b = .onLineIn ∧ pos = .lineBlocked) → t.sectn x = settles) ∧
        (¬(b = .onLineIn ∧ pos = .lineBlocked ∧ blockBack) → t.notices = s.notices)) ∧
      (∀ y, y ≠ x → t.sectn y = s.sectn y) ∧ OnlyEval { s with sections := t.sections, notices := t.notices } t

/-- R132: attention lapses at its expiry, with a report, and not before; that it does so in a frozen section as in any
other is the model's own reading against R144 (log entry 33, DEDUCED). R143: the monitor's answer to a section: a
consumed latch takes a section in ON_LINE_IN that is not frozen to BLOCKED, with what that entry sets and clears (R129,
R134, R142); in every other case only consume asked is
cleared. Without an answer in flight nothing happens. An answer of an earlier table, or for a section that is not
fitted, is only taken away (the model's own choice, log entry 5). -/
def Obligations.AttentionAndBlockAnswers : Prop :=
  (∀ (s : State) (x : SectionId),
     (((s.sectn x).attention = none ∨ ∃ d, (s.sectn x).attention = some d ∧ s.now < d) →
       exec (.attentionLapsed x) s = .next s) ∧
     ∀ d, (s.sectn x).attention = some d → d ≤ s.now →
       exec (.attentionLapsed x) s =
         .next (State.report .sec (secCode x).toNat 6 [0] (s.updSect x fun r => { r with attention := none }))) ∧
  (∀ (s : State) (x : SectionId),
     ((∀ a ∈ s.answers, a.consumer ≠ .block x) → exec (.blockConsumptionAnswer x) s = .next s) ∧
     (∀ before a after, s.answers = before ++ a :: after → (∀ y ∈ before, y.consumer ≠ .block x) →
       a.consumer = .block x → (a.epoch ≠ s.epoch ∨ s.sectionFitted x = false) →
       exec (.blockConsumptionAnswer x) s = .next { s with answers := before ++ after }) ∧
     ∀ before a after, s.answers = before ++ a :: after → (∀ y ∈ before, y.consumer ≠ .block x) →
       a.consumer = .block x → a.epoch = s.epoch → s.sectionFitted x = true →
       Becomes (.blockConsumptionAnswer x) s fun t =>
         t.answers = before ++ after ∧ (t.sectn x).consumeAsked = false ∧ (∀ y, y ≠ x → t.sectn y = s.sectn y) ∧
         (a.consumed = true → (s.sectn x).state = some .onLineIn → (s.sectn x).frozen = false →
           t.sectn x = ({ s.sectn x with consumeAsked := false } : SectionState).entered .blocked) ∧
         (¬(a.consumed = true ∧ (s.sectn x).state = some .onLineIn ∧ (s.sectn x).frozen = false) →
           t.sectn x = { s.sectn x with consumeAsked := false }) ∧
         OnlyEval { s with answers := t.answers, sections := t.sections } t)

/-! ## Bells -/

/-- R103, R106, R107: a level of the bell plunger or of the line sense: a level already held changes nothing; a press of
the input begins a piece, which joins the press of its direction within the merge gap and begins a new one after it; a
release ends the piece and the press, and moves on the last release of the code of a press that has qualified. While
the part drives the line, the sense is kept but not heard. R109: a release that ends a hold of the line moves the
deadlines of both slots later by its length, or by the part of it that follows the setting of the slot; a later piece of
a press that has reached the held pending starts a hold again; while a hold goes on, and without one, they stand. R112:
in a crossed section a piece breaks the silence, and the release of the last one begins it. -/
def Obligations.BellInputs : Prop :=
  ∀ (s : State) (x : SectionId) (on : Bool),
    ((s.bell x).plunger = on → exec (.bellPlungerChange x on) s = .next s) ∧
    ((s.bell x).sense = on → exec (.bellSenseChange x on) s = .next s) ∧
    ((s.bell x).plunger ≠ on →
      Becomes (.bellPlungerChange x on) s fun t =>
        (t.bell x).plunger = on ∧ (t.bell x).sense = (s.bell x).sense ∧ (t.bell x).inbound = (s.bell x).inbound ∧
        (t.bell x).driveSince = (s.bell x).driveSince ∧ (t.bell x).sounderUntil = (s.bell x).sounderUntil ∧
        (on = true → PieceStarts x .outbound s t) ∧ (on = false → PieceEnds x .outbound s t) ∧
        HoldMoves x s t ∧ SilenceRuns x s t ∧ OtherBells x s t ∧ OnlyBells s t) ∧
    ((s.bell x).sense ≠ on → (s.bell x).driveSince = none →
      Becomes (.bellSenseChange x on) s fun t =>
        (t.bell x).sense = on ∧ (t.bell x).plunger = (s.bell x).plunger ∧ (t.bell x).outbound = (s.bell x).outbound ∧
        (t.bell x).driveSince = none ∧ (t.bell x).sounderUntil = (s.bell x).sounderUntil ∧
        (on = true → PieceStarts x .inbound s t) ∧ (on = false → PieceEnds x .inbound s t) ∧
        HoldMoves x s t ∧ SilenceRuns x s t ∧ OtherBells x s t ∧ OnlyBells s t) ∧
    ((s.bell x).sense ≠ on → (s.bell x).driveSince ≠ none →
      exec (.bellSenseChange x on) s = .next (s.updBell x fun b => { b with sense := on }))

/-- R103 to R105: a plunger piece of the beat minimum starts the line drive or carries it on; the drive stops 60 ms
after its start and with the last such piece; a sense piece of the beat minimum strikes the sounder for 40 ms; each
once, and none before it is due. R103, R106, R109, R112: at the start of the drive a sense piece in progress ends, and at
its stop a sense still pressed begins one, as for a change of the input (BellInputs). -/
def Obligations.DrivesAndStrikes : Prop :=
  ∀ (s : State) (x : SectionId),
    let ripe (a : Assembler) : Prop :=
      ∃ p, a.piece = some p ∧ p.counted = false ∧ s.timing.beatMinimum.toNat ≤ p.release.getD s.now - p.start
    let stop := ∃ d, (s.bell x).driveSince = some d ∧ d + 60 ≤ s.now ∧
      ∀ p, (s.bell x).outbound.piece = some p → p.counted = true → p.release ≠ none
    let counted (a : Assembler) : Assembler := { a with piece := a.piece.map fun p => { p with counted := true } }
    (¬ripe (s.bell x).outbound → exec (.regenerationDriveStart x) s = .next s) ∧
    (ripe (s.bell x).outbound → (s.bell x).driveSince ≠ none →
      exec (.regenerationDriveStart x) s = .next (s.updBell x fun b => { b with outbound := counted b.outbound })) ∧
    (ripe (s.bell x).outbound → (s.bell x).driveSince = none →
      Becomes (.regenerationDriveStart x) s fun t =>
        (t.bell x).driveSince = some s.now ∧ (t.bell x).outbound = counted (s.bell x).outbound ∧
        PieceEnds x .inbound s t ∧
        ((∃ p, (s.bell x).inbound.piece = some p ∧ p.release = none) → HoldMoves x s t ∧ SilenceRuns x s t) ∧
        OtherBells x s t ∧ t = { s with bells := t.bells }) ∧
    (¬stop → exec (.driveEnd x) s = .next s) ∧
    (stop → Becomes (.driveEnd x) s fun t =>
      (t.bell x).driveSince = none ∧ (t.bell x).outbound = (s.bell x).outbound ∧
      ((s.bell x).sense = true → PieceStarts x .inbound s t ∧ HoldMoves x s t ∧ SilenceRuns x s t) ∧
      ((s.bell x).sense = false → t = s.updBell x fun b => { b with driveSince := none }) ∧
      OtherBells x s t ∧ OnlyBells s t) ∧
    (¬ripe (s.bell x).inbound → exec (.sounderStrike x) s = .next s) ∧
    (ripe (s.bell x).inbound →
      exec (.sounderStrike x) s =
        .next (s.updBell x fun b => { b with sounderUntil := some (s.now + 40), inbound := counted b.inbound })) ∧
    (∀ d, (s.bell x).sounderUntil = some d → d ≤ s.now →
      exec (.sounderOff x) s = .next (s.updBell x fun b => { b with sounderUntil := none })) ∧
    (((s.bell x).sounderUntil = none ∨ ∃ d, (s.bell x).sounderUntil = some d ∧ s.now < d) →
      exec (.sounderOff x) s = .next s)

/-- R106, R107, R109 to R112, R119: the thresholds of a press, each taken once, when the press has reached it: at the
beat minimum it qualifies, unless the section is CROSSED, into a code, which it begins with a report "code begun" (R107)
or joins, and, against a code of the other direction, on into a crossing, whose silence begins with no piece pressed; at the long press it spoils its code; at the held pending it holds the line; at the held ring it discards
its code and raises HELD_RING. -/
def Obligations.PressThresholds : Prop :=
  ∀ (s : State) (x : SectionId) (d : Direction) (p : Press),
    ((s.bell x).side d).press = some p → s.assembles x = true →
    let long := p.release.getD s.now - p.start
    let own := ((s.bell x).side d).code
    let other := ((s.bell x).side (otherDir d)).code
    (¬(p.qualified = false ∧ (s.bell x).crossed = false ∧ s.timing.beatMinimum.toNat ≤ long) →
      exec (.pressQualifies x d) s = .next s) ∧
    (p.qualified = false → (s.bell x).crossed = false → s.timing.beatMinimum.toNat ≤ long →
      Becomes (.pressQualifies x d) s fun t =>
        ((t.bell x).side d).press =
          some { p with qualified := true, gap := p.start - (own.bind (·.release)).getD p.start } ∧
        (own = none → s.link.filters.getLsbD Category.bell.number = true → s.link.queue.length < 64 →
          let begun : Report :=
            { seq := s.link.nextSeq, time := s.now, category := .bell, object := (secCode x).toNat, event := 1,
              detail := [dirCode d] }
          (s.link.queue ++ [begun]) <+: t.link.queue) ∧
        (other = none → own = none →
          ((t.bell x).side d).code = some { groups := [], malformed := false, release := p.release }) ∧
        (∀ c, own = some c → other = none →
          ((t.bell x).side d).code = some { c with release := if p.release = none then c.release else p.release }) ∧
        (other = none → ((t.bell x).side (otherDir d)) = (s.bell x).side (otherDir d) ∧ (t.bell x).crossed = false) ∧
        (other ≠ none →
          (t.bell x).crossed = true ∧ (t.bell x).outbound.code = none ∧ (t.bell x).inbound.code = none ∧
          (let pressed := ∃ e q, ((s.bell x).side e).piece = some q ∧ q.release = none
           (pressed → (t.bell x).silentSince = none) ∧ (¬pressed → (t.bell x).silentSince = some s.now)) ∧
          (s.sectionFitted x = true → t.faultShown .bellCrossed (secCode x).toNat)) ∧
        OtherBells x s t ∧ OnlyBells s t) ∧
    (¬(p.longReached = false ∧ s.timing.longPress.toNat ≤ long) → exec (.longPressReached x d) s = .next s) ∧
    (p.longReached = false → s.timing.longPress.toNat ≤ long →
      Becomes (.longPressReached x d) s fun t =>
        ((t.bell x).side d).press = some { p with longReached := true } ∧
        (((t.bell x).side d).code = if p.qualified then own.map (fun c => { c with malformed := true }) else own) ∧
        ((t.bell x).side (otherDir d)) = (s.bell x).side (otherDir d) ∧ OtherBells x s t ∧ t = { s with bells := t.bells }) ∧
    (¬(p.pendingReached = false ∧ s.timing.heldPending.toNat ≤ long) → exec (.heldPendingReached x d) s = .next s) ∧
    (p.pendingReached = false → s.timing.heldPending.toNat ≤ long →
      Becomes (.heldPendingReached x d) s fun t =>
        ((t.bell x).side d).press = some { p with pendingReached := true } ∧
        (p.release = none → (t.bell x).heldSince = some ((s.bell x).heldSince.getD s.now)) ∧
        OtherBells x s t ∧ t = { s with bells := t.bells }) ∧
    (¬(p.ringReached = false ∧ s.timing.heldRing.toNat ≤ long) → exec (.heldRing x d) s = .next s) ∧
    (p.ringReached = false → s.timing.heldRing.toNat ≤ long →
      Becomes (.heldRing x d) s fun t =>
        ((t.bell x).side d).press = some { p with ringReached := true } ∧ ((t.bell x).side d).code = none ∧
        (s.sectionFitted x = true → t.faultShown .heldRing (secCode x).toNat) ∧
        ((t.bell x).side (otherDir d)) = (s.bell x).side (otherDir d) ∧ OtherBells x s t ∧ OnlyBells s t)

/-- R106, R107, R110: a press settles when the merge gap has passed since its last release, and not before: a
qualified one shorter than the long press is one beat of its code, in the last group if its gap is less than the group
gap; a thirteenth beat of a group, a twenty-fifth of the code or a fifth group spoils the code. R110, R119: HELD_RING
of a fitted section ends when the press that has reached the held ring settles, and no other settling changes the list;
with such a press in both directions it ends with the last of the two (the model's own reading, log entry 13, DEDUCED).
Without a press that has not settled, or in a section without assemblers (R106), no event of a press
happens; without a code in progress none ends. -/
def Obligations.PressSettles : Prop :=
  (∀ (s : State) (x : SectionId) (d : Direction) (p : Press),
     ((s.bell x).side d).press = some p → s.assembles x = true →
     let due := ∃ r, p.release = some r ∧ r + s.timing.mergeGap.toNat ≤ s.now
     let long := p.release.getD s.now - p.start
     (¬due → exec (.pressSettles x d) s = .next s) ∧
     (due → Becomes (.pressSettles x d) s fun t =>
       ((t.bell x).side d).press = none ∧ ((t.bell x).side d).piece = ((s.bell x).side d).piece ∧
       (p.qualified = false ∨ s.timing.longPress.toNat ≤ long → ((t.bell x).side d).code = ((s.bell x).side d).code) ∧
       (∀ c, ((s.bell x).side d).code = some c → p.qualified = true → long < s.timing.longPress.toNat →
         (24 ≤ c.groups.sum → ((t.bell x).side d).code = some { c with malformed := true }) ∧
         (c.groups = [] → ((t.bell x).side d).code = some { c with groups := [1] }) ∧
         (∀ gs g, c.groups = gs ++ [g] → c.groups.sum < 24 →
           ((t.bell x).side d).code = some
             (if p.gap < s.timing.groupGap.toNat then
               (if 12 ≤ g then { c with malformed := true } else { c with groups := gs ++ [g + 1] })
              else if 4 ≤ c.groups.length then { c with malformed := true }
              else { c with groups := c.groups ++ [1] }))) ∧
       (let ends := p.ringReached = true ∧ s.sectionFitted x = true ∧
          ∀ o, ((s.bell x).side (otherDir d)).press = some o → o.ringReached = false
        (ends → t.faultOver .heldRing (secCode x).toNat) ∧ (¬ends → t.faults = s.faults)) ∧
       ((t.bell x).side (otherDir d)) = (s.bell x).side (otherDir d) ∧ OtherBells x s t ∧ OnlyFaults { s with bells := t.bells } t)) ∧
  (∀ (s : State) (x : SectionId) (d : Direction),
     (((s.bell x).side d).press = none ∨ s.assembles x = false →
       exec (.pressQualifies x d) s = .next s ∧ exec (.longPressReached x d) s = .next s ∧
       exec (.heldPendingReached x d) s = .next s ∧ exec (.heldRing x d) s = .next s ∧
       exec (.pressSettles x d) s = .next s) ∧
     (((s.bell x).side d).code = none → exec (.codeEnd x d) s = .next s))

/-- R114: a code is recognised as the first entry of the section's code set whose pattern is its own, unless it is
MALFORMED or there is no section record. R108, R114 to R116, R133: a code ends when the code end gap has passed since its last release with none of its
presses held: it is forgotten; unrecognised it is only reported; recognised outbound it answers an equal owed code or
is awaited; recognised inbound it answers an equal awaited code or is owed, an unequal one raising BELL_MISREPEAT, and
an OBSTRUCTION owed is an urgent receipt. R115, R116, R118: a code that answers an equal slot completes the exchange of
the slot's direction, which the block unit takes at once (OffersAndCancels); any other hands it nothing. -/
def Obligations.CodeEnds : Prop :=
  ∀ (s : State) (x : SectionId) (d : Direction) (c : Code), ((s.bell x).side d).code = some c →
    let due := (∀ p, ((s.bell x).side d).press = some p → p.qualified = true → p.release ≠ none) ∧
      ∃ r, c.release = some r ∧ r + s.timing.codeEndGap.toNat ≤ s.now
    let slot (r : CodeRec) : Slot :=
      { entry := r.entry.toNat, deadline := s.now + s.timing.repetition.toNat * 1000, setAt := s.now }
    let inSet (rec : SectionRec) (q : CodeRec) : Prop :=
      q.codeSets.getLsbD rec.codeSet.toNat = true ∧ q.groups.map (·.toNat) = c.groups
    (∀ rec before r after, s.sectionRec x = some rec → s.table = before ++ .code r :: after → c.malformed = false →
      inSet rec r → (∀ q, .code q ∈ before → ¬inSet rec q) → s.recognise x c = some r) ∧
    (c.malformed = true ∨ s.sectionRec x = none ∨
        (∀ rec q, s.sectionRec x = some rec → .code q ∈ s.table → ¬inSet rec q) → s.recognise x c = none) ∧
    (¬due → exec (.codeEnd x d) s = .next s) ∧
    (due → s.recognise x c = none →
      exec (.codeEnd x d) s =
        .next (State.report .bell (secCode x).toNat 2 (1 :: dirCode d :: (patternBytes c.groups ++ [flag c.malformed]))
          (s.updBell x fun b => b.setSide d { b.side d with code := none }))) ∧
    ∀ r, s.recognise x c = some r → due →
      Becomes (.codeEnd x d) s fun t =>
        let ended := State.report .bell (secCode x).toNat 2
          (0 :: dirCode d :: (patternBytes c.groups ++ [r.entry, r.meaning, r.trainClass]))
          (s.updBell x fun b => b.setSide d { b.side d with code := none })
        let completed (dir : Direction) (w : State) : Prop :=
          let w1 := State.report .bell (secCode x).toNat 3 [dirCode dir, r.entry, r.meaning, r.trainClass] w
          ∀ m, Meaning.ofCode r.meaning.toNat = some m →
            t = w1.takeExchange x { dir := dir, entry := r.entry.toNat, meaning := m, trainClass := r.trainClass.toNat }
        ((t.bell x).side d).code = none ∧ OtherBells x s t ∧ OnlyBells s t ∧
        (d = .outbound →
          (∀ o, (s.bell x).owed = some o → o.entry = r.entry.toNat →
            (t.bell x).owed = none ∧ (t.bell x).awaited = (s.bell x).awaited ∧
            completed .inbound (ended.updBell x fun b => { b with owed := none })) ∧
          ((∀ o, (s.bell x).owed = some o → o.entry ≠ r.entry.toNat) →
            (t.bell x).owed = none ∧ (t.bell x).awaited = some (slot r) ∧ OnlyLink { s with bells := t.bells } t)) ∧
        (d = .inbound →
          (∀ o, (s.bell x).awaited = some o → o.entry = r.entry.toNat →
            (t.bell x).awaited = none ∧ (t.bell x).owed = (s.bell x).owed ∧
            completed .outbound (ended.updBell x fun b => { b with awaited := none })) ∧
          ((∀ o, (s.bell x).awaited = some o → o.entry ≠ r.entry.toNat) →
            (t.bell x).awaited = none ∧ (t.bell x).owed = some (slot r) ∧
            (Meaning.ofCode r.meaning.toNat = some .obstruction →
              t.sections = (s.updSect x fun y => { y with obstruction := true }).sections) ∧
            (Meaning.ofCode r.meaning.toNat ≠ some .obstruction → OnlyFaults { s with bells := t.bells } t) ∧
            ((s.bell x).awaited ≠ none →
              (∃ e ∈ t.faults.entries, e.cls = .bellMisrepeat ∧ e.object = (secCode x).toNat) ∨ t.faults.overflow = true)))

/-- R112, R117, R109: a crossing clears after the code end gap of silence; an awaited code whose deadline passes while
the line is not held raises BELL_NOT_REPEATED, an owed one is only reported; nothing happens before. -/
def Obligations.BellDeadlines : Prop :=
  ∀ (s : State) (x : SectionId),
    let silent := (s.bell x).crossed = true ∧ ∃ d, (s.bell x).silentSince = some d ∧
      d + s.timing.codeEndGap.toNat ≤ s.now
    (¬silent → exec (.crossingCleared x) s = .next s) ∧
    (silent → Becomes (.crossingCleared x) s fun t =>
      t.bell x = { s.bell x with crossed := false, silentSince := none } ∧ OtherBells x s t ∧
      (s.sectionFitted x = true →
        ∀ e, t.faults.entryOf .bellCrossed (secCode x).toNat = some e → e.active = false) ∧
      OnlyFaults { s with bells := t.bells } t) ∧
    (((s.bell x).awaited = none ∨ (s.bell x).heldSince ≠ none ∨
        ∃ o, (s.bell x).awaited = some o ∧ s.now < o.deadline) → exec (.awaitedDeadline x) s = .next s) ∧
    (∀ o, (s.bell x).awaited = some o → (s.bell x).heldSince = none → o.deadline ≤ s.now →
      Becomes (.awaitedDeadline x) s fun t =>
        t.bell x = { s.bell x with awaited := none } ∧ OtherBells x s t ∧
        ((∃ e ∈ t.faults.entries, e.cls = .bellNotRepeated ∧ e.object = (secCode x).toNat) ∨ t.faults.overflow = true) ∧
        OnlyFaults { s with bells := t.bells } t) ∧
    (((s.bell x).owed = none ∨ (s.bell x).heldSince ≠ none ∨
        ∃ o, (s.bell x).owed = some o ∧ s.now < o.deadline) → exec (.owedDeadline x) s = .next s) ∧
    ∀ o, (s.bell x).owed = some o → (s.bell x).heldSince = none → o.deadline ≤ s.now →
      exec (.owedDeadline x) s =
        .next (State.report .bell (secCode x).toNat 7 [byte o.entry] (s.updBell x fun b => { b with owed := none }))

/-! ## What every step keeps -/

/-- What every reset state has: each of the invariants below. -/
def Obligations.ResetIsLawful : Prop :=
  State.reset.verdictsFresh ∧ State.reset.locksLawful ∧ State.reset.supplyLawful ∧ State.reset.registerLawful ∧
  State.reset.drivesLawful ∧ State.reset.bellsLawful ∧ State.reset.tracksBounded ∧ State.reset.clearCircuits ∧
  State.reset.stepsLawful ∧ State.reset.timingLawful ∧ State.reset.listLawful ∧ State.reset.masksLawful ∧ State.reset.linkLawful ∧
  State.reset.stagingLawful

/-- R13, R29, R30: in every state that a step reaches, the verdict of every fitted lever is the one its conditions
give, and every lock is FREE exactly where the rule allows it. -/
def Obligations.LockingIsKept : Prop :=
  ∀ s t : State, s.verdictsFresh → s.locksLawful → step s = .next t → t.verdictsFresh ∧ t.locksLawful

/-- R36, R155, R156, R164: no step leaves the frame supply on while LEVER_FORCED or LOCK_STUCK_FREE stands in the
list, and the register never differs from what the owners of its orders hold. -/
def Obligations.OrdersAreKept : Prop :=
  ∀ s t : State, s.supplyLawful → s.registerLawful → step s = .next t → t.supplyLawful ∧ t.registerLawful

/-- R129: in every state that a step reaches, each section drives its line as its state says. R107, R111: no step
brings codes in both directions of a section, a code in a crossed one, or a code beyond its bounds. -/
def Obligations.SectionsAreKept : Prop :=
  (∀ s t : State, s.drivesLawful → step s = .next t → t.drivesLawful) ∧
  (∀ s t : State, s.bellsLawful → step s = .next t → t.bellsLawful)

/-- R52, R54: every accumulator stays within 0 to C of its circuit, every tally within 0 to 255, every run within 0 to
3. R55: no fitted circuit is CLEAR with its accumulator at or below C − 4. R73, R87: the steps of sequences and the remaining times of approach locks stay within their tables and their
states. -/
def Obligations.CircuitsAndLocksAreKept : Prop :=
  (∀ s t : State, s.tracksBounded → step s = .next t → t.tracksBounded) ∧
  (∀ s t : State, s.clearCircuits → step s = .next t → t.clearCircuits) ∧
  (∀ s t : State, s.stepsLawful → s.timingLawful → step s = .next t → t.stepsLawful ∧ t.timingLawful)

/-- 8.4, R153, R154, R157, R158, R160: the fault list keeps its 16 places, one for a class and object, its counts and
its alarms, and the mask set never takes in a class that is always unmasked. R173, R174, R187, R189: the report queue
and the staging area keep their places, and FAULT and PART their filters. -/
def Obligations.ListsAreKept : Prop :=
  (∀ s t : State, s.listLawful → s.masksLawful → step s = .next t → t.listLawful ∧ t.masksLawful) ∧
  (∀ s t : State, s.linkLawful → s.stagingLawful → step s = .next t → t.linkLawful ∧ t.stagingLawful)
end

