-- ==== Sys2Proof/Laws/State.lean ====
section
/-! SUPPORT. One lemma per field per update of State (each true by rfl), and the laws of banks. -/

namespace Sys2Proof.Machine

/-! ### Banks -/

@[simp] theorem Bank.at_zero {α : Type} [Inhabited α] {n : Nat} (b : Bank α n) : Bank.at b 0 = default := rfl

theorem Bank.at_put_same {α : Type} [Inhabited α] {n : Nat} (b : Bank α n) (k : Nat) (v : α)
    (h : 1 ≤ k ∧ k ≤ n) : Bank.at (Bank.put b k v) k = v := by
  obtain ⟨j, rfl⟩ : ∃ j, k = j + 1 := ⟨k - 1, by omega⟩
  simp only [Bank.at, Bank.put]
  have hj : j < n := by omega
  simp [hj]

theorem Bank.at_put_other {α : Type} [Inhabited α] {n : Nat} (b : Bank α n) (k m : Nat) (v : α)
    (h : m ≠ k) : Bank.at (Bank.put b k v) m = Bank.at b m := by
  cases m with
  | zero => rfl
  | succ i =>
    cases k with
    | zero => rfl
    | succ j =>
      simp only [Bank.at, Bank.put]
      by_cases hi : i < n
      · simp [hi, show j ≠ i by omega]
      · simp [hi]

/-- A number outside the bank replaces nothing. -/
theorem Bank.put_outside {α : Type} {n : Nat} (b : Bank α n) (k : Nat) (v : α) (h : k = 0 ∨ n < k) :
    Bank.put b k v = b := by
  cases k with
  | zero => rfl
  | succ j =>
    have hj : n ≤ j := by omega
    simp only [Bank.put]
    ext i hi
    simp [show j ≠ i by omega]

/-- What a bank holds after a replacement, for every number. -/
theorem Bank.at_put {α : Type} [Inhabited α] {n : Nat} (b : Bank α n) (k m : Nat) (v : α) :
    Bank.at (Bank.put b k v) m = if m = k ∧ 1 ≤ k ∧ k ≤ n then v else Bank.at b m := by
  by_cases hm : m = k
  · subst hm
    by_cases hk : 1 ≤ m ∧ m ≤ n
    · rw [Bank.at_put_same b m v hk, if_pos ⟨rfl, hk⟩]
    · rw [if_neg (fun h => hk h.2), Bank.put_outside b m v (by omega)]
  · rw [Bank.at_put_other b k m v hm, if_neg (fun h => hm h.1)]

namespace State

/-! ### Fields -/

@[simp] theorem updLever_pending (n : Nat) (f : LeverState → LeverState) (s : State) : (s.updLever n f).pending = s.pending := rfl
@[simp] theorem updLever_now (n : Nat) (f : LeverState → LeverState) (s : State) : (s.updLever n f).now = s.now := rfl
@[simp] theorem updLever_epoch (n : Nat) (f : LeverState → LeverState) (s : State) : (s.updLever n f).epoch = s.epoch := rfl
@[simp] theorem updLever_plungers (n : Nat) (f : LeverState → LeverState) (s : State) : (s.updLever n f).plungers = s.plungers := rfl
@[simp] theorem updLever_resetKey (n : Nat) (f : LeverState → LeverState) (s : State) : (s.updLever n f).resetKey = s.resetKey := rfl
@[simp] theorem updLever_commissioningKey (n : Nat) (f : LeverState → LeverState) (s : State) : (s.updLever n f).commissioningKey = s.commissioningKey := rfl
@[simp] theorem updLever_scanner (n : Nat) (f : LeverState → LeverState) (s : State) : (s.updLever n f).scanner = s.scanner := rfl
@[simp] theorem updLever_tracks (n : Nat) (f : LeverState → LeverState) (s : State) : (s.updLever n f).tracks = s.tracks := rfl
@[simp] theorem updLever_seqs (n : Nat) (f : LeverState → LeverState) (s : State) : (s.updLever n f).seqs = s.seqs := rfl
@[simp] theorem updLever_notices (n : Nat) (f : LeverState → LeverState) (s : State) : (s.updLever n f).notices = s.notices := rfl
@[simp] theorem updLever_answers (n : Nat) (f : LeverState → LeverState) (s : State) : (s.updLever n f).answers = s.answers := rfl
@[simp] theorem updLever_locks (n : Nat) (f : LeverState → LeverState) (s : State) : (s.updLever n f).locks = s.locks := rfl
@[simp] theorem updLever_bells (n : Nat) (f : LeverState → LeverState) (s : State) : (s.updLever n f).bells = s.bells := rfl
@[simp] theorem updLever_sections (n : Nat) (f : LeverState → LeverState) (s : State) : (s.updLever n f).sections = s.sections := rfl
@[simp] theorem updLever_faults (n : Nat) (f : LeverState → LeverState) (s : State) : (s.updLever n f).faults = s.faults := rfl
@[simp] theorem updLever_store (n : Nat) (f : LeverState → LeverState) (s : State) : (s.updLever n f).store = s.store := rfl
@[simp] theorem updLever_link (n : Nat) (f : LeverState → LeverState) (s : State) : (s.updLever n f).link = s.link := rfl

@[simp] theorem updTrack_pending (n : Nat) (f : TrackState → TrackState) (s : State) : (s.updTrack n f).pending = s.pending := rfl
@[simp] theorem updTrack_now (n : Nat) (f : TrackState → TrackState) (s : State) : (s.updTrack n f).now = s.now := rfl
@[simp] theorem updTrack_epoch (n : Nat) (f : TrackState → TrackState) (s : State) : (s.updTrack n f).epoch = s.epoch := rfl
@[simp] theorem updTrack_plungers (n : Nat) (f : TrackState → TrackState) (s : State) : (s.updTrack n f).plungers = s.plungers := rfl
@[simp] theorem updTrack_resetKey (n : Nat) (f : TrackState → TrackState) (s : State) : (s.updTrack n f).resetKey = s.resetKey := rfl
@[simp] theorem updTrack_commissioningKey (n : Nat) (f : TrackState → TrackState) (s : State) : (s.updTrack n f).commissioningKey = s.commissioningKey := rfl
@[simp] theorem updTrack_frame (n : Nat) (f : TrackState → TrackState) (s : State) : (s.updTrack n f).frame = s.frame := rfl
@[simp] theorem updTrack_scanner (n : Nat) (f : TrackState → TrackState) (s : State) : (s.updTrack n f).scanner = s.scanner := rfl
@[simp] theorem updTrack_seqs (n : Nat) (f : TrackState → TrackState) (s : State) : (s.updTrack n f).seqs = s.seqs := rfl
@[simp] theorem updTrack_notices (n : Nat) (f : TrackState → TrackState) (s : State) : (s.updTrack n f).notices = s.notices := rfl
@[simp] theorem updTrack_answers (n : Nat) (f : TrackState → TrackState) (s : State) : (s.updTrack n f).answers = s.answers := rfl
@[simp] theorem updTrack_locks (n : Nat) (f : TrackState → TrackState) (s : State) : (s.updTrack n f).locks = s.locks := rfl
@[simp] theorem updTrack_bells (n : Nat) (f : TrackState → TrackState) (s : State) : (s.updTrack n f).bells = s.bells := rfl
@[simp] theorem updTrack_sections (n : Nat) (f : TrackState → TrackState) (s : State) : (s.updTrack n f).sections = s.sections := rfl
@[simp] theorem updTrack_faults (n : Nat) (f : TrackState → TrackState) (s : State) : (s.updTrack n f).faults = s.faults := rfl
@[simp] theorem updTrack_store (n : Nat) (f : TrackState → TrackState) (s : State) : (s.updTrack n f).store = s.store := rfl
@[simp] theorem updTrack_link (n : Nat) (f : TrackState → TrackState) (s : State) : (s.updTrack n f).link = s.link := rfl

@[simp] theorem updSeq_pending (n : Nat) (f : SequenceState → SequenceState) (s : State) : (s.updSeq n f).pending = s.pending := rfl
@[simp] theorem updSeq_now (n : Nat) (f : SequenceState → SequenceState) (s : State) : (s.updSeq n f).now = s.now := rfl
@[simp] theorem updSeq_epoch (n : Nat) (f : SequenceState → SequenceState) (s : State) : (s.updSeq n f).epoch = s.epoch := rfl
@[simp] theorem updSeq_plungers (n : Nat) (f : SequenceState → SequenceState) (s : State) : (s.updSeq n f).plungers = s.plungers := rfl
@[simp] theorem updSeq_resetKey (n : Nat) (f : SequenceState → SequenceState) (s : State) : (s.updSeq n f).resetKey = s.resetKey := rfl
@[simp] theorem updSeq_commissioningKey (n : Nat) (f : SequenceState → SequenceState) (s : State) : (s.updSeq n f).commissioningKey = s.commissioningKey := rfl
@[simp] theorem updSeq_frame (n : Nat) (f : SequenceState → SequenceState) (s : State) : (s.updSeq n f).frame = s.frame := rfl
@[simp] theorem updSeq_scanner (n : Nat) (f : SequenceState → SequenceState) (s : State) : (s.updSeq n f).scanner = s.scanner := rfl
@[simp] theorem updSeq_tracks (n : Nat) (f : SequenceState → SequenceState) (s : State) : (s.updSeq n f).tracks = s.tracks := rfl
@[simp] theorem updSeq_notices (n : Nat) (f : SequenceState → SequenceState) (s : State) : (s.updSeq n f).notices = s.notices := rfl
@[simp] theorem updSeq_answers (n : Nat) (f : SequenceState → SequenceState) (s : State) : (s.updSeq n f).answers = s.answers := rfl
@[simp] theorem updSeq_locks (n : Nat) (f : SequenceState → SequenceState) (s : State) : (s.updSeq n f).locks = s.locks := rfl
@[simp] theorem updSeq_bells (n : Nat) (f : SequenceState → SequenceState) (s : State) : (s.updSeq n f).bells = s.bells := rfl
@[simp] theorem updSeq_sections (n : Nat) (f : SequenceState → SequenceState) (s : State) : (s.updSeq n f).sections = s.sections := rfl
@[simp] theorem updSeq_faults (n : Nat) (f : SequenceState → SequenceState) (s : State) : (s.updSeq n f).faults = s.faults := rfl
@[simp] theorem updSeq_store (n : Nat) (f : SequenceState → SequenceState) (s : State) : (s.updSeq n f).store = s.store := rfl
@[simp] theorem updSeq_link (n : Nat) (f : SequenceState → SequenceState) (s : State) : (s.updSeq n f).link = s.link := rfl

@[simp] theorem updLock_pending (n : Nat) (f : ApproachState → ApproachState) (s : State) : (s.updLock n f).pending = s.pending := rfl
@[simp] theorem updLock_now (n : Nat) (f : ApproachState → ApproachState) (s : State) : (s.updLock n f).now = s.now := rfl
@[simp] theorem updLock_epoch (n : Nat) (f : ApproachState → ApproachState) (s : State) : (s.updLock n f).epoch = s.epoch := rfl
@[simp] theorem updLock_plungers (n : Nat) (f : ApproachState → ApproachState) (s : State) : (s.updLock n f).plungers = s.plungers := rfl
@[simp] theorem updLock_resetKey (n : Nat) (f : ApproachState → ApproachState) (s : State) : (s.updLock n f).resetKey = s.resetKey := rfl
@[simp] theorem updLock_commissioningKey (n : Nat) (f : ApproachState → ApproachState) (s : State) : (s.updLock n f).commissioningKey = s.commissioningKey := rfl
@[simp] theorem updLock_frame (n : Nat) (f : ApproachState → ApproachState) (s : State) : (s.updLock n f).frame = s.frame := rfl
@[simp] theorem updLock_scanner (n : Nat) (f : ApproachState → ApproachState) (s : State) : (s.updLock n f).scanner = s.scanner := rfl
@[simp] theorem updLock_tracks (n : Nat) (f : ApproachState → ApproachState) (s : State) : (s.updLock n f).tracks = s.tracks := rfl
@[simp] theorem updLock_seqs (n : Nat) (f : ApproachState → ApproachState) (s : State) : (s.updLock n f).seqs = s.seqs := rfl
@[simp] theorem updLock_notices (n : Nat) (f : ApproachState → ApproachState) (s : State) : (s.updLock n f).notices = s.notices := rfl
@[simp] theorem updLock_answers (n : Nat) (f : ApproachState → ApproachState) (s : State) : (s.updLock n f).answers = s.answers := rfl
@[simp] theorem updLock_bells (n : Nat) (f : ApproachState → ApproachState) (s : State) : (s.updLock n f).bells = s.bells := rfl
@[simp] theorem updLock_sections (n : Nat) (f : ApproachState → ApproachState) (s : State) : (s.updLock n f).sections = s.sections := rfl
@[simp] theorem updLock_faults (n : Nat) (f : ApproachState → ApproachState) (s : State) : (s.updLock n f).faults = s.faults := rfl
@[simp] theorem updLock_store (n : Nat) (f : ApproachState → ApproachState) (s : State) : (s.updLock n f).store = s.store := rfl
@[simp] theorem updLock_link (n : Nat) (f : ApproachState → ApproachState) (s : State) : (s.updLock n f).link = s.link := rfl

@[simp] theorem updBell_pending (x : SectionId) (f : BellState → BellState) (s : State) : (s.updBell x f).pending = s.pending := rfl
@[simp] theorem updBell_now (x : SectionId) (f : BellState → BellState) (s : State) : (s.updBell x f).now = s.now := rfl
@[simp] theorem updBell_epoch (x : SectionId) (f : BellState → BellState) (s : State) : (s.updBell x f).epoch = s.epoch := rfl
@[simp] theorem updBell_plungers (x : SectionId) (f : BellState → BellState) (s : State) : (s.updBell x f).plungers = s.plungers := rfl
@[simp] theorem updBell_resetKey (x : SectionId) (f : BellState → BellState) (s : State) : (s.updBell x f).resetKey = s.resetKey := rfl
@[simp] theorem updBell_commissioningKey (x : SectionId) (f : BellState → BellState) (s : State) : (s.updBell x f).commissioningKey = s.commissioningKey := rfl
@[simp] theorem updBell_frame (x : SectionId) (f : BellState → BellState) (s : State) : (s.updBell x f).frame = s.frame := rfl
@[simp] theorem updBell_scanner (x : SectionId) (f : BellState → BellState) (s : State) : (s.updBell x f).scanner = s.scanner := rfl
@[simp] theorem updBell_tracks (x : SectionId) (f : BellState → BellState) (s : State) : (s.updBell x f).tracks = s.tracks := rfl
@[simp] theorem updBell_seqs (x : SectionId) (f : BellState → BellState) (s : State) : (s.updBell x f).seqs = s.seqs := rfl
@[simp] theorem updBell_notices (x : SectionId) (f : BellState → BellState) (s : State) : (s.updBell x f).notices = s.notices := rfl
@[simp] theorem updBell_answers (x : SectionId) (f : BellState → BellState) (s : State) : (s.updBell x f).answers = s.answers := rfl
@[simp] theorem updBell_locks (x : SectionId) (f : BellState → BellState) (s : State) : (s.updBell x f).locks = s.locks := rfl
@[simp] theorem updBell_sections (x : SectionId) (f : BellState → BellState) (s : State) : (s.updBell x f).sections = s.sections := rfl
@[simp] theorem updBell_faults (x : SectionId) (f : BellState → BellState) (s : State) : (s.updBell x f).faults = s.faults := rfl
@[simp] theorem updBell_store (x : SectionId) (f : BellState → BellState) (s : State) : (s.updBell x f).store = s.store := rfl
@[simp] theorem updBell_link (x : SectionId) (f : BellState → BellState) (s : State) : (s.updBell x f).link = s.link := rfl

@[simp] theorem updSect_pending (x : SectionId) (f : SectionState → SectionState) (s : State) : (s.updSect x f).pending = s.pending := rfl
@[simp] theorem updSect_now (x : SectionId) (f : SectionState → SectionState) (s : State) : (s.updSect x f).now = s.now := rfl
@[simp] theorem updSect_epoch (x : SectionId) (f : SectionState → SectionState) (s : State) : (s.updSect x f).epoch = s.epoch := rfl
@[simp] theorem updSect_plungers (x : SectionId) (f : SectionState → SectionState) (s : State) : (s.updSect x f).plungers = s.plungers := rfl
@[simp] theorem updSect_resetKey (x : SectionId) (f : SectionState → SectionState) (s : State) : (s.updSect x f).resetKey = s.resetKey := rfl
@[simp] theorem updSect_commissioningKey (x : SectionId) (f : SectionState → SectionState) (s : State) : (s.updSect x f).commissioningKey = s.commissioningKey := rfl
@[simp] theorem updSect_frame (x : SectionId) (f : SectionState → SectionState) (s : State) : (s.updSect x f).frame = s.frame := rfl
@[simp] theorem updSect_scanner (x : SectionId) (f : SectionState → SectionState) (s : State) : (s.updSect x f).scanner = s.scanner := rfl
@[simp] theorem updSect_tracks (x : SectionId) (f : SectionState → SectionState) (s : State) : (s.updSect x f).tracks = s.tracks := rfl
@[simp] theorem updSect_seqs (x : SectionId) (f : SectionState → SectionState) (s : State) : (s.updSect x f).seqs = s.seqs := rfl
@[simp] theorem updSect_notices (x : SectionId) (f : SectionState → SectionState) (s : State) : (s.updSect x f).notices = s.notices := rfl
@[simp] theorem updSect_answers (x : SectionId) (f : SectionState → SectionState) (s : State) : (s.updSect x f).answers = s.answers := rfl
@[simp] theorem updSect_locks (x : SectionId) (f : SectionState → SectionState) (s : State) : (s.updSect x f).locks = s.locks := rfl
@[simp] theorem updSect_bells (x : SectionId) (f : SectionState → SectionState) (s : State) : (s.updSect x f).bells = s.bells := rfl
@[simp] theorem updSect_faults (x : SectionId) (f : SectionState → SectionState) (s : State) : (s.updSect x f).faults = s.faults := rfl
@[simp] theorem updSect_store (x : SectionId) (f : SectionState → SectionState) (s : State) : (s.updSect x f).store = s.store := rfl
@[simp] theorem updSect_link (x : SectionId) (f : SectionState → SectionState) (s : State) : (s.updSect x f).link = s.link := rfl

@[simp] theorem setFaults_pending (f : Supervisor) (s : State) : (s.setFaults f).pending = s.pending := rfl
@[simp] theorem setFaults_now (f : Supervisor) (s : State) : (s.setFaults f).now = s.now := rfl
@[simp] theorem setFaults_epoch (f : Supervisor) (s : State) : (s.setFaults f).epoch = s.epoch := rfl
@[simp] theorem setFaults_plungers (f : Supervisor) (s : State) : (s.setFaults f).plungers = s.plungers := rfl
@[simp] theorem setFaults_resetKey (f : Supervisor) (s : State) : (s.setFaults f).resetKey = s.resetKey := rfl
@[simp] theorem setFaults_commissioningKey (f : Supervisor) (s : State) : (s.setFaults f).commissioningKey = s.commissioningKey := rfl
@[simp] theorem setFaults_frame (f : Supervisor) (s : State) : (s.setFaults f).frame = s.frame := rfl
@[simp] theorem setFaults_scanner (f : Supervisor) (s : State) : (s.setFaults f).scanner = s.scanner := rfl
@[simp] theorem setFaults_tracks (f : Supervisor) (s : State) : (s.setFaults f).tracks = s.tracks := rfl
@[simp] theorem setFaults_seqs (f : Supervisor) (s : State) : (s.setFaults f).seqs = s.seqs := rfl
@[simp] theorem setFaults_notices (f : Supervisor) (s : State) : (s.setFaults f).notices = s.notices := rfl
@[simp] theorem setFaults_answers (f : Supervisor) (s : State) : (s.setFaults f).answers = s.answers := rfl
@[simp] theorem setFaults_locks (f : Supervisor) (s : State) : (s.setFaults f).locks = s.locks := rfl
@[simp] theorem setFaults_bells (f : Supervisor) (s : State) : (s.setFaults f).bells = s.bells := rfl
@[simp] theorem setFaults_sections (f : Supervisor) (s : State) : (s.setFaults f).sections = s.sections := rfl
@[simp] theorem setFaults_store (f : Supervisor) (s : State) : (s.setFaults f).store = s.store := rfl
@[simp] theorem setFaults_link (f : Supervisor) (s : State) : (s.setFaults f).link = s.link := rfl

@[simp] theorem setStore_pending (f : TableStore) (s : State) : (s.setStore f).pending = s.pending := rfl
@[simp] theorem setStore_now (f : TableStore) (s : State) : (s.setStore f).now = s.now := rfl
@[simp] theorem setStore_epoch (f : TableStore) (s : State) : (s.setStore f).epoch = s.epoch := rfl
@[simp] theorem setStore_plungers (f : TableStore) (s : State) : (s.setStore f).plungers = s.plungers := rfl
@[simp] theorem setStore_resetKey (f : TableStore) (s : State) : (s.setStore f).resetKey = s.resetKey := rfl
@[simp] theorem setStore_commissioningKey (f : TableStore) (s : State) : (s.setStore f).commissioningKey = s.commissioningKey := rfl
@[simp] theorem setStore_frame (f : TableStore) (s : State) : (s.setStore f).frame = s.frame := rfl
@[simp] theorem setStore_scanner (f : TableStore) (s : State) : (s.setStore f).scanner = s.scanner := rfl
@[simp] theorem setStore_tracks (f : TableStore) (s : State) : (s.setStore f).tracks = s.tracks := rfl
@[simp] theorem setStore_seqs (f : TableStore) (s : State) : (s.setStore f).seqs = s.seqs := rfl
@[simp] theorem setStore_notices (f : TableStore) (s : State) : (s.setStore f).notices = s.notices := rfl
@[simp] theorem setStore_answers (f : TableStore) (s : State) : (s.setStore f).answers = s.answers := rfl
@[simp] theorem setStore_locks (f : TableStore) (s : State) : (s.setStore f).locks = s.locks := rfl
@[simp] theorem setStore_bells (f : TableStore) (s : State) : (s.setStore f).bells = s.bells := rfl
@[simp] theorem setStore_sections (f : TableStore) (s : State) : (s.setStore f).sections = s.sections := rfl
@[simp] theorem setStore_faults (f : TableStore) (s : State) : (s.setStore f).faults = s.faults := rfl
@[simp] theorem setStore_link (f : TableStore) (s : State) : (s.setStore f).link = s.link := rfl

@[simp] theorem setLink_pending (f : LinkUnit) (s : State) : (s.setLink f).pending = s.pending := rfl
@[simp] theorem setLink_now (f : LinkUnit) (s : State) : (s.setLink f).now = s.now := rfl
@[simp] theorem setLink_epoch (f : LinkUnit) (s : State) : (s.setLink f).epoch = s.epoch := rfl
@[simp] theorem setLink_plungers (f : LinkUnit) (s : State) : (s.setLink f).plungers = s.plungers := rfl
@[simp] theorem setLink_resetKey (f : LinkUnit) (s : State) : (s.setLink f).resetKey = s.resetKey := rfl
@[simp] theorem setLink_commissioningKey (f : LinkUnit) (s : State) : (s.setLink f).commissioningKey = s.commissioningKey := rfl
@[simp] theorem setLink_frame (f : LinkUnit) (s : State) : (s.setLink f).frame = s.frame := rfl
@[simp] theorem setLink_scanner (f : LinkUnit) (s : State) : (s.setLink f).scanner = s.scanner := rfl
@[simp] theorem setLink_tracks (f : LinkUnit) (s : State) : (s.setLink f).tracks = s.tracks := rfl
@[simp] theorem setLink_seqs (f : LinkUnit) (s : State) : (s.setLink f).seqs = s.seqs := rfl
@[simp] theorem setLink_notices (f : LinkUnit) (s : State) : (s.setLink f).notices = s.notices := rfl
@[simp] theorem setLink_answers (f : LinkUnit) (s : State) : (s.setLink f).answers = s.answers := rfl
@[simp] theorem setLink_locks (f : LinkUnit) (s : State) : (s.setLink f).locks = s.locks := rfl
@[simp] theorem setLink_bells (f : LinkUnit) (s : State) : (s.setLink f).bells = s.bells := rfl
@[simp] theorem setLink_sections (f : LinkUnit) (s : State) : (s.setLink f).sections = s.sections := rfl
@[simp] theorem setLink_faults (f : LinkUnit) (s : State) : (s.setLink f).faults = s.faults := rfl
@[simp] theorem setLink_store (f : LinkUnit) (s : State) : (s.setLink f).store = s.store := rfl

@[simp] theorem setFaults_faults (f : Supervisor) (s : State) : (s.setFaults f).faults = f := rfl
@[simp] theorem setStore_store (f : TableStore) (s : State) : (s.setStore f).store = f := rfl
@[simp] theorem setLink_link (f : LinkUnit) (s : State) : (s.setLink f).link = f := rfl
@[simp] theorem updLever_supplyOn (n : Nat) (f : LeverState → LeverState) (s : State) :
    (s.updLever n f).frame.supplyOn = s.frame.supplyOn := rfl
@[simp] theorem updLever_lowRun (n : Nat) (f : LeverState → LeverState) (s : State) :
    (s.updLever n f).frame.lowRun = s.frame.lowRun := rfl
@[simp] theorem updLever_lockSupply (n : Nat) (f : LeverState → LeverState) (s : State) :
    (s.updLever n f).frame.lockSupply = s.frame.lockSupply := rfl

/-! ### Records -/

theorem lever_updLever (n m : Nat) (f : LeverState → LeverState) (s : State) :
    (s.updLever n f).lever m = if m = n ∧ 1 ≤ n ∧ n ≤ 48 then f (s.lever n) else s.lever m :=
  Bank.at_put _ _ _ _

theorem track_updTrack (n m : Nat) (f : TrackState → TrackState) (s : State) :
    (s.updTrack n f).track m = if m = n ∧ 1 ≤ n ∧ n ≤ 24 then f (s.track n) else s.track m :=
  Bank.at_put _ _ _ _

theorem seqn_updSeq (n m : Nat) (f : SequenceState → SequenceState) (s : State) :
    (s.updSeq n f).seqn m = if m = n ∧ 1 ≤ n ∧ n ≤ 16 then f (s.seqn n) else s.seqn m :=
  Bank.at_put _ _ _ _

theorem lockn_updLock (n m : Nat) (f : ApproachState → ApproachState) (s : State) :
    (s.updLock n f).lockn m = if m = n ∧ 1 ≤ n ∧ n ≤ 16 then f (s.lockn n) else s.lockn m :=
  Bank.at_put _ _ _ _

theorem bell_updBell (x y : SectionId) (f : BellState → BellState) (s : State) :
    (s.updBell x f).bell y = if y = x then f (s.bell x) else s.bell y := by
  refine (Bank.at_put _ _ _ _).trans ?_
  cases x <;> cases y <;> rfl

theorem sectn_updSect (x y : SectionId) (f : SectionState → SectionState) (s : State) :
    (s.updSect x f).sectn y = if y = x then f (s.sectn x) else s.sectn y := by
  refine (Bank.at_put _ _ _ _).trans ?_
  cases x <;> cases y <;> rfl

@[simp] theorem bell_updBell_same (x : SectionId) (f : BellState → BellState) (s : State) :
    (s.updBell x f).bell x = f (s.bell x) := by rw [bell_updBell, if_pos rfl]

@[simp] theorem sectn_updSect_same (x : SectionId) (f : SectionState → SectionState) (s : State) :
    (s.updSect x f).sectn x = f (s.sectn x) := by rw [sectn_updSect, if_pos rfl]

end State

end Sys2Proof.Machine
end

