-- ==== Sys2Proof/Laws/Footprint.lean ====
section
/-! SUPPORT. What each shared operation may touch, said once: the records it can change, all others kept. -/

namespace Sys2Proof.Machine

theorem OnlyLink.refl (s : State) : OnlyLink s s := ⟨s.link, rfl⟩
theorem OnlyFaults.refl (s : State) : OnlyFaults s s := ⟨s.link, s.faults, rfl⟩
theorem OnlyEval.refl (s : State) : OnlyEval s s := ⟨s.link, s.faults, s.frame, rfl⟩
theorem OnlyOrders.refl (s : State) : OnlyOrders s s :=
  ⟨s.link, s.faults, s.frame, s.tracks, s.seqs, s.sections, rfl⟩
theorem OnlyField.refl (s : State) : OnlyField s s :=
  ⟨s.link, s.faults, s.frame, s.tracks, s.seqs, s.sections, s.locks, s.notices, rfl⟩

theorem OnlyLink.trans {s t u : State} (h : OnlyLink s t) (g : OnlyLink t u) : OnlyLink s u := by
  obtain ⟨l, rfl⟩ := h; obtain ⟨l', rfl⟩ := g; exact ⟨l', rfl⟩

theorem OnlyFaults.trans {s t u : State} (h : OnlyFaults s t) (g : OnlyFaults t u) : OnlyFaults s u := by
  obtain ⟨l, f, rfl⟩ := h; obtain ⟨l', f', rfl⟩ := g; exact ⟨l', f', rfl⟩

theorem OnlyEval.trans {s t u : State} (h : OnlyEval s t) (g : OnlyEval t u) : OnlyEval s u := by
  obtain ⟨_, _, _, rfl⟩ := h; obtain ⟨l, f, fr, rfl⟩ := g; exact ⟨l, f, fr, rfl⟩

theorem OnlyOrders.trans {s t u : State} (h : OnlyOrders s t) (g : OnlyOrders t u) : OnlyOrders s u := by
  obtain ⟨_, _, _, _, _, _, rfl⟩ := h; obtain ⟨l, f, fr, tr, sq, se, rfl⟩ := g; exact ⟨l, f, fr, tr, sq, se, rfl⟩

theorem OnlyField.trans {s t u : State} (h : OnlyField s t) (g : OnlyField t u) : OnlyField s u := by
  obtain ⟨_, _, _, _, _, _, _, _, rfl⟩ := h
  obtain ⟨l, f, fr, tr, sq, se, lo, no, rfl⟩ := g
  exact ⟨l, f, fr, tr, sq, se, lo, no, rfl⟩

theorem OnlyLink.faults {s t : State} (h : OnlyLink s t) : OnlyFaults s t := by
  obtain ⟨l, rfl⟩ := h; exact ⟨l, s.faults, rfl⟩

theorem OnlyFaults.eval {s t : State} (h : OnlyFaults s t) : OnlyEval s t := by
  obtain ⟨l, f, rfl⟩ := h; exact ⟨l, f, s.frame, rfl⟩

theorem OnlyEval.orders {s t : State} (h : OnlyEval s t) : OnlyOrders s t := by
  obtain ⟨l, f, fr, rfl⟩ := h; exact ⟨l, f, fr, s.tracks, s.seqs, s.sections, rfl⟩

theorem OnlyOrders.field {s t : State} (h : OnlyOrders s t) : OnlyField s t := by
  obtain ⟨l, f, fr, tr, sq, se, rfl⟩ := h; exact ⟨l, f, fr, tr, sq, se, s.locks, s.notices, rfl⟩

theorem OnlyEval.field {s t : State} (h : OnlyEval s t) : OnlyField s t := h.orders.field
theorem OnlyLink.eval {s t : State} (h : OnlyLink s t) : OnlyEval s t := h.faults.eval
theorem OnlyLink.orders {s t : State} (h : OnlyLink s t) : OnlyOrders s t := h.eval.orders
theorem OnlyLink.field {s t : State} (h : OnlyLink s t) : OnlyField s t := h.orders.field
theorem OnlyFaults.field {s t : State} (h : OnlyFaults s t) : OnlyField s t := h.eval.field

/-- A fold keeps a relation that each of its steps keeps. -/
theorem forEach_keeps {α : Type} {R : State → State → Prop} (refl : ∀ s, R s s)
    (trans : ∀ {s t u}, R s t → R t u → R s u) {f : α → State → State} (h : ∀ x s, R s (f x s)) (xs : List α) :
    ∀ s, R s (forEach xs f s) := by
  induction xs with
  | nil => exact fun s => refl s
  | cons x xs ih => exact fun s => trans (h x s) (ih (f x s))

/-- A fold keeps a property that each of its steps keeps. -/
theorem forEach_inv {α : Type} {P : State → Prop} {f : α → State → State} (h : ∀ x s, P s → P (f x s))
    (xs : List α) : ∀ s, P s → P (forEach xs f s) := by
  induction xs with
  | nil => exact fun s hs => hs
  | cons x xs ih => exact fun s hs => ih (f x s) (h x s hs)

@[simp] theorem forEach_nil {α : Type} (f : α → State → State) (s : State) : forEach [] f s = s := rfl

@[simp] theorem forEach_cons {α : Type} (x : α) (xs : List α) (f : α → State → State) (s : State) :
    forEach (x :: xs) f s = forEach xs f (f x s) := rfl

namespace State

/-! ### Reports, replies, the fault list -/

theorem report_only (c : Category) (o e : Nat) (d : List Byte) (s : State) : OnlyLink s (s.report c o e d) := by
  unfold report; split
  · dsimp only; split <;> exact ⟨_, rfl⟩
  · exact OnlyLink.refl s

theorem reply_only (k : Byte) (o : ReplyOutcome) (d : List Byte) (s : State) : OnlyLink s (s.reply k o d) := ⟨_, rfl⟩
theorem refuse_only (k : Byte) (o : ReplyOutcome) (s : State) : OnlyLink s (s.refuse k o) := ⟨_, rfl⟩
theorem accept_only (k : Byte) (d : List Byte) (s : State) : OnlyLink s (s.accept k d) := ⟨_, rfl⟩

theorem setEntries_only (es : List FaultEntry) (s : State) : OnlyFaults s (s.setEntries es) := ⟨s.link, _, rfl⟩
theorem setOverflow_only (b : Bool) (s : State) : OnlyFaults s (s.setOverflow b) := ⟨s.link, _, rfl⟩
theorem setFaults_only (f : Supervisor) (s : State) : OnlyFaults s (s.setFaults f) := ⟨s.link, f, rfl⟩

theorem enterNew_only (c : FaultClass) (o : Nat) (u m : Bool) (s : State) : OnlyFaults s (s.enterNew c o u m) := by
  have made : ∀ t : State, OnlyFaults t
      (if m then t.report .fault o 5 [c.code, responseByte u, 1]
       else t.report .fault o 1 [c.code, responseByte u, orderByte c u]) := by
    intro t; split <;> exact (report_only _ _ _ _ _).faults
  unfold enterNew; dsimp only; split
  · exact (setEntries_only _ s).trans (made _)
  · split
    · refine OnlyFaults.trans ?_ (report_only _ _ _ _ _).faults
      refine OnlyFaults.trans ?_ (made _)
      split
      · exact (setEntries_only _ s).trans (setOverflow_only _ _)
      · exact setEntries_only _ s
    · exact (setOverflow_only _ s).trans (report_only _ _ _ _ _).faults

theorem enterRecurrence_only (c : FaultClass) (o : Nat) (e : FaultEntry) (u m : Bool) (s : State) :
    OnlyFaults s (s.enterRecurrence c o e u m) := by
  unfold enterRecurrence; dsimp only
  split <;> exact (setEntries_only _ s).trans (report_only _ _ _ _ _).faults

theorem soundFor_only (c : FaultClass) (u : Bool) (s : State) : OnlyFaults s (s.soundFor c u) := by
  unfold soundFor; dsimp only; split
  · refine OnlyFaults.trans ?_ (setFaults_only _ _)
    split
    · exact setOverflow_only _ s
    · exact OnlyFaults.refl s
  · split
    · exact setOverflow_only _ s
    · exact OnlyFaults.refl s

theorem enterRaise_only (c : FaultClass) (o : Nat) (m : Bool) (s : State) : OnlyFaults s (s.enterRaise c o m) := by
  unfold enterRaise; dsimp only
  split
  · exact (enterRecurrence_only _ _ _ _ _ s).trans (soundFor_only _ _ _)
  · exact (enterNew_only _ _ _ _ s).trans (soundFor_only _ _ _)

/-- R187: a report only joins the end of the queue, or is lost. -/
theorem report_appends (c : Category) (o e : Nat) (d : List Byte) (s : State) :
    s.link.queue <+: (s.report c o e d).link.queue := by
  unfold report; split
  · dsimp only; split
    · exact List.prefix_append _ _
    · exact List.prefix_rfl
  · exact List.prefix_rfl

/-- R187: what a raise reports joins the end of the queue. -/
theorem enterRaise_appends (c : FaultClass) (o : Nat) (m : Bool) (s : State) :
    s.link.queue <+: (s.enterRaise c o m).link.queue := by
  have sound : ∀ (u : Bool) (t : State), (t.soundFor c u).link = t.link := fun u t => by
    unfold soundFor setOverflow setFaults; dsimp only; split_ifs <;> rfl
  unfold enterRaise; dsimp only
  rw [sound]
  split
  · unfold enterRecurrence; dsimp only
    split <;> exact .trans (by exact List.prefix_rfl) (report_appends _ _ _ _ _)
  · unfold enterNew; dsimp only
    have made : ∀ t : State, t.link.queue <+:
        (if m then t.report .fault o 5 [c.code, responseByte (s.faults.unmaskedFor c o), 1]
         else t.report .fault o 1 [c.code, responseByte (s.faults.unmaskedFor c o),
           orderByte c (s.faults.unmaskedFor c o)]).link.queue := by
      intro t; split <;> exact report_appends _ _ _ _ _
    split
    · exact .trans (by exact List.prefix_rfl) (made _)
    · split
      · refine (List.IsPrefix.trans ?_ (made _)).trans (report_appends _ _ _ _ _)
        split <;> exact List.prefix_rfl
      · exact .trans (by exact List.prefix_rfl) (report_appends _ _ _ _ _)

theorem endFault_only (c : FaultClass) (o : Nat) (s : State) : OnlyFaults s (s.endFault c o) := by
  unfold endFault; split
  · exact OnlyFaults.refl s
  · split
    · exact (setEntries_only _ s).trans (report_only _ _ _ _ _).faults
    · exact OnlyFaults.refl s

theorem endIf_only (h : Bool) (c : FaultClass) (o : Nat) (s : State) : OnlyFaults s (s.endIf h c o) := by
  unfold endIf; split
  · exact endFault_only c o s
  · exact OnlyFaults.refl s

/-! ### The evaluator -/

theorem updLever_only (n : Nat) (f : LeverState → LeverState) (s : State) : OnlyEval s (s.updLever n f) :=
  ⟨s.link, s.faults, _, rfl⟩

theorem setCommand_only (c : LockCause) (n : Nat) (k : LockCommand) (s : State) : OnlyEval s (s.setCommand c n k) := by
  unfold setCommand; split
  · exact OnlyEval.refl s
  · exact ((updLever_only _ _ s).trans (report_only _ _ _ _ _).eval).trans (endIf_only _ _ _ _).eval

theorem refreshLever_only (c : LockCause) (n : Nat) (s : State) : OnlyEval s (s.refreshLever c n) := by
  unfold refreshLever; split
  · dsimp only; split
    · exact (updLever_only _ _ s).trans (setCommand_only _ _ _ _)
    · exact updLever_only _ _ s
  · exact OnlyEval.refl s

theorem evaluate_only (c : LockCause) (s : State) : OnlyEval s (s.evaluate c) :=
  forEach_keeps OnlyEval.refl OnlyEval.trans (fun n t => refreshLever_only c n t) _ s

/-! ### The orders -/

theorem supply_only (b : Bool) (s : State) : OnlyEval s { s with frame := { s.frame with supplyOn := b } } :=
  ⟨s.link, s.faults, _, rfl⟩

theorem cutFrame_only (s : State) : OnlyEval s s.cutFrame := by
  unfold cutFrame; split
  · exact ((supply_only _ s).trans (evaluate_only _ _)).trans (report_only _ _ _ _ _).eval
  · exact OnlyEval.refl s

theorem restoreFrame_only (s : State) : OnlyEval s s.restoreFrame :=
  ((supply_only _ s).trans (report_only _ _ _ _ _).eval).trans (evaluate_only _ _)

theorem updTrack_only (t : Nat) (f : TrackState → TrackState) (s : State) : OnlyOrders s (s.updTrack t f) :=
  ⟨s.link, s.faults, s.frame, _, s.seqs, s.sections, rfl⟩

theorem updSeq_only (q : Nat) (f : SequenceState → SequenceState) (s : State) : OnlyOrders s (s.updSeq q f) :=
  ⟨s.link, s.faults, s.frame, s.tracks, _, s.sections, rfl⟩

theorem updSect_only (x : SectionId) (f : SectionState → SectionState) (s : State) : OnlyOrders s (s.updSect x f) :=
  ⟨s.link, s.faults, s.frame, s.tracks, s.seqs, _, rfl⟩

theorem breakSequence_only (q : Nat) (w : BreakCause) (s : State) : OnlyOrders s (s.breakSequence q w) :=
  (updSeq_only _ _ s).trans (report_only _ _ _ _ _).orders

theorem entryHanded_only (t : Nat) (w : BreakCause) (s : State) : OnlyOrders s (s.entryHanded t w) := by
  refine forEach_keeps OnlyOrders.refl OnlyOrders.trans (fun q u => ?_) _ s
  unfold entrySeq; split
  · exact OnlyOrders.refl u
  · split
    · exact breakSequence_only q w u
    · exact OnlyOrders.refl u

theorem trackReport_only (t r : Nat) (a : List Byte) (b : Occupancy) (s : State) : OnlyLink s (s.trackReport t r a b) :=
  report_only _ _ _ _ _

theorem failTrack_only (t : Nat) (s : State) : OnlyOrders s (s.failTrack t) := by
  unfold failTrack; dsimp only
  have mark : ∀ f r a b, OnlyOrders s ((s.updTrack t f).trackReport t r a b) := fun f r a b =>
    (updTrack_only t f s).trans (trackReport_only _ _ _ _ _).orders
  split
  · exact OnlyOrders.refl s
  · exact mark _ _ _ _
  · exact ((mark _ _ _ _).trans (evaluate_only _ _).orders).trans (entryHanded_only _ _ _)
  · exact (mark _ _ _ _).trans (entryHanded_only _ _ _)

theorem freezeSection_only (x : SectionId) (s : State) : OnlyOrders s (s.freezeSection x) := by
  unfold freezeSection; split
  · exact OnlyOrders.refl s
  · exact ((updSect_only _ _ s).trans (report_only _ _ _ _ _).orders).trans (evaluate_only _ _).orders

theorem register_only (o : Order) (n : Nat) (s : State) : OnlyFaults s (s.register o n) := by
  cases o <;> exact setFaults_only _ s

theorem deliver_only (o : Order) (n : Nat) (s : State) : OnlyOrders s (s.deliver o n) := by
  cases o
  · exact (cutFrame_only s).orders
  · exact failTrack_only n s
  · simp only [deliver]; split
    · exact OnlyOrders.refl s
    · exact freezeSection_only _ s

/-- A raise touches the list, the frame supply, the circuit or the section of its order, and nothing else. -/
theorem raiseWith_only (m : Bool) (c : FaultClass) (o : Nat) (s : State) : OnlyOrders s (s.raiseWith m c o) := by
  unfold raiseWith; dsimp only
  split
  · exact (enterRaise_only _ _ _ s).eval.orders
  · split
    · exact ((enterRaise_only _ _ _ s).eval.orders.trans (register_only _ _ _).eval.orders).trans (deliver_only _ _ _)
    · exact (enterRaise_only _ _ _ s).eval.orders

theorem raise_only (c : FaultClass) (o : Nat) (s : State) : OnlyOrders s (s.raise c o) := raiseWith_only _ _ _ _
theorem raiseAndEnd_only (c : FaultClass) (o : Nat) (s : State) : OnlyOrders s (s.raiseAndEnd c o) :=
  raiseWith_only _ _ _ _

/-! ### Approach locks -/

theorem updLock_only (a : Nat) (f : ApproachState → ApproachState) (s : State) : OnlyField s (s.updLock a f) :=
  ⟨s.link, s.faults, s.frame, s.tracks, s.seqs, s.sections, _, s.notices, rfl⟩

theorem sendNotice_only (c : Consumer) (q : Nat) (s : State) : OnlyField s (s.sendNotice c q) :=
  ⟨s.link, s.faults, s.frame, s.tracks, s.seqs, s.sections, s.locks, _, rfl⟩

theorem approachReport_only (a r : Nat) (f : List Byte) (s : State) : OnlyLink s (s.approachReport a r f) :=
  report_only _ _ _ _ _

theorem releaseTest_only (a : Nat) (s : State) : OnlyField s (s.releaseTest a) := by
  unfold releaseTest; split
  · exact OnlyField.refl s
  · dsimp only; split
    · exact (updLock_only _ _ s).trans (sendNotice_only _ _ _)
    · exact OnlyField.refl s

theorem freeLock_only (a r : Nat) (f : List Byte) (s : State) : OnlyField s (s.freeLock a r f) :=
  ((updLock_only _ _ s).trans (approachReport_only _ _ _ _).field).trans (evaluate_only _ _).field

theorem engageLocks_only (n : Nat) (w : EngageCause) (s : State) : OnlyField s (s.engageLocks n w) := by
  refine forEach_keeps OnlyField.refl OnlyField.trans (fun a u => ?_) _ s
  unfold engageLock; split
  · exact OnlyField.refl u
  · dsimp only; split
    · have h : ∀ f d, OnlyField u ((u.updLock a f).approachReport a 1 d) := fun f d =>
        (updLock_only a f u).trans (approachReport_only _ _ _ _).field
      split
      · exact (h _ _).trans (evaluate_only _ _).field
      · exact h _ _
    · exact OnlyField.refl u

theorem replaceLocks_only (n : Nat) (s : State) : OnlyField s (s.replaceLocks n) := by
  refine forEach_keeps OnlyField.refl OnlyField.trans (fun a u => ?_) _ s
  unfold replaceLock; split
  · exact OnlyField.refl u
  · dsimp only; split
    · split
      · split
        · exact ((updLock_only _ _ u).trans (approachReport_only _ _ _ _).field).trans (releaseTest_only _ _)
        · exact ((updLock_only _ _ u).trans (approachReport_only _ _ _ _).field).trans (releaseTest_only _ _)
      · exact freeLock_only _ _ _ u
    · exact OnlyField.refl u

theorem pressLocks_only (k : Nat) (s : State) : OnlyField s (s.pressLocks k) := by
  refine forEach_keeps OnlyField.refl OnlyField.trans (fun a u => ?_) _ s
  unfold pressLock; split
  · exact OnlyField.refl u
  · split
    · exact ((updLock_only _ _ u).trans (approachReport_only _ _ _ _).field).trans (releaseTest_only _ _)
    · exact OnlyField.refl u

theorem trackAtLocks_only (t : Nat) (b : Byte) (s : State) : OnlyLink s (s.trackAtLocks t b) := by
  refine forEach_keeps OnlyLink.refl OnlyLink.trans (fun a u => ?_) _ s
  unfold trackAtLock; split
  · exact OnlyLink.refl u
  · split
    · exact approachReport_only _ _ _ _
    · exact OnlyLink.refl u

theorem settingAtLocks_only (q : Nat) (s : State) : OnlyField s (s.settingAtLocks q) := by
  refine forEach_keeps OnlyField.refl OnlyField.trans (fun a u => ?_) _ s
  unfold settingAtLock; split
  · exact OnlyField.refl u
  · split
    · exact releaseTest_only _ u
    · exact OnlyField.refl u

/-! ### Sections -/

theorem sectReport_only (x : SectionId) (r : Nat) (d : List Byte) (s : State) : OnlyLink s (s.sectReport x r d) :=
  report_only _ _ _ _ _

theorem sectReports_only (x : SectionId) (rs : List (Nat × List Byte)) :
    ∀ s : State, OnlyLink s (s.sectReports x rs) := by
  induction rs with
  | nil => exact OnlyLink.refl
  | cons r rs ih => exact fun s => (sectReport_only x r.1 r.2 s).trans (ih _)

theorem outReport_only (x : SectionId) (s : State) : OnlyLink s (s.outReport x) := report_only _ _ _ _ _

theorem backReport_only (x : SectionId) (s : State) : OnlyLink s (s.backReport x) := report_only _ _ _ _ _

theorem mismatchEdge_only (x : SectionId) (w : Bool) (s : State) : OnlyOrders s (s.mismatchEdge x w) := by
  unfold mismatchEdge; dsimp only; split
  · exact raise_only _ _ s
  · split
    · exact (endFault_only _ _ s).eval.orders
    · exact OnlyOrders.refl s

theorem irregular_only (x : SectionId) (s : State) : OnlyOrders s (s.irregular x) := raiseAndEnd_only _ _ s

theorem correspond_only (x : SectionId) (s : State) : OnlyOrders s (s.correspond x) := by
  unfold correspond; dsimp only; split
  · exact OnlyOrders.refl s
  · split
    · exact OnlyOrders.refl s
    · split
      · split
        · exact (updSect_only _ _ s).trans (backReport_only _ _).orders
        · exact OnlyOrders.refl s
      · exact (updSect_only _ _ s).trans (outReport_only _ _).orders

theorem holdHandle_only (x : SectionId) (b : Bool) (s : State) : OnlyOrders s (s.holdHandle x b) :=
  (updSect_only _ _ s).trans (outReport_only _ _).orders

theorem enterState_only (x : SectionId) (b : BlockState) (w : StateCause) (rs : List (Nat × List Byte)) (s : State) :
    OnlyOrders s (s.enterState x b w rs) := by
  unfold enterState; dsimp only
  exact (((((updSect_only _ _ s).trans (mismatchEdge_only _ _ _)).trans (sectReport_only _ _ _ _).orders).trans
    (sectReports_only _ _ _).orders).trans (correspond_only _ _)).trans (evaluate_only _ _).orders

theorem sectn_of_onlyEval {s t : State} (h : OnlyEval s t) (y : SectionId) : t.sectn y = s.sectn y := by
  obtain ⟨l, f, fr, rfl⟩ := h; rfl

/-- R142: correspondence recomputed in a section with a state, and nothing of another section. -/
theorem correspond_sectn (x y : SectionId) (b : BlockState) (s : State) (h : (s.sectn x).state = some b) :
    (s.correspond x).sectn y =
      if y = x then
        { s.sectn x with
          outOfCorr := if (s.sectn x).handle = .moving then (s.sectn x).outOfCorr
                       else decide ((s.sectn x).handle ≠ handleFor b) }
      else s.sectn y := by
  have same : ∀ {r : SectionState}, s.sectn x = r → (if y = x then r else s.sectn y) = s.sectn y := by
    rintro r rfl; split
    · subst y; rfl
    · rfl
  have put : ∀ (f : SectionState → SectionState) (t : State), OnlyEval (s.updSect x f) t →
      t.sectn y = if y = x then f (s.sectn x) else s.sectn y := fun f t g => by
    rw [sectn_of_onlyEval g, sectn_updSect]
  unfold correspond; dsimp only
  split
  · rename_i c; rw [h] at c; cases c
  rename_i b' c
  obtain rfl : b = b' := Option.some.inj (h.symm.trans c)
  split
  · rename_i m
    rw [if_pos m]
    exact (same rfl).symm
  · rename_i m
    rw [if_neg m]
    split
    · rename_i c
      have level : decide ((s.sectn x).handle ≠ handleFor b) = false := by simp [c]
      rw [level]
      split
      · rw [put _ _ (backReport_only _ _).eval]
      · rename_i o
        exact (same (by rw [← Bool.eq_false_iff.2 o])).symm
    · rename_i c
      rw [put _ _ (outReport_only _ _).eval, decide_eq_true c]

/-- R129, R134, R142: the flags and the drive of an entry, and then the correspondence, are those of
`SectionState.entered`; no cause of INDICATOR_MISMATCH begins by it. -/
theorem entered_eq (b : BlockState) (r : SectionState) :
    let v : SectionState := { (r.entering b).driven (driveOf (some b)) with state := some b, retest := false }
    { v with outOfCorr := if v.handle = .moving then v.outOfCorr else decide (v.handle ≠ handleFor b) } = r.entered b ∧
    (v.mismatch = true → r.mismatch = true) := by
  obtain ⟨⟩ := r
  rename_i drive _
  cases drive <;> cases b <;>
    simp +contextual [SectionState.entering, SectionState.driven, SectionState.entered, SectionState.mismatch, driveOf]

/-- R129, R134, R142: an entry into a state makes the record of the section what `SectionState.entered` says, and
leaves every other section. -/
theorem enterState_sectn (x y : SectionId) (b : BlockState) (w : StateCause) (rs : List (Nat × List Byte)) (s : State) :
    (s.enterState x b w rs).sectn y = if y = x then (s.sectn x).entered b else s.sectn y := by
  have level : ∀ (t : State) (d : List Byte), ((t.sectn x).mismatch = true → (s.sectn x).mismatch = true) →
      OnlyEval t (((t.mismatchEdge x (s.sectn x).mismatch).sectReport x 1 d).sectReports x rs) := fun t d g => by
    refine OnlyEval.trans ?_ ((sectReport_only x 1 d _).eval.trans (sectReports_only x rs _).eval)
    unfold mismatchEdge; dsimp only; split
    · rename_i c; simp at c; simp [c.1] at g; simp [g] at c
    · split
      · exact (endFault_only _ _ t).eval
      · exact OnlyEval.refl t
  unfold enterState; dsimp only
  rw [sectn_of_onlyEval (evaluate_only _ _)]
  set u := s.updSect x fun r => { (r.entering b).driven (driveOf (some b)) with state := some b, retest := false } with hu
  have g : (u.sectn x).mismatch = true → (s.sectn x).mismatch = true := by
    rw [hu, sectn_updSect_same]; exact (entered_eq b _).2
  rw [correspond_sectn x y b _ (by rw [sectn_of_onlyEval (level u _ g), hu, sectn_updSect_same]),
    sectn_of_onlyEval (level u _ g), sectn_of_onlyEval (level u _ g), hu, sectn_updSect, sectn_updSect, if_pos rfl]
  split
  · exact (entered_eq b _).1
  · rfl

theorem blockBackTest_only (x : SectionId) (s : State) : OnlyField s (s.blockBackTest x) := by
  unfold blockBackTest; split
  · exact OnlyField.refl s
  · dsimp only; split
    · exact (updSect_only _ _ s).field.trans (sendNotice_only _ _ _)
    · exact OnlyField.refl s

theorem setEarlyClear_only (x : SectionId) (s : State) : OnlyOrders s (s.setEarlyClear x) :=
  (updSect_only _ _ s).trans (sectReport_only _ _ _ _).orders

theorem followPolarity_only (x : SectionId) (c : Bool) (s : State) : OnlyOrders s (s.followPolarity x c) := by
  have e : ∀ b w rs, OnlyOrders s (s.enterState x b w rs) := fun b w rs => enterState_only x b w rs s
  have r : ∀ rs, OnlyOrders s (s.sectReports x rs) := fun rs => (sectReports_only x rs s).orders
  unfold followPolarity; dsimp only; split
  · exact r _
  · split
    · exact (r _).trans (setEarlyClear_only x _)
    · exact e _ _ _
    · split
      · exact ((r _).trans (updSect_only _ _ _)).trans (sectReport_only _ _ _ _).orders
      · exact r _
    · exact e _ _ _
    · exact e _ _ _
    · exact e _ _ _
    · exact e _ _ _
    · exact e _ _ _
    · exact e _ _ _
    · exact (e _ _ _).trans (updSect_only _ _ _)
    · exact e _ _ _
    · exact r _

theorem takePolarity_only (x : SectionId) (c : Bool) (s : State) : OnlyOrders s (s.takePolarity x c) := by
  unfold takePolarity; dsimp only; split
  · exact (followPolarity_only _ _ s).trans (irregular_only _ _)
  · exact followPolarity_only _ _ s

theorem retestHandle_only (x : SectionId) (o : Option Exchange) (s : State) : OnlyField s (s.retestHandle x o) := by
  have e : ∀ b w rs, OnlyField s (s.enterState x b w rs) := fun b w rs => (enterState_only x b w rs s).field
  have r : ∀ rs, OnlyField s (s.sectReports x rs) := fun rs => (sectReports_only x rs s).field
  unfold retestHandle; dsimp only; split
  · split
    · split
      · exact e _ _ _
      · exact r _
    · split
      · exact e _ _ _
      · exact r _
    · exact (r _).trans (blockBackTest_only x _)
    · exact r _
  · exact r _

theorem handleEvent_only (x : SectionId) (s : State) : OnlyField s (s.handleEvent x) := by
  have e : ∀ b w, OnlyField s (s.enterState x b w []) := fun b w => (enterState_only x b w [] s).field
  have h : ∀ b, OnlyField s (s.holdHandle x b) := fun b => (holdHandle_only x b s).field
  unfold handleEvent; dsimp only; split
  · exact OnlyField.refl s
  · split
    · exact (outReport_only _ s).field
    · split
      · exact (correspond_only x s).field
      · split
        · exact h _
        · split
          · split
            · exact e _ _
            · exact h _
          · exact e _ _
          · split
            · exact e _ _
            · exact h _
          · exact (h _).trans (blockBackTest_only _ _)
          · exact h _

theorem handleHeld_only (x : SectionId) (s : State) : OnlyField s (s.handleHeld x) := by
  unfold handleHeld; dsimp only; split
  · exact OnlyField.refl s
  · split
    · exact (outReport_only _ s).field
    · exact (holdHandle_only x _ s).field

theorem takeHandle_only (x : SectionId) (s : State) : OnlyField s (s.takeHandle x) := by
  unfold takeHandle; split
  · split
    · exact OnlyField.refl s
    · exact handleHeld_only x s
    all_goals exact handleEvent_only x s
  · exact OnlyField.refl s

theorem polarityChanged_only (x : SectionId) (s : State) : OnlyOrders s (s.polarityChanged x) :=
  takePolarity_only _ _ s

theorem scaleStage_only (x : SectionId) (b : Bool) (s : State) : OnlyOrders s (s.scaleStage x b) :=
  (updSect_only _ _ s).trans (mismatchEdge_only _ _ _)

theorem driveStage_only (x : SectionId) (c : Option Polarity) (s : State) : OnlyOrders s (s.driveStage x c) := by
  unfold driveStage; dsimp only; split
  · exact OnlyOrders.refl s
  · exact (updSect_only _ _ s).trans (mismatchEdge_only _ _ _)

theorem measureStage_only (x : SectionId) (c : Option Polarity) (r : Sample) (s : State) :
    OnlyOrders s (s.measureStage x c r) := by
  unfold measureStage; dsimp only; split
  · exact updSect_only _ _ s
  · exact (updSect_only _ _ s).trans (polarityChanged_only _ _)

theorem sampleRetest_only (x : SectionId) (s : State) : OnlyField s (s.sampleRetest x) := by
  unfold sampleRetest; split
  · exact retestHandle_only x _ s
  · exact OnlyField.refl s

theorem sectionSample_only (x : SectionId) (r : Sample) (s : State) : OnlyField s (s.sectionSample x r) := by
  unfold sectionSample; split
  · exact OnlyField.refl s
  · exact (((measureStage_only _ _ _ s).trans (scaleStage_only _ _ _)).trans (driveStage_only _ _ _)).field.trans
      (sampleRetest_only _ _)

theorem exchangeReport_only (x : SectionId) (e : Exchange) (o : ExchangeResult) (s : State) :
    OnlyLink s (s.exchangeReport x e o) := sectReports_only _ _ s

theorem urgentReceipt_only (x : SectionId) (s : State) : OnlyOrders s (s.urgentReceipt x) := by
  unfold urgentReceipt; split
  · exact ((updSect_only _ _ s).trans (sectReport_only _ _ _ _).orders).trans (evaluate_only _ _).orders
  · exact OnlyOrders.refl s

theorem obstructionRemoved_only (x : SectionId) (s : State) : OnlyOrders s (s.obstructionRemoved x) := by
  unfold obstructionRemoved; split
  · exact ((updSect_only _ _ s).trans (sectReport_only _ _ _ _).orders).trans (evaluate_only _ _).orders
  · exact OnlyOrders.refl s

theorem judgeExchange_only (x : SectionId) (e : Exchange) (s : State) : OnlyField s (s.judgeExchange x e) := by
  have u : ∀ f b w rs, OnlyField s ((s.updSect x f).enterState x b w rs) := fun f b w rs =>
    ((updSect_only x f s).trans (enterState_only x b w rs _)).field
  have r : ∀ o, OnlyField s (s.exchangeReport x e o) := fun o => (exchangeReport_only x e o s).field
  have re : ∀ f, OnlyField s ((s.updSect x f).retestHandle x (some e)) := fun f =>
    (updSect_only x f s).field.trans (retestHandle_only x _ _)
  unfold judgeExchange; dsimp only
  split <;> try split
  all_goals first
    | with_reducible exact r _
    | with_reducible exact u _ _ _ _
    | with_reducible exact re _

theorem announced_only (x : SectionId) (e : Exchange) (s : State) : OnlyField s (s.announced x e) := by
  unfold announced; split
  · exact OnlyField.refl s
  · split
    · exact (exchangeReport_only _ _ _ s).field
    · exact judgeExchange_only x e s

theorem takeExchange_only (x : SectionId) (e : Exchange) (s : State) : OnlyField s (s.takeExchange x e) := by
  have rep : ∀ u o, OnlyField u (u.exchangeReport x e o) := fun u o => (exchangeReport_only x e o u).field
  unfold takeExchange; dsimp only; split
  · exact OnlyField.refl s
  · split
    · exact rep _ _
    · split
      · exact (updSect_only _ _ s).field.trans (rep _ _)
      · exact (rep _ _).trans (obstructionRemoved_only x _).field
      · split
        · exact rep _ _
        · exact announced_only x e s
      · split
        · exact rep _ _
        · exact announced_only x e s
      · split
        · exact rep _ _
        · split
          · exact (updSect_only _ _ s).field.trans (retestHandle_only _ _ _)
          · exact rep _ _
      · split
        · exact rep _ _
        · exact rep _ _

theorem signalAtSections_only (n : Nat) (e : LeverEnd) (s : State) : OnlyOrders s (s.signalAtSections n e) := by
  refine forEach_keeps OnlyOrders.refl OnlyOrders.trans (fun x u => ?_) _ s
  unfold signalAtSection; split
  · exact OnlyOrders.refl u
  · split
    · split
      · exact (sectReport_only _ _ _ u).orders
      · dsimp only; split
        · exact ((updSect_only _ _ u).trans (sectReport_only _ _ _ _).orders).trans (evaluate_only _ _).orders
        · exact irregular_only x u
    · exact OnlyOrders.refl u

theorem clearingAtSections_only (t : Nat) (s : State) : OnlyField s (s.clearingAtSections t) := by
  refine forEach_keeps OnlyField.refl OnlyField.trans (fun x u => ?_) _ s
  unfold clearingAtSection; split
  · exact OnlyField.refl u
  · split
    · exact retestHandle_only x _ u
    · exact OnlyField.refl u

theorem settingAtSections_only (q : Nat) (s : State) : OnlyField s (s.settingAtSections q) := by
  refine forEach_keeps OnlyField.refl OnlyField.trans (fun x u => ?_) _ s
  unfold settingAtSection; split
  · exact OnlyField.refl u
  · split
    · exact retestHandle_only x _ u
    · exact OnlyField.refl u

theorem blockAnswer_only (x : SectionId) (a : Answer) (s : State) : OnlyOrders s (s.blockAnswer x a) := by
  unfold blockAnswer; split
  · dsimp only; split
    · split
      · exact (updSect_only _ _ s).trans (sectReport_only _ _ _ _).orders
      · exact (updSect_only _ _ s).trans (enterState_only _ _ _ _ _)
    · exact updSect_only _ _ s
  · exact OnlyOrders.refl s

theorem unfreeze_only (x : SectionId) (s : State) : OnlyField s (s.unfreeze x) := by
  unfold unfreeze; split
  · dsimp only
    have h : ∀ f d, OnlyField s ((((s.updSect x f).sectReport x 8 d).evaluate .verdict).followPolarity x false) := fun f d =>
      ((((updSect_only x f s).trans (sectReport_only _ _ _ _).orders).trans (evaluate_only _ _).orders).trans
        (followPolarity_only _ _ _)).field
    split
    all_goals first
      | exact (h _ _).trans (handleHeld_only _ _)
      | exact (h _ _).trans (handleEvent_only _ _)
  · exact OnlyField.refl s

theorem startSections_only (s : State) : OnlyOrders s s.startSections := by
  refine forEach_keeps OnlyOrders.refl OnlyOrders.trans (fun x u => ?_) _ s
  unfold startSection; split
  · dsimp only
    have h : ∀ f d, OnlyOrders u ((u.updSect x f).sectReport x 8 d) := fun f d =>
      (updSect_only x f u).trans (sectReport_only _ _ _ _).orders
    split
    · exact (h _ _).trans (evaluate_only _ _).orders
    · exact ((h _ _).trans (holdHandle_only _ _ _)).trans (evaluate_only _ _).orders
  · exact OnlyOrders.refl u

/-! ### Sequences and circuits -/

theorem startSeq_only (t q : Nat) (r : SequenceRec) (s : State) : OnlyOrders s (s.startSeq t q r) := by
  unfold startSeq; split
  · split
    · exact (updSeq_only _ _ s).trans (report_only _ _ _ _ _).orders
    · exact (report_only _ _ _ _ _).orders
  · exact OnlyOrders.refl s

theorem completeSeq_only (q : Nat) (s : State) : OnlyField s (s.completeSeq q) := by
  have h : ∀ f d, OnlyField s ((s.updSeq q f).report .seq q 3 d) := fun f d =>
    ((updSeq_only q f s).trans (report_only _ _ _ _ _).orders).field
  unfold completeSeq; split
  · exact h _ _
  · exact (((h _ _).trans (evaluate_only _ _).field).trans (settingAtLocks_only _ _)).trans (settingAtSections_only _ _)

theorem occupationHanded_only (t : Nat) (s : State) : OnlyField s (s.occupationHanded t) := by
  refine forEach_keeps OnlyField.refl OnlyField.trans (fun q u => ?_) _ s
  unfold occupationAtSeq; split
  · exact OnlyField.refl u
  · dsimp only; split
    · exact OnlyField.refl u
    · split
      · exact (startSeq_only _ _ _ u).field
      · split
        · split
          · exact ((breakSequence_only _ _ u).trans (startSeq_only _ _ _ _)).field
          · have h : ∀ f d, OnlyField u ((u.updSeq q f).report .seq q 1 d) := fun f d =>
              ((updSeq_only q f u).trans (report_only _ _ _ _ _).orders).field
            split
            · exact (h _ _).trans (completeSeq_only _ _)
            · exact h _ _
        · exact ((breakSequence_only _ _ u).trans (startSeq_only _ _ _ _)).field

theorem clearingHanded_only (t : Nat) (s : State) : OnlyField s (s.clearingHanded t) := by
  refine forEach_keeps OnlyField.refl OnlyField.trans (fun q u => ?_) _ s
  unfold clearingAtSeq; split
  · exact OnlyField.refl u
  · dsimp only; split
    · exact completeSeq_only q u
    · exact OnlyField.refl u

theorem trackCondition_only (c : FaultClass) (t : Nat) (a b : Bool) (s : State) :
    OnlyOrders s (s.trackCondition c t a b) := by
  unfold trackCondition; split
  · exact raise_only _ _ s
  · split
    · exact (endFault_only _ _ s).eval.orders
    · exact OnlyOrders.refl s

/-- A sample of a circuit. -/
theorem trackSample_only (t : Nat) (r : Sample) (s : State) : OnlyField s (s.trackSample t r) := by
  unfold trackSample; split
  · exact OnlyField.refl s
  · dsimp only
    refine OnlyField.trans ?_ (trackCondition_only _ _ _ _ _).field
    refine OnlyField.trans ?_ (trackCondition_only _ _ _ _ _).field
    have h : ∀ f r b, OnlyField s ((s.updTrack t f).trackReport t r [] b) := fun f r b =>
      ((updTrack_only t f s).trans (trackReport_only _ _ _ _ _).orders).field
    split
    · exact (((h _ _ _).trans (evaluate_only _ _).field).trans (occupationHanded_only _ _)).trans
        (trackAtLocks_only _ _ _).field
    · split
      · exact ((((h _ _ _).trans (evaluate_only _ _).field).trans (clearingHanded_only _ _)).trans
          (trackAtLocks_only _ _ _).field).trans (clearingAtSections_only _ _)
      · exact (updTrack_only _ _ s).field

theorem liftTrack_only (t : Nat) (s : State) : OnlyOrders s (s.liftTrack t) := by
  have h : ∀ f a b, OnlyOrders s ((s.updTrack t f).trackReport t 6 a b) := fun f a b =>
    (updTrack_only t f s).trans (trackReport_only _ _ _ _ _).orders
  unfold liftTrack; split
  · exact OnlyOrders.refl s
  · dsimp only; split
    · exact h _ _ _
    · exact h _ _ _
    · exact OnlyOrders.refl s

/-- R164: the orders of a box reset reach their owners, and what their lifts hand on. -/
theorem sendLifts_only (frame : Bool) (secs : BitVec 4) (trks : BitVec 24) (s : State) :
    OnlyField s (s.sendLifts frame secs trks) := by
  have lifts : ∀ u, OnlyField u (forEach allTracks (fun n t => if trks.getLsbD (n - 1) then t.liftTrack n else t) u) := by
    refine forEach_keeps OnlyField.refl OnlyField.trans (fun n u => ?_) _
    split
    · exact (liftTrack_only n u).field
    · exact .refl u
  have start : OnlyField s (if frame then s.restoreFrame else s) := by
    split
    · exact (restoreFrame_only s).orders.field
    · exact .refl s
  exact ((start.trans (forEach_keeps OnlyField.refl OnlyField.trans unfreeze_only _ _)).trans (lifts _)).trans
    (forEach_keeps OnlyField.refl OnlyField.trans (fun x u => (irregular_only x u).field) _ _)

theorem takeOutOfUse_only (t : Nat) (s : State) : OnlyOrders s (s.takeOutOfUse t) := by
  have h : ∀ f b, OnlyOrders s ((s.updTrack t f).trackReport t 3 [] b) := fun f b =>
    (updTrack_only t f s).trans (trackReport_only _ _ _ _ _).orders
  unfold takeOutOfUse; dsimp only; split
  · exact OnlyOrders.refl s
  · exact ((h _ _).trans (evaluate_only _ _).orders).trans (entryHanded_only _ _ _)
  all_goals exact (h _ _).trans (entryHanded_only _ _ _)

theorem putInUse_only (t c : Nat) (s : State) : OnlyOrders s (s.putInUse t c) := by
  have h : ∀ f b, OnlyOrders s ((s.updTrack t f).trackReport t 4 [] b) := fun f b =>
    (updTrack_only t f s).trans (trackReport_only _ _ _ _ _).orders
  unfold putInUse; dsimp only; split
  · exact (h _ _).trans (entryHanded_only _ _ _)
  · exact h _ _

/-! ### The frame unit -/

theorem endContact_only (n : Nat) (s : State) : OnlyEval s (s.endContact n) :=
  (updLever_only _ _ s).trans (endIf_only _ _ _ _).eval

theorem endForced_only (n : Nat) (s : State) : OnlyEval s (s.endForced n) :=
  (updLever_only _ _ s).trans (endIf_only _ _ _ _).eval

theorem leverReport_only (n r : Nat) (d : List Byte) (s : State) : OnlyLink s (s.leverReport n r d) :=
  report_only _ _ _ _ _

theorem proveAt_only (n : Nat) (e : LeverEnd) (s : State) : OnlyEval s (s.proveAt n e) := updLever_only _ _ s
theorem enterTransit_only (n : Nat) (s : State) : OnlyEval s (s.enterTransit n) := updLever_only _ _ s

theorem enterContactFault_only (n : Nat) (s : State) : OnlyField s (s.enterContactFault n) := by
  unfold enterContactFault; dsimp only
  exact ((((updLever_only _ _ s).trans (leverReport_only _ _ _ _).eval).orders.trans (raise_only _ _ _)).trans
    (evaluate_only _ _).orders).field

theorem continueStroke_only (n : Nat) (s : State) : OnlyField s (s.continueStroke n) :=
  (((enterTransit_only n s).trans (endContact_only _ _)).trans (evaluate_only _ _)).field

theorem depart_only (n : Nat) (e : LeverEnd) (s : State) : OnlyField s (s.depart n e) := by
  unfold depart; dsimp only
  have h1 : ∀ r d, OnlyField s ((((s.enterTransit n).leverReport n r d).endContact n).evaluate .verdict) := fun r d =>
    ((((enterTransit_only n s).trans (leverReport_only _ _ _ _).eval).trans (endContact_only _ _)).trans
      (evaluate_only _ _)).field
  have h2 : ∀ (u : State) f, OnlyField u ((u.updLever n f).raise .leverForced n) := fun u f =>
    ((updLever_only n f u).orders.trans (raise_only _ _ _)).field
  split <;> split
  · exact ((h1 _ _).trans (h2 _ _)).trans (engageLocks_only _ _ _)
  · exact (h1 _ _).trans (engageLocks_only _ _ _)
  · exact (h1 _ _).trans (h2 _ _)
  · exact h1 _ _

theorem completeMove_only (n : Nat) (e : LeverEnd) (s : State) : OnlyField s (s.completeMove n e) := by
  unfold completeMove; dsimp only
  have h1 : ∀ d, OnlyField s (((((s.proveAt n e).leverReport n 3 d).endContact n).endForced n).evaluate .verdict) :=
    fun d => (((((proveAt_only n e s).trans (leverReport_only _ _ _ _).eval).trans (endContact_only _ _)).trans
      (endForced_only _ _)).trans (evaluate_only _ _)).field
  refine OnlyField.trans ?_ (signalAtSections_only _ _ _).field
  have h2 := (h1 (e.code :: sequenceSet (s.consumedBy n e))).trans
    (forEach_keeps OnlyField.refl OnlyField.trans (fun q u => sendNotice_only (.lever n) q u) (s.consumedBy n e) _)
  split
  · exact h2.trans (engageLocks_only _ _ _)
  · exact h2.trans (replaceLocks_only _ _)

theorem forcedArrival_only (n : Nat) (e : LeverEnd) (s : State) : OnlyField s (s.forcedArrival n e) := by
  unfold forcedArrival; dsimp only
  have h1 : ∀ d, OnlyField s ((((s.proveAt n e).leverReport n 4 d).endContact n).evaluate .verdict) := fun d =>
    ((((proveAt_only n e s).trans (leverReport_only _ _ _ _).eval).trans (endContact_only _ _)).trans
      (evaluate_only _ _)).field
  have h3 := fun d f => ((h1 d).trans (updLever_only n f _).field).trans (raiseAndEnd_only .leverForced n _).field
  split
  · exact (h3 _ _).trans (engageLocks_only _ _ _)
  · exact h3 _ _

theorem proveQuietly_only (n r : Nat) (d : List Byte) (e : LeverEnd) (s : State) :
    OnlyField s (s.proveQuietly n r d e) :=
  (((((proveAt_only n e s).trans (leverReport_only _ _ _ _).eval).trans (endContact_only _ _)).trans
    (endForced_only _ _)).trans (evaluate_only _ _)).field

theorem reachEnd_only (n : Nat) (e : LeverEnd) (s : State) : OnlyField s (s.reachEnd n e) := by
  unfold reachEnd arrive; split
  · exact proveQuietly_only _ _ _ _ s
  · split
    · split <;> exact proveQuietly_only _ _ _ _ s
    · split
      · exact forcedArrival_only _ _ s
      · exact completeMove_only _ _ s

theorem fittedMove_only (n : Nat) (p : Position) (s : State) : OnlyField s (s.fittedMove n p) := by
  unfold fittedMove; dsimp only; split
  · exact enterContactFault_only n s
  · exact reachEnd_only n _ s
  · exact reachEnd_only n _ s
  · split
    · exact depart_only n _ s
    · split
      · exact depart_only n _ s
      · exact continueStroke_only n s

theorem unfittedMove_only (n : Nat) (p : Position) (s : State) : OnlyField s (s.unfittedMove n p) := by
  have h : ∀ e, OnlyField s (s.proveAt n e) := fun e => (proveAt_only n e s).field
  have ends : ∀ e : LeverEnd, OnlyField s
      (match (s.lever n).lastProved with
       | none => s.proveAt n e
       | some o =>
         if o ≠ e then (s.proveAt n e).leverReport n 10 [0, e.code]
         else if (s.lever n).position = .transit then (s.proveAt n e).leverReport n 10 [1, e.code]
         else s.proveAt n e) := by
    intro e; split
    · exact h _
    · split
      · exact (h _).trans (leverReport_only _ _ _ _).field
      · split
        · exact (h _).trans (leverReport_only _ _ _ _).field
        · exact h _
  cases p
  · exact ends .normal
  · exact ends .reverse
  · exact (enterTransit_only n s).field
  · exact (updLever_only n (fun l => { l with position := .contactFault, notHome := false }) s).field

/-- A lever's contact. -/
theorem contactChange_only (n : Nat) (k : LeverContact) (b : Bool) (s : State) :
    OnlyField s (s.contactChange n k b) := by
  unfold contactChange; dsimp only
  generalize (if k = .normal then b else (s.lever n).normalMade) = nm
  generalize (if k = .reverse then b else (s.lever n).reverseMade) = rm
  split
  · exact OnlyField.refl s
  · split
    · exact (updLever_only _ _ s).field.trans (fittedMove_only _ _ _)
    · exact (updLever_only _ _ s).field.trans (unfittedMove_only _ _ _)

theorem raiseDrive_only (n : Nat) (s : State) : OnlyOrders s (s.raiseDrive n) :=
  (updLever_only _ _ s).orders.trans (raise_only _ _ _)

theorem raiseStuck_only (n : Nat) (s : State) : OnlyOrders s (s.raiseStuck n) :=
  (updLever_only _ _ s).orders.trans (raise_only _ _ _)

theorem closeWindow_only (n : Nat) (s : State) : OnlyOrders s (s.closeWindow n) := by
  have h : ∀ f, OnlyOrders s (s.updLever n f) := fun f => (updLever_only n f s).orders
  unfold closeWindow; dsimp only; split
  · split
    · exact (h _).trans (raiseDrive_only _ _)
    · exact h _
  · split
    · exact (h _).trans (raiseStuck_only _ _)
    · exact h _

theorem lockedReadback_only (n : Nat) (b : Bool) (s : State) : OnlyOrders s (s.lockedReadback n b) := by
  have h : ∀ f g x c, OnlyOrders s (((s.updLever n f).updLever n g).endIf x c n) := fun f g x c =>
    (((updLever_only n f s).trans (updLever_only n g _)).trans (endIf_only _ _ _ _).eval).orders
  unfold lockedReadback; dsimp only; split
  · split
    · exact (h _ _ _ _).trans (updLever_only _ _ _).orders
    · split
      · exact (h _ _ _ _).trans (raiseStuck_only _ _)
      · exact h _ _ _ _
  · split
    · exact (h _ _ _ _).trans (updLever_only _ _ _).orders
    · split
      · exact (h _ _ _ _).trans (raiseDrive_only _ _)
      · exact h _ _ _ _

theorem readbackChange_only (n : Nat) (b : Bool) (s : State) : OnlyOrders s (s.readbackChange n b) := by
  unfold readbackChange; split
  · exact OnlyOrders.refl s
  · split
    · exact lockedReadback_only _ _ s
    · exact (updLever_only _ _ s).orders

theorem supplySample_only (r : Sample) (s : State) : OnlyOrders s (s.supplySample r) := by
  unfold supplySample; split
  · exact OnlyOrders.refl s
  · have h : ∀ fr : FrameUnit, OnlyEval s { s with frame := fr } := fun fr => ⟨s.link, s.faults, fr, rfl⟩
    split
    · dsimp only; split
      · exact (h _).orders.trans (raise_only _ _ _)
      · exact (h _).orders
    · dsimp only; split
      · have w : ∀ u, OnlyOrders u (forEach allLevers freshWindow u) := by
          refine forEach_keeps OnlyOrders.refl OnlyOrders.trans (fun n u => ?_) _
          unfold freshWindow; split
          · exact (updLever_only _ _ u).orders
          · exact OnlyOrders.refl u
        refine OnlyOrders.trans ?_ (w _)
        refine OnlyOrders.trans ?_ (endFault_only _ _ _).eval.orders
        exact (h _).orders
      · exact (h _).orders

end State

end Sys2Proof.Machine
end

