-- ==== Sys2Proof/Tests/Slice0.lean ====
section
/-! SUPPORT. Small tests against the manual's worked examples, the smoke test of WellFormed, and for every statement
with hypotheses a concrete state and operands that meet them. -/

namespace Sys2Proof.Tests

open Sys2Proof.Machine

-- One theorem at a time: a thread for each would not fit the memory of the check.
set_option Elab.async false

/-! ## A table and a box -/

/-- What a command leaves; the reset state where it stops. -/
def after (i : Instr) (s : State) : State :=
  match exec i s with
  | .next t => t
  | .fault _ => State.reset
  | .refused _ => State.reset

def term (k o : Byte) (wk : Byte := 255) (wo : Byte := 255) : Term := ⟨k, o, wk, wo⟩

def frameRow : FrameRec := ⟨15, 150, 400⟩
def lever2 : LeverRec := ⟨2, 0, 1, [term 0 14, term 2 5, term 0 9 1 7], []⟩
def lever7 : LeverRec := ⟨7, 1, 1, [term 0 2, term 2 4], [term 0 2, term 6 3, term 2 4]⟩
def lever9 : LeverRec := ⟨9, 0, 1, [], []⟩
def lever14 : LeverRec := ⟨14, 2, 1, [term 0 2, term 7 4 3 6, term 8 1], []⟩
def circuit (n : Byte) : TrackRec := ⟨n, 600, 350, 20, 64⟩
def sequence4 : SequenceRec := ⟨4, 255, 300, [5, 6]⟩
def lock3 : ApproachRec := ⟨3, 2, 3, 1200, 255, 255, 0⟩
def lock4 : ApproachRec := ⟨4, 9, 3, 1200, 2, 4, 0⟩
def sectionB : SectionRec := ⟨1, 3, 2, 9, 4, 5, 1, 0x0F, 200, 80⟩
def attentionCode : CodeRec := ⟨1, 0, 255, 6, [1]⟩
def offerCode : CodeRec := ⟨4, 1, 2, 2, [3, 1]⟩
def enteringCode : CodeRec := ⟨7, 2, 255, 6, [2]⟩
def obstructionCode : CodeRec := ⟨10, 5, 255, 6, [6]⟩

/-- 01, "a loop home signal, its points and a yard release", with approach locks, a section and a code table. -/
def yard : List Record :=
  [.frame frameRow, .timing defaultTiming, .lever lever2, .lever lever7, .lever lever9, .lever lever14] ++
  [.track (circuit 3), .track (circuit 4), .track (circuit 5), .track (circuit 6)] ++
  [.sequence sequence4, .approach lock3, .approach lock4, .blockSection sectionB] ++
  [.code attentionCode, .code offerCode, .code enteringCode, .code obstructionCode]

def yardTable : Table := ⟨yard, 0x1234⟩

def atNormal : LeverState :=
  { normalMade := true, position := .normal, lastProved := some .normal, readback := true, command := .held }

def clearTrack : TrackState := { state := .clear, acc := 20 }

/-- The box of the example at its start, RUNNING, before its first evaluation. -/
def unevaluated : State :=
  let s : State :=
    { now := 60000
      store := { part := .running, entered := 3000, active := some yardTable, copy := .written yardTable } }
  let s := [2, 7, 9, 14].foldl (fun t n => t.updLever n fun _ => atNormal) s
  let s := [3, 4, 5].foldl (fun t n => t.updTrack n fun _ => clearTrack) s
  let s := s.updSeq 4 fun _ => { latch := true }
  let blocked : SectionState := { blockedMade := true, handle := .lineBlocked, movingSince := none }
  { s with sections := Vector.replicate 4 blocked }.updSect .b fun x => { x with state := some .blocked }

/-- The box of the example at its start: its verdicts and locks settled, nothing waiting to be sent. -/
def start : State :=
  let s := unevaluated.evaluate .partState
  { s with
    now := 70000
    link := {}
    frame := { s.frame with
      levers := s.frame.levers.map fun l => { l with window := none, readback := decide (l.command = .free) } } }

/-- The example's box in another part state. -/
def inPart (p : PartState) (s : State) : State := { s with store := { s.store with part := p } }

/-- The same box `t` ms later. -/
def later (t : Nat) (s : State) : State := { s with now := s.now + t }

/-! ## WellFormed -/

def tooLong : List Byte := List.replicate 250 0

theorem test_wellFormed_refuses_long_bodies :
    ([.identify tooLong, .poll tooLong, .readLevers tooLong, .readTracks tooLong, .readSection tooLong,
      .readApproach tooLong, .readSequences tooLong, .readRaw tooLong, .readFaults tooLong, .takeFaults tooLong,
      .setMasks tooLong, .setReporting tooLong, .trackOutOfUse tooLong, .trackInUse tooLong, .loadBegin tooLong,
      .loadAbandon tooLong, .loadRecord tooLong, .loadStatus tooLong, .commission tooLong true, .readTable tooLong,
      .linkReset tooLong true, .unknownRequestKind 0 tooLong] : List Instr).all (fun i => !i.wellFormed) = true := by
  decide +kernel

theorem test_wellFormed_refuses_numbers :
    ([.leverContactChange 0 .normal true, .transitLimit 49, .lockReadbackChange 49 true, .readbackWindowClose 0,
      .plungerChange 9 true, .stepTimeout 17, .consumptionNotification (.lever 49) 1,
      .consumptionNotification (.approach 17) 1, .consumptionNotification (.block .a) 0,
      .approachConsumptionAnswer 0, .approachCountdownStep 17, .approachExpiry 0] : List Instr).all
      (fun i => !i.wellFormed) = true := by
  decide +kernel

theorem test_wellFormed_refuses_a_known_kind : (Instr.unknownRequestKind 1 []).wellFormed = false := by decide +kernel

/-! ## The link (10) -/

/-- The check of the nine digits under the polynomial and the start value of R176. -/
theorem test_crc_of_digits : crc16 [0x31, 0x32, 0x33, 0x34, 0x35, 0x36, 0x37, 0x38, 0x39] = 0x29B1 := by decide +kernel

theorem test_table_words_spell_nothing : decodeTableWord 16 0x1234 = none := by decide

/-- A character heard without a gap. -/
def heard (mark : Bool) (b : Byte) : LineEvent := .character { mark := mark, stop := true, data := b, gap := 0 }

/-- R181: a frame with one wrong bit in its check is discarded. -/
theorem test_bad_check_is_discarded :
    commandsOf 3 false [heard true 3, heard false 1, heard false 1, heard false 0, heard false 0] =
      [.frameDiscarded .badCheck] := by decide +kernel

/-- R181: a marked character abandons the frame in progress and begins another; what follows a complete frame without
a mark is ignored. -/
theorem test_marked_character_restarts :
    (encodeFrame 3 (.identify [])).map (fun f => commandsOf 3 false ([heard true 3, heard false 1] ++ f ++ [heard false 7])) =
      some [.identify []] := by decide +kernel

/-- R182: a frame completed after the reply has begun is abandoned, and one heard while it lasts is lost; the next is
taken. -/
theorem test_reply_blanks_the_receiver :
    (encodeFrame 3 (.poll [4])).map (fun f =>
        commandsOf 3 false (f.take 4 ++ [.replyBegins] ++ f.drop 4 ++ f ++ [.replyEnds] ++ f)) =
      some [.replyTransmission, .poll [4]] := by decide +kernel

/-- R180: the mark bit is set on the first character of a reply and clear on the others. -/
theorem test_reply_is_marked :
    ((after .replyTransmission (after (.identify []) start)).link.line.map (·.mark)).take 3 = [true, false, false] := by
  decide +kernel

/-- 10, "collecting reports across an overflow": 64 reports held and numbers 1000 to 1063 given. -/
def fullQueue : State :=
  let r (n : Nat) : Report :=
    { seq := BitVec.ofNat 16 (1000 + n), time := 0, category := .track, object := 1, event := 1, detail := [] }
  { start with link := { queue := (List.range 64).map r, nextSeq := 1064 } }

theorem test_full_queue_loses :
    ((fullQueue.report .track 1 1 []).link.queue.length, (fullQueue.report .track 1 1 []).link.lost,
      (fullQueue.report .track 1 1 []).link.nextSeq) = (64, 1, 1065) := by decide +kernel

theorem test_poll_takes_the_oldest_eight :
    ((after (.poll [8]) fullQueue).link.queue.head?.map (·.seq), (after (.poll [8]) fullQueue).link.queue.length) =
      (some 1008, 56) := by decide +kernel

theorem test_link_reset_keeps_the_numbering :
    ((after (.linkReset [] true) fullQueue).link.queue, (after (.linkReset [] true) fullQueue).link.nextSeq) =
      ([], 1064) := by decide +kernel

theorem test_unknown_kind : (after (.unknownRequestKind 9 []) start).link.replies = [[9, 1]] := by decide +kernel

/-- R170: READ LEVERS in STORING is refused BUSY. -/
theorem test_busy_in_storing : (after (.readLevers [1]) (inPart .storing start)).link.replies = [[16, 8]] := by
  decide +kernel

/-! ## Verdicts, levers and locks (01, 02) -/

/-- 01, "releasing the yard", the row "start". -/
theorem test_yard_at_start :
    ([2, 7, 14].map fun n => ((start.lever n).verdict, (start.lever n).blocking)) =
      [(true, none), (true, none), (false, some 3)] := by decide +kernel

def pressedP1 : State := after (.plungerChange 1 true) start

theorem test_yard_plunger_pressed : (pressedP1.lever 14).verdict = true := by decide +kernel

def departed14 : State := after (.leverContactChange 14 .normal false) pressedP1

theorem test_yard_departed :
    ((departed14.lever 14).position, (departed14.lever 14).verdict, (departed14.lever 2).blocking) =
      (.transit, true, some 1) := by decide +kernel

def completed14 : State := after (.leverContactChange 14 .reverse true) (later 100 departed14)

theorem test_yard_completed :
    ((completed14.lever 14).position, (completed14.lever 14).verdict,
      completed14.notices.map fun m => (m.consumer, m.seq)) = (.reverse, true, [(.lever 14, 4)]) := by decide +kernel

theorem test_yard_latch_consumed :
    ((after (.consumptionNotification (.lever 14) 4) completed14).seqn 4).latch = false := by decide +kernel

/-- 01, "T6 is CLEAR at the arrival": nothing is consumed. -/
theorem test_yard_consumes_nothing :
    (after (.leverContactChange 14 .reverse true) (departed14.updTrack 6 fun _ => clearTrack)).notices = [] := by
  decide +kernel

/-- 02, "the same pull with the second lever late": a lock HELD for 200 ms, the travel time 150 ms. -/
def heldFor (t : Nat) : State :=
  start.updLever 9 fun l => { l with command := .held, commandTime := start.now - t }

theorem test_departure_inside_travel_time : (after (.leverContactChange 9 .normal false) (heldFor 150)).frame.supplyOn = true := by
  decide +kernel

theorem test_departure_forced :
    ((after (.leverContactChange 9 .normal false) (heldFor 200)).frame.supplyOn,
      (after (.leverContactChange 9 .normal false) (heldFor 200)).faults.entries.map fun e => (e.cls, e.object, e.active)) =
      (false, [(.leverForced, 9, true)]) := by decide +kernel

/-- 02: a readback that drops inside its window settles the check. -/
theorem test_readback_inside_window :
    ((after (.lockReadbackChange 9 false)
      (start.updLever 9 fun l => { l with command := .held, window := some 69900 })).lever 9).window = none := by
  decide +kernel

theorem test_window_closes_stuck :
    ((after (.readbackWindowClose 9)
      (start.updLever 9 fun l => { l with command := .held, window := some 69850 })).lever 9).stuckActive = true := by
  decide +kernel

theorem test_transit_limit_not_home :
    ((after (.transitLimit 14) (later 15000 departed14)).lever 14).notHome = true := by decide +kernel

/-! ## Track circuits (03) -/

/-- "A dip and a train": samples 4 and 5. -/
theorem test_dip_and_train :
    let x4 := TrackState.sample (circuit 1) 590 { state := .clear, acc := 18, tally := 16 }
    let x5 := TrackState.sample (circuit 1) 300 x4
    ((x4.state, x4.acc, x4.tally), (x5.state, x5.acc, x5.tally)) = ((.clear, 17, 24), (.occupied, 10, 23)) := by
  decide +kernel

/-- "A relay end reading full scale": samples 1 to 4, the fail order taken between the third and the fourth. -/
def scanned (r : Sample) (s : State) : State := after (.scanPass (Vector.replicate 32 r)) s

theorem test_full_scale_fails :
    let s := scanned 1021 (start.updTrack 3 fun _ => { state := .occupied, acc := 6, tally := 10, overRun := 2 })
    ((s.track 3).state, (s.track 3).acc, (s.track 3).channelFault, (s.track 3).failedMark) =
      (.failed, 2, true, true) := by decide +kernel

/-- 03, "out of use across a failure": put back in use before the box reset, it is FAILED again. -/
theorem test_out_of_use_and_back :
    let failed : TrackState := { state := .failed, acc := 20, failedMark := true }
    let out := after (.trackOutOfUse [3]) (start.updTrack 3 fun _ => failed)
    ((out.track 3).state, ((after (.trackInUse [3]) out).track 3).state) = (.outOfUse, .failed) := by decide +kernel

theorem test_in_use_recovers_half :
    ((after (.trackInUse [3]) (start.updTrack 3 fun _ => { state := .outOfUse, acc := 20 })).track 3).acc = 10 := by
  decide +kernel

/-- R46: a raw value is read with its fresh flag, which the reading clears. -/
theorem test_read_raw :
    let s := after (.readRaw [2]) (scanned 612 start)
    (s.link.replies.getLast?, Bank.at s.scanner.fresh 3, Bank.at s.scanner.fresh 4) =
      (some [21, 0, 2, 2, 100, 1], false, true) := by decide +kernel

/-! ## Sequences and approach locks (04, 05) -/

theorem test_step_timeout :
    let s := start.updSeq 4 fun q => { q with step := 1, stepTime := some 0 }
    (((after (.stepTimeout 4) s).seqn 4).step, ((after (.stepTimeout 4) (later 230000 s)).seqn 4).step) = (1, 0) := by
  decide +kernel

def engaged3 : State :=
  ((start.updLock 3 fun _ => { phase := .engaged }).updLever 2 fun l =>
    { l with normalMade := false, position := .transit, lastProved := some .reverse, command := .free }).updTrack 3
      fun x => { x with state := .occupied, acc := 0 }

/-- 05, "replaced, then cleared again", the row 12.0. -/
theorem test_replacement_times :
    let s := after (.leverContactChange 2 .normal true) engaged3
    ((s.lockn 3).phase, (s.lockn 3).remaining) = (.timing, some 1200) := by decide +kernel

def timing4 (m since : Nat) : State := start.updLock 4 fun _ => { phase := .timing, remaining := some m, since := since }

/-- 05: 480 steps are taken in 48 s; the next falls 100 ms later. -/
theorem test_countdown_step :
    (((after (.approachCountdownStep 4) (timing4 720 21900)).lockn 4).remaining,
      ((after (.approachCountdownStep 4) (timing4 720 21901)).lockn 4).remaining) = (some 719, some 720) := by
  decide +kernel

theorem test_expiry :
    let s : State := { timing4 1 0 with now := 120000 }
    (((after (.approachExpiry 4) s).lockn 4).phase, ((after (.approachExpiry 4) s).lockn 4).remaining) =
      (.free, none) := by decide +kernel

/-- 05, "the same lock with a start plunger". -/
theorem test_start_plunger :
    ((after (.plungerChange 2 true) (start.updLock 4 fun _ => { phase := .awaitRelease })).lockn 4).remaining =
      some 1200 := by decide +kernel

/-- 05, "the train passes", the row 47.3. -/
theorem test_lock_released_by_answer :
    let a : Answer := { consumer := .approach 4, seq := 4, epoch := 0, consumed := true }
    ((after (.approachConsumptionAnswer 4) { timing4 727 0 with answers := [a] }).lockn 4).phase = .free := by
  decide +kernel

/-! ## Bells (06) -/

def bellB (f : BellState → BellState) (s : State) : State := s.updBell .b f

def press (start : Time) (release : Option Time) (qualified : Bool) (gap : Nat) : Press :=
  { start := start, release := release, qualified := qualified, longReached := false, pendingReached := false,
    ringReached := false, gap := gap }

def code (groups : List Nat) (release : Option Time) : Code :=
  { groups := groups, malformed := false, release := release }

/-- "Attention and its repetition", 30 ms: the press qualifies and begins a code. -/
theorem test_press_qualifies :
    let s := bellB (fun b => { b with inbound := { press := some (press 69970 none false 0) } }) start
    ((after (.pressQualifies .b .inbound) s).bell .b).inbound.code = some (code [] none) := by decide +kernel

/-- "The offer and its repetition", 6295 ms: the gap of 600 opens a new group. -/
theorem test_press_settles_in_new_group :
    let s := bellB (fun b => { b with inbound :=
      { press := some (press 69870 (some 69940) true 600), code := some (code [3] (some 69940)) } }) start
    (((after (.pressSettles .b .inbound) s).bell .b).inbound.code.map (·.groups)) = some [3, 1] := by decide +kernel

/-- "Attention and its repetition", 1890 ms: entry 1 is owed, its deadline 15 s away. -/
theorem test_code_end_owed :
    let s := bellB (fun b => { b with inbound := { code := some (code [1] (some 68200)) } }) start
    (((after (.codeEnd .b .inbound) s).bell .b).owed.map fun o => (o.entry, o.deadline)) = some (1, 85000) := by
  decide +kernel

/-- "Attention and its repetition", 4300 ms: the exchange completes, and attention is set for 30 s (07, R132). -/
theorem test_code_end_completes :
    let s := bellB (fun b => { b with owed := some ⟨1, 80000, 65000⟩,
                                      outbound := { code := some (code [1] (some 68200)) } }) start
    let t := after (.codeEnd .b .outbound) s
    ((t.bell .b).owed, (t.sectn .b).attention) = (none, some 100000) := by decide +kernel

/-- "The same offer with crossed bells": the new outbound code begins (R107) and is discarded. -/
theorem test_bells_cross :
    let s := bellB (fun b => { b with inbound := { code := some (code [3] (some 69900)) },
                                      outbound := { press := some (press 69970 none false 0) } }) start
    let t := after (.pressQualifies .b .outbound) s
    ((t.bell .b).crossed, (t.bell .b).inbound.code, (t.bell .b).outbound.code) = (true, none, none) ∧
    (t.link.queue.filter fun r => r.category = .bell).map (·.event) = [1, 10] := by
  decide +kernel

theorem test_crossing_clears :
    ((after (.crossingCleared .b) (bellB (fun b => { b with crossed := true, silentSince := some 68200 }) start)).bell
      .b).crossed = false := by decide +kernel

/-- "A held plunger and a late repetition", 21500 ms. -/
theorem test_held_ring :
    let s := bellB (fun b => { b with outbound :=
      { press := some (press 68500 none true 0), code := some (code [] none) } }) start
    let t := after (.heldRing .b .outbound) s
    ((t.bell .b).outbound.code, t.faults.entries.map (·.cls)) = (none, [.heldRing]) := by decide +kernel

theorem test_long_press_spoils :
    let s := bellB (fun b => { b with outbound :=
      { press := some (press 69400 none true 0), code := some (code [] none) } }) start
    (((after (.longPressReached .b .outbound) s).bell .b).outbound.code.map (·.malformed)) = some true := by
  decide +kernel

theorem test_held_pending_holds :
    let s := bellB (fun b => { b with outbound := { press := some (press 69200 none true 0) } }) start
    ((after (.heldPendingReached .b .outbound) s).bell .b).heldSince = some 70000 := by decide +kernel

/-- R104: the drive starts at the beat minimum and stops 60 ms after its start. -/
theorem test_drive :
    let s := bellB (fun b => { b with outbound := { piece := some ⟨69970, none, false⟩ } }) start
    let t := after (.regenerationDriveStart .b) s
    let u := (later 60 t).updBell .b fun b => { b with outbound := { piece := some ⟨69970, some 70040, true⟩ } }
    ((t.bell .b).driveSince, ((after (.driveEnd .b) u).bell .b).driveSince) = (some 70000, none) := by decide +kernel

/-- R105: a strike of 40 ms. -/
theorem test_strike :
    let s := bellB (fun b => { b with inbound := { piece := some ⟨69970, none, false⟩ } }) start
    let t := after (.sounderStrike .b) s
    ((t.bell .b).sounderUntil, ((after (.sounderOff .b) (later 40 t)).bell .b).sounderUntil) = (some 70040, none) := by
  decide +kernel

theorem test_plunger_begins_a_piece :
    ((after (.bellPlungerChange .b true) start).bell .b).outbound.piece = some ⟨70000, none, false⟩ := by decide +kernel

theorem test_sense_begins_a_piece :
    ((after (.bellSenseChange .b true) start).bell .b).inbound.piece = some ⟨70000, none, false⟩ := by decide +kernel

/-- R117: an awaited code that is not repeated raises BELL_NOT_REPEATED; an owed one raises nothing. -/
theorem test_deadlines :
    let s := bellB (fun b => { b with awaited := some ⟨4, 70000, 55000⟩, owed := some ⟨7, 70000, 55000⟩ }) start
    ((after (.awaitedDeadline .b) s).faults.entries.map (·.cls), (after (.owedDeadline .b) s).faults.entries,
      ((after (.owedDeadline .b) s).bell .b).owed) = ([.bellNotRepeated], [], none) := by decide +kernel

/-! ## Sections (07) -/

/-- R127: with I_on 200 and I_off 80, from the reading NONE. -/
theorem test_candidates :
    ([760, 650, 560, 300, 380].map fun r => State.sampleCandidate sectionB .none r) =
      [some .positive, some .none, some .none, some .negative, some .none] := by decide +kernel

/-- R128, sample 5 of the example: the third positive candidate. -/
theorem test_third_candidate :
    (((start.sectn .b).confirm (some .positive)).confirm (some .positive)).confirm (some .positive) =
      { start.sectn .b with measured := .positive, candidate := none, candRun := 0 } := by decide +kernel

def offered : State :=
  start.updSect .b fun x => { x with state := some .offeredIn, offered := some 2, blockedMade := false,
                                     handle := .moving, movingSince := some 69900 }

/-- "Accepting a train on section B", the row 20.00. -/
theorem test_line_clear_accepts :
    let t := after (.handleContactChange .b .lineClear true) offered
    ((t.sectn .b).state, (t.sectn .b).drive) = (some .clearIn, .positive) := by decide +kernel

/-- "Accepting a train on section B", the row 395.00: out sent is clear, the handle is held. -/
theorem test_line_blocked_is_held :
    let s := offered.updSect .b fun x => { x with state := some .onLineIn, drive := .negative }
    let t := after (.handleContactChange .b .lineBlocked true) s
    ((t.sectn .b).state, (t.sectn .b).outOfCorr, t.notices) = (some .onLineIn, true, []) := by decide +kernel

/-- "Accepting a train on section B", the second row 402.50. -/
theorem test_blocked_back :
    let a : Answer := { consumer := .block .b, seq := 4, epoch := 0, consumed := true }
    let s := start.updSect .b fun x => { x with state := some .onLineIn, drive := .negative, outSent := true,
                                                consumeAsked := true }
    let t := after (.blockConsumptionAnswer .b) { s with answers := [a] }
    ((t.sectn .b).state, (t.sectn .b).drive, (t.sectn .b).outSent) = (some .blocked, .off, false) := by decide +kernel

theorem test_attention_lapses :
    ((after (.attentionLapsed .b) (start.updSect .b fun x => { x with attention := some 70000 })).sectn .b).attention =
      none := by decide +kernel

theorem test_handle_unreadable :
    ((after (.handleMovingTimeout .b) (later 400 offered)).sectn .b).handle = .unreadable := by decide +kernel

/-! ## The supervisor (08) -/

/-- "The press between the return and the second force": the entry is ENDED, the supply comes back. -/
def cut : State :=
  let e : FaultEntry :=
    { cls := .leverForced, object := 9, raised := 69000, lastRaised := 69000, active := false, count := 1,
      unmasked := true, alarmPending := true }
  { start with faults := { entries := [e], frameCut := true }, frame := { start.frame with supplyOn := false } }

theorem test_box_reset_restores :
    let t := after (.boxResetKey true) cut
    (t.frame.supplyOn, t.faults.entries, t.faults.frameCut) = (true, [], false) := by decide +kernel

/-- "A forced lever", 603.000: the entry is ACTIVE, the press only silences the alarm. -/
theorem test_early_press_silences :
    let s : State := { cut with faults := { cut.faults with entries := cut.faults.entries.map fun e => { e with active := true } } }
    let t := after (.boxResetKey true) s
    (t.frame.supplyOn, t.faults.entries.map fun e => e.alarmPending) = (false, [false]) := by decide +kernel

/-- R154: LEVER_FORCED is never masked. -/
theorem test_always_unmasked : (after (.setMasks [1, 1, 0]) start).link.replies = [[33, 9]] := by decide +kernel

theorem test_masks_change : (after (.setMasks [1, 8, 1, 0]) start).faults.masked = 0x1FC4 := by decide +kernel

/-- R165: a masked ENDED entry is taken, an unmasked one stays. -/
theorem test_take_faults :
    let e (u : Bool) : FaultEntry :=
      { cls := .leverContact, object := if u then 2 else 7, raised := 0, lastRaised := 0, active := false, count := 1,
        unmasked := u, alarmPending := false }
    ((after (.takeFaults []) { start with faults := { entries := [e true, e false] } }).faults.entries.map (·.object)) =
      [2] := by decide +kernel

theorem test_short_alarm_ends :
    (after .shortAlarmEnd { start with faults := { shortAlarm := some 70000 } }).faults.shortAlarm = none := by
  decide +kernel

/-! ## The table store (09) -/

/-- 01, "verification of faulty records": the reasons of levers 12, 15, 17 and 18, as records of this table. -/
theorem test_faulty_levers :
    ([(⟨12, 1, 1, [term 0 12], []⟩ : LeverRec), ⟨15, 0, 1, [term 2 6 7 4], []⟩, ⟨17, 3, 1, [], [term 0 7]⟩,
      ⟨18, 2, 1, [term 8 9], []⟩].map fun r => verifyLoad (yard ++ [.lever r])) =
      [some (19, .selfReference), some (19, .whenPassage), some (19, .spareTerms), some (19, .refRange)] := by
  decide +kernel

/-- "The first load": lever 7 names T4, which has no record. -/
theorem test_missing_track :
    verifyLoad [.frame ⟨0, 150, 400⟩, .lever ⟨2, 0, 1, [term 2 5], []⟩, .lever ⟨7, 1, 1, [term 0 2, term 2 4], []⟩,
      .track (circuit 5), .timing ⟨0, 900, 700, 0, 0, 0, 0, 0, 0⟩, .code ⟨1, 0, 255, 2, [1]⟩, .track (circuit 6)] =
      some (3, .refAbsent) := by decide +kernel

/-- "The correction, and a second rejection": record 5 then fails. -/
theorem test_timing_order :
    verifyLoad [.frame ⟨0, 150, 400⟩, .lever ⟨2, 0, 1, [term 2 5], []⟩, .lever ⟨7, 1, 1, [term 0 2, term 2 4], []⟩,
      .track (circuit 5), .timing ⟨0, 900, 700, 0, 0, 0, 0, 0, 0⟩, .code ⟨1, 0, 255, 2, [1]⟩, .track (circuit 6),
      .track (circuit 4)] = some (5, .timingOrder) := by decide +kernel

/-- "The correction": the transit limit written out as 15 s leaves the fingerprint as it is. -/
theorem test_default_in_fingerprint :
    fingerprintOf [.frame ⟨0, 150, 400⟩, .track (circuit 4)] = fingerprintOf [.track (circuit 4), .frame ⟨15, 150, 400⟩] := by
  decide +kernel

def verified : State := { start with store := { start.store with staged := yard, load := .verified 0x4567 } }

/-- "Commissioning in service", steps 1, 2 and 4. -/
theorem test_commission :
    ((after (.commission [0x12, 0x34] false) verified).link.replies, (after (.commission [0x45, 0x67] false) verified).link.replies,
      (after (.commission [0x45, 0x67] true) verified).store.part) = ([[52, 6]], [[52, 5]], .storing) := by decide +kernel

/-- Step 3: a lever stands at Reverse. -/
theorem test_commission_not_quiet :
    (after (.commission [0x45, 0x67] true) (verified.updLever 7 fun l => { l with position := .reverse })).link.replies =
      [[52, 7]] := by decide +kernel

def writing : State := after (.commission [0x45, 0x67] true) verified

/-- Step 7. -/
theorem test_write_completes :
    let t := after .storeWriteComplete (later 1400 writing)
    (t.store.part, t.store.active.map (·.fingerprint), (t.track 4).state, (t.track 4).acc) =
      (.proving, some 0x4567, .occupied, 0) := by decide +kernel

theorem test_write_fails :
    let t := after .storeWriteFailed writing
    (t.store.part, t.store.active, t.faults.entries.map (·.cls)) = (.uncommissioned, none, [.store]) := by decide +kernel

/-- Step 8: three seconds of PROVING. -/
theorem test_proving_ends :
    let s := (inPart .proving start).updSect .b fun x => { x with state := none }
    let s : State := { s with store := { s.store with entered := 67000 } }
    ((after .provingEnd s).store.part, ((after .provingEnd s).sectn .b).state) = (.running, some .blocked) := by
  decide +kernel

theorem test_load_begin : (after (.loadBegin []) verified).store.load = .opened := by decide +kernel

theorem test_load_abandon : (after (.loadAbandon []) verified).store.staged = [] := by decide +kernel

/-- R192: a TRACK record of 20, 600, 350, 20, 64 joins the staging. -/
theorem test_load_record :
    (after (.loadRecord [1, 2, 20, 2, 88, 1, 94, 20, 64]) (after (.loadBegin []) verified)).store.staged =
      [.track (circuit 20)] := by decide +kernel

/-- R168: a spoiled copy raises STORE and leaves the part without a table; one that passes brings it to PROVING. -/
theorem test_power_on :
    let s (c : StoreCopy) : State := { start with store := { copy := c } }
    ((after (.powerOn {}) (s .spoiled)).store.part, (after (.powerOn {}) (s .spoiled)).faults.entries.map (·.cls)) =
      (.uncommissioned, [.store]) := by decide +kernel

def smallTable : Table := ⟨[.frame frameRow], fingerprintOf [.frame frameRow]⟩

theorem test_power_on_with_a_table :
    (after (.powerOn {}) { start with store := { copy := .written smallTable } }).store.part = .proving := by
  decide +kernel

/-! ## The queue -/

theorem test_step_takes_the_front :
    (match step { start with pending := [.plungerChange 1 true, .provingEnd] } with
      | .next t => (t.pending, Bank.at t.plungers 1)
      | _ => ([], false)) = ([.provingEnd], true) := by decide +kernel

/-- R181: a gap of more than 20 ms, and a discarded frame, change nothing. -/
theorem test_discarded :
    after .interCharacterGap start = start ∧ after (.frameDiscarded .badCheck) start = start := by decide +kernel

/-! ## Witnesses: concrete states and operands that meet the hypotheses of each statement, clause by clause -/

theorem listLawful_of_empty (s : State) (h : s.faults.entries = []) : s.listLawful := by simp [State.listLawful, h]

theorem test_meets_StepRunsTheFront :
    ({ start with pending := [.provingEnd, .interCharacterGap] } : State).pending = [.provingEnd, .interCharacterGap] := rfl

theorem test_meets_EveryCommandCompletes : (Instr.leverContactChange 48 .normal true).wellFormed = true := by
  decide +kernel

theorem test_meets_ModelConventions :
    start.pending = [] ∧ start.firstDue = none ∧ departed14.pending = [] ∧
    (later 15000 departed14).firstDue = some (.transitLimit 14) ∧
    leverOk 0 = false ∧ leverOk 49 = false ∧ plungerOk 9 = false ∧ sequenceOk 17 = false ∧
    consumerOk (.approach 17) = false ∧ lockOk 0 = false ∧
    (RequestKind.ofCode (63 : Byte).toNat).isSome = true := by decide +kernel

theorem test_meets_FramesRoundTrip :
    (3 : BitVec 4) ≠ 15 ∧ (4 : BitVec 4) ≠ 3 ∧ (Instr.commission [1, 2] true).wellFormed = true ∧
    (encodeFrame 3 (.commission [1, 2] true)).isSome = true ∧ (encodeFrame 3 (.linkReset [] true)).isSome = true ∧
    (∀ c ∈ [({ mark := false, stop := false, data := 3, gap := 0 } : LineChar)], c.mark = false) ∧
    Receiving.inFrame true [2] ≠ .blanked ∧ ((encodeFrame 3 (.poll [4])).map List.length = some 6) ∧
    (encodeFrame 3 (.identify [])).map (fun f => (f.take 3, (f.drop 3).length)) =
      some ([heard true 3, heard false 1, heard false 1], 2) ∧
    ({ mark := false, stop := true, data := 3, gap := 21 } : LineChar).gap > 20 := by decide +kernel

theorem test_meets_RecordsRoundTrip :
    lever14.reverseList.length ≤ 255 ∧ sequence4.circuits.length ≤ 255 ∧ offerCode.groups.length ≤ 255 ∧
    parseRecord [2, 20, 2, 88, 1, 94, 20, 64] = some (.track (circuit 20)) := by decide +kernel

theorem test_meets_UnansweredFrames : ({ start with link := { address := 15 } } : State).link.address = 15 := rfl

theorem test_meets_ReplyTransmission :
    start.link.replies = [] ∧ (after (.identify []) start).link.replies ≠ [] := by decide +kernel

theorem test_meets_RequestTests :
    (start.receives [1] = true ∧ RequestKind.ofCode (9 : Byte).toNat = none ∧
      (inPart .storing start).receives [0, 0] = true ∧ (inPart .storing start).store.part = .storing) ∧
    ¬ RequestKind.fits [1] .identify ∧ RequestKind.fits [0, 0] .setMasks := by
  refine ⟨by decide +kernel, by simp [RequestKind.fits], [], [], ?_⟩
  decide

theorem test_meets_ReportsAndPolls :
    start.link.filters.getLsbD Category.lock.number = false ∧ start.link.filters.getLsbD Category.track.number = true ∧
    start.link.queue.length < 64 ∧ 64 ≤ fullQueue.link.queue.length ∧
    fullQueue.link.filters.getLsbD Category.track.number = true ∧
    ([0, 1, 8, 9] : List Byte).all (fun b => start.receives [b]) = true := by decide +kernel

theorem test_meets_LinkReset : start.receives [] = true := by decide +kernel

/-- Lists to enable and to disable: accepted; a value that is no category; one in both; FAULT, PART to disable. -/
theorem test_meets_SetReporting :
    start.store.part ≠ .storing ∧ start.receives [1, 1, 1, 0] = true ∧
    (¬((∃ c ∈ ([1] ++ [0] : List Byte), 10 ≤ c.toNat) ∨ (∃ c ∈ ([1] : List Byte), c ∈ ([0] : List Byte)) ∨
      (8 : Byte) ∈ ([0] : List Byte) ∨ (9 : Byte) ∈ ([0] : List Byte))) ∧
    (∃ c ∈ ([10] ++ [] : List Byte), 10 ≤ c.toNat) ∧ (∃ c ∈ ([1] : List Byte), c ∈ ([1] : List Byte)) ∧
    (8 : Byte) ∈ ([8] : List Byte) ∧ (9 : Byte) ∈ ([9] : List Byte) := by decide +kernel

theorem test_meets_Readings :
    ([[], [0], [6, 0], [8, 0]] : List (List Byte)).all (fun f => start.receives f) = true ∧ start.store.part ≠ .storing ∧
    1 ≤ (48 : Byte).toNat ∧ (48 : Byte).toNat ≤ 48 ∧ 48 < (49 : Byte).toNat ∧ (24 : Byte).toNat ≤ 24 ∧ 24 < (25 : Byte).toNat ∧
    (13 : Nat) ≤ 24 ∧ 24 < 13 + 12 ∧ (33 : Nat) ≤ 48 ∧ 48 < 33 + 16 ∧
    3 < (4 : Byte).toNat ∧ State.reset.store.active = none ∧ start.store.active ≠ none ∧ (7 : Byte).toNat ≤ 7 ∧
    7 < (8 : Byte).toNat ∧ start.leverRec 2 = some lever2 ∧ start.leverRec 3 = none ∧ start.trackRec 3 = some (circuit 3) ∧
    start.sectionRec .b = some sectionB ∧ start.sectionFitted .a = false ∧ start.approachRec 3 = some lock3 ∧
    start.seqRec 4 = some sequence4 ∧ cut.faults.entries[0]?.isSome = true := by decide +kernel

/-- The first record of a kind and a number stands in the table of the example; one of another number does not. -/
theorem test_meets_Readings_table :
    start.table = yard.take 6 ++ .track (circuit 3) :: yard.drop 7 ∧ (Record.track (circuit 3)).named 2 3 ∧
    (∀ q ∈ yard.take 6, ¬q.named 2 3) ∧ ∀ q ∈ yard, ¬q.named 2 7 := by
  unfold Record.named
  decide +kernel

theorem test_meets_ReadRaw : start.receives [31] = true ∧ (31 : Byte).toNat ≤ 31 ∧ 31 < (32 : Byte).toNat := by
  decide +kernel

/-- A list of `n` entries, the first `k` of them ACTIVE. -/
def listOf (k n : Nat) : List FaultEntry :=
  (List.range' 1 n).map fun i =>
    { cls := .leverContact, object := i, raised := 0, lastRaised := 0, active := decide (i ≤ k), count := 1,
      unmasked := false, alarmPending := false }

def withList (k n : Nat) : State := { start with faults := { entries := listOf k n } }

def entry (c : FaultClass) (obj : Nat) (active : Bool) : FaultEntry :=
  { cls := c, object := obj, raised := 0, lastRaised := 0, active := active, count := 1, unmasked := true,
    alarmPending := false }

/-- A recurrence; room; an ENDED entry to displace; none. -/
theorem test_meets_RaiseEntersTheList :
    (withList 2 2).faults.entryOf .leverContact 2 ≠ none ∧ (withList 2 15).faults.entryOf .lockDrive 2 = none ∧
    (withList 2 15).faults.entries.length < 16 ∧
    (withList 2 16).faults.entries =
      listOf 2 2 ++ { cls := .leverContact, object := 3, raised := 0, lastRaised := 0, active := false, count := 1,
                      unmasked := false, alarmPending := false } :: (listOf 2 16).drop 3 ∧
    (∀ x ∈ listOf 2 2, x.active = true) ∧ 16 ≤ (withList 16 16).faults.entries.length ∧
    (∀ x ∈ (withList 16 16).faults.entries, x.active = true) := by decide +kernel

theorem test_meets_RaiseOrders :
    start.faults.unmaskedFor .trackChannel 24 = true ∧ (start.track 3).state ≠ .failed ∧
    (start.track 3).state ≠ .outOfUse ∧ start.faults.unmaskedFor .blockIrregular (secCode .b).toNat = true ∧
    FaultClass.leverContact.order = none ∧ start.faults.unmaskedFor .trackDegraded 3 = false := by decide +kernel

/-- Section B in a state, its line measured at a polarity. -/
def sectionIn (b : BlockState) (p : Polarity) (frozen : Bool) : State :=
  start.updSect .b fun x => { x with state := some b, measured := p, frozen := frozen }

/-- An alarm class unmasked, HELD_RING masked, an end; a section that is fitted, steady and frozen, and one that is not. -/
theorem test_meets_LampsAndAlarm :
    start.faults.unmaskedFor .trackChannel 3 = true ∧ start.faults.unmaskedFor .heldRing 1 = false ∧
    start.sectionFitted .a = false ∧ start.sectionFitted .b = true ∧ (start.sectn .b).state = some .blocked ∧
    (start.sectn .b).frozen = false ∧ ((sectionIn .onLineOut .none true).sectn .b).frozen = true ∧
    cut.alarmSounds = true ∧ start.alarmSounds = false := by decide +kernel

theorem test_meets_SetMasks :
    start.store.part ≠ .storing ∧ start.receives [1, 8, 1, 0] = true ∧
    ((∃ c ∈ ([14] ++ [] : List Byte), 14 ≤ c.toNat) ∧ (∃ c ∈ ([8] : List Byte), c ∈ ([8] : List Byte))) ∧
    (1 : Byte) ∈ ([1] : List Byte) ∧ (3 : Byte) ∈ ([3] : List Byte) ∧ (13 : Byte) ∈ ([13] : List Byte) ∧
    ¬((∃ c ∈ ([8] ++ [0] : List Byte), 14 ≤ c.toNat) ∨ ∃ c ∈ ([8] : List Byte), c ∈ ([0] : List Byte)) ∧
    ¬((1 : Byte) ∈ ([8] : List Byte) ∨ (3 : Byte) ∈ ([8] : List Byte) ∨ (13 : Byte) ∈ ([8] : List Byte)) := by
  decide +kernel

theorem test_meets_TakeFaults : start.receives [] = true ∧ start.store.part ≠ .storing := by decide +kernel

theorem test_meets_BoxResetKey :
    start.resetKey = false ∧ start.faults.frameCut = false ∧ start.faults.frozenSet = 0 ∧ start.faults.failedSet = 0 ∧
    start.faults.overflow = false ∧ ({ start with resetKey := true } : State).resetKey = true ∧ cut.resetKey = false ∧
    cut.faults.frameCut = true ∧ cut.faults.overflow = false ∧
    (∀ e ∈ cut.faults.entries, e.active = true → e.cls ≠ .leverForced ∧ e.cls ≠ .lockStuckFree) ∧
    (70000 : Nat) ≤ start.now ∧ start.now < 70001 := by decide +kernel

/-- Circuit 3 with an order to fail in force, and section B with one to freeze. -/
def ordered (o : Occupancy) (b : BlockState) (p : Polarity) (h : Handle) (es : List FaultEntry) : State :=
  let s := ((sectionIn b p true).updSect .b fun x => { x with handle := h }).updTrack 3 fun _ =>
    { state := o, acc := 20, failedMark := true }
  { s with faults := { s.faults with failedSet := 4, frozenSet := 2, entries := es } }

/-- Overflow set; a circuit to lift, one that stays; a section to unfreeze, one frozen again, one that stays. -/
theorem test_meets_BoxResetKey_lifts :
    ({ start with faults := { overflow := true } } : State).faults.overflow = true ∧ start.trackRec 3 = some (circuit 3) ∧
    start.sectionRec .b = some sectionB ∧
    (let s := ordered .failed .blocked .negative .lineBlocked [entry .trackChannel 3 false, entry .blockIrregular 1 false]
     s.resetKey = false ∧ s.faults.overflow = false ∧ s.faults.failedSet.getLsbD (3 - 1) = true ∧
     (s.track 3).failedMark = true ∧ (s.track 3).state = .failed ∧ (s.sectn .b).frozen = true ∧
     s.faults.frozenSet.getLsbD (secCode .b).toNat = true ∧
     ¬(∃ e ∈ s.faults.entries, e.active = true ∧ e.unmasked = true ∧ e.object = 3 ∧
       (e.cls = .trackChannel ∨ e.cls = .trackDegraded)) ∧
     ¬(∃ e ∈ s.faults.entries, e.active = true ∧ e.unmasked = true ∧ e.object = (secCode .b).toNat ∧
       (e.cls = .indicatorMismatch ∨ e.cls = .blockIrregular)) ∧
     polarityIrregular .blocked .negative false = true ∧ s.faults.entries.length < 13 ∧
     s.faults.masked.getLsbD FaultClass.blockIrregular.number = false ∧
     ((after (.boxResetKey true) s).faults.entries.all fun e => !(e.active && e.unmasked)) = true) ∧
    (let s := ordered .failed .blocked .none .lineBlocked []
     let s := s.setFaults { s.faults with overflow := true }
     s.resetKey = false ∧ s.faults.overflow = true ∧ s.faults.failedSet.getLsbD (3 - 1) = true ∧
     s.faults.frozenSet.getLsbD (secCode .b).toNat = true ∧
     ((after (.boxResetKey true) s).faults.entries.all fun e => !(e.active && e.unmasked)) = true) ∧
    ((ordered .outOfUse .clearOut .none .lineBlocked []).track 3).state = .outOfUse ∧
    polarityIrregular .clearOut .none false = false ∧ polarityNext .clearOut .none = .blocked ∧
    polarityNext .onLineIn .none = .onLineIn ∧
    (let s := ordered .failed .offeredIn .none .lineClear [entry .trackChannel 3 true, entry .blockIrregular 1 true]
     (∃ e ∈ s.faults.entries, e.active = true ∧ e.unmasked = true ∧ e.object = 3 ∧
       (e.cls = .trackChannel ∨ e.cls = .trackDegraded)) ∧
     ∃ e ∈ s.faults.entries, e.active = true ∧ e.unmasked = true ∧ e.object = (secCode .b).toNat ∧
       (e.cls = .indicatorMismatch ∨ e.cls = .blockIrregular)) := by decide +kernel

def loading (rs : List Record) : State := { start with store := { start.store with staged := rs, load := .opened } }

def track20 : List Byte := [2, 20, 2, 88, 1, 94, 20, 64]

/-- More follow; the load closes well; it closes badly; no room; a body that does not fit; no load OPEN. -/
theorem test_meets_LoadRequests :
    start.store.part ≠ .storing ∧ start.receives [] = true ∧ start.receives (0 :: track20) = true ∧
    start.receives (1 :: track20) = true ∧ start.store.load ≠ .opened ∧ (loading yard).store.load = .opened ∧
    parseRecord [9] = none ∧ (2 : Byte) ≠ 0 ∧ parseRecord track20 = some (.track (circuit 20)) ∧
    (loading (List.replicate 159 default)).store.staged.length < 160 ∧
    verifyLoad ((loading yard).store.staged ++ [.track (circuit 20)]) = none ∧
    verifyLoad ((loading []).store.staged ++ [.track (circuit 20)]) = some (0, .frameCount) ∧
    160 ≤ (loading (List.replicate 160 default)).store.staged.length := by decide +kernel

theorem test_meets_Verification :
    verifyLoad yard = none ∧ Record.lever lever14 ∈ yard ∧ Record.track (circuit 6) ∈ yard ∧
    Record.sequence sequence4 ∈ yard ∧ Record.approach lock4 ∈ yard ∧ Record.blockSection sectionB ∈ yard ∧
    sectionB.fitted = true ∧ Record.code offerCode ∈ yard ∧ Record.code attentionCode ∈ yard ∧ offerCode.meaning = 1 ∧
    attentionCode.meaning ≠ 1 ∧ (yard.filter Record.isFrame).length = 1 ∧ (yard.filter Record.isTiming).length = 1 ∧
    (yard.tail.filter Record.isFrame) = [] ∧ ((yard.eraseIdx 1).filter Record.isTiming) = [] := by decide +kernel

/-- A load whose second record is the first to fail; one whose records pass; a second FRAME and a second BELL_TIMING. -/
theorem test_meets_Verification_rejects :
    recordReason [.frame frameRow, .track (circuit 25)] [] (.frame frameRow) = none ∧
    recordReason [.frame frameRow, .track (circuit 25)] [.frame frameRow] (.track (circuit 25)) = some .badValue ∧
    recordReason [.frame frameRow, .frame frameRow] [.frame frameRow] (.frame frameRow) = none ∧
    ([Record.frame frameRow].filter Record.isFrame).length = 1 ∧
    recordReason [.timing defaultTiming] [] (.timing defaultTiming) = none ∧
    ([Record.timing defaultTiming].filter Record.isTiming).length = 1 ∧
    recordReason yard [] (.lever lever9) = none ∧ recordReason [] [] (.lever lever14) = some .refAbsent := by
  decide +kernel

/-- A record of each kind that fails, one of them for its last reason. -/
theorem test_meets_Verification_kinds :
    recordReason yard [] (.frame { frameRow with threshold := 99 }) = some .badValue ∧
    recordReason yard [.track (circuit 3)] (.track (circuit 3)) = some .duplicate ∧
    recordReason yard [] (.sequence { sequence4 with circuits := [5, 5] }) = some .repeatedTrack ∧
    recordReason yard [] (.approach { lock4 with signal := 7 }) = some .notSignal ∧
    recordReason yard [] (.blockSection { sectionB with arrival := 5 }) = some .refAbsent ∧
    recordReason yard [] (.timing { defaultTiming with longPress := 800, heldPending := 700 }) = some .timingOrder ∧
    recordReason yard [.code offerCode] (.code { offerCode with entry := 5 }) = some .ambiguous := by decide +kernel

theorem test_meets_FingerprintIsOrderFree :
    [Record.frame frameRow, .lever lever2].Perm [.lever lever2, .frame frameRow] ∧
    ([Record.frame frameRow, .lever lever2].map Record.key).Nodup := ⟨.swap _ _ _, by decide +kernel⟩

theorem test_meets_Commission :
    verified.receives [0x45, 0x67] = true ∧ (inPart .storing verified).store.part = .storing ∧
    (inPart .proving verified).store.part = .proving ∧ verified.store.part = .running ∧
    start.store.load = .empty ∧ verified.store.load = .verified (word 0x45 0x67) ∧ word 0x45 0x68 ≠ 0x4567 ∧
    verified.quiet = true ∧ (verified.updLever 7 fun l => { l with position := .reverse }).quiet = false ∧
    (verified.updSect .b fun x => { x with frozen := true }).quiet = true ∧
    (verified.updLock 3 fun _ => { phase := .awaitRelease }).quiet = false ∧ verified.leverFitted 7 = true ∧
    verified.approachFitted 3 = true ∧ verified.sectionFitted .b = true ∧
    (inPart .uncommissioned verified).store.part = .uncommissioned := by decide +kernel

theorem test_meets_StoreWrite :
    writing.store.part = .storing ∧ writing.store.buffer.isSome = true ∧
    (later 2000 writing).now ≤ writing.store.entered + 2000 ∧
    writing.store.entered + 2000 < (later 2001 writing).now ∧ start.store.buffer = none ∧ start.store.part ≠ .storing ∧
    approachOf 3 yard = some lock3 ∧ lockOk 3 = true := by decide +kernel

/-- Under the old table: a lever with both contacts made, one with its lock stuck, a circuit, a section and its bells with
conditions. -/
def condemned : State :=
  let s := writing.updLever 9 fun l =>
    { l with normalMade := true, reverseMade := true, position := .contactFault, contactActive := false }
  let s := s.updLever 14 fun l =>
    { l with readback := true, stuckActive := true, driveActive := true, forcedActive := true, contactActive := true }
  let s := (s.updTrack 3 fun x => { x with channelFault := true, degraded := true }).updSect .b fun x =>
    { x with scaleCause := true }
  let s := s.updBell .b fun b =>
    { b with plunger := true, sense := true, crossed := true, driveSince := some 69990,
             inbound := { press := some { press 68000 none true 0 with ringReached := true } } }
  { s with frame := { s.frame with lockSupply := true } }

theorem test_meets_StoreWrite_conditions :
    (leverOf 9 yard = some lever9 ∧ leverOf 14 yard = some lever14 ∧ lever14.flags.getLsbD 0 = true ∧
    (condemned.lever 9).normalMade = true ∧ (condemned.lever 9).reverseMade = true ∧
    (condemned.lever 9).contactActive = false ∧ (condemned.lever 14).readback = true ∧
    (condemned.lever 14).stuckActive = true ∧ (condemned.lever 14).forcedActive = true ∧
    (condemned.track 3).channelFault = true ∧ (condemned.sectn .b).scaleCause = true ∧
    condemned.sectionFitted .b = true ∧ (condemned.bell .b).crossed = true ∧ condemned.frame.lockSupply = true ∧
    condemned.store.part = .storing) ∧
    condemned.listLawful :=
  ⟨by decide +kernel, listLawful_of_empty _ (by decide +kernel)⟩

def proving : State :=
  let s := (inPart .proving start).updSect .b fun x => { x with state := none }
  { s with store := { s.store with entered := 67000 } }

theorem test_meets_ProvingEnd :
    proving.store.part = .proving ∧ proving.store.entered + 3000 ≤ proving.now ∧ proving.sectionFitted .b = true ∧
    proving.sectionFitted .a = false ∧ proving.hasLock 14 = true ∧
    ¬(start.store.part = .proving ∧ start.store.entered + 3000 ≤ start.now) := by decide +kernel

theorem test_meets_PowerOn :
    ({ start with store := { copy := .written smallTable } } : State).store.copy = .written smallTable ∧
    fingerprintOf smallTable.records = smallTable.fingerprint ∧ fingerprintOf smallTable.records ≠ 0 ∧
    State.reset.store.copy = .blank ∧ (PowerInputs.copyReadable {}) = true := by decide +kernel

/-- A copy that passes and names an approach lock. -/
theorem test_meets_PowerOn_locks :
    approachOf 3 [Record.approach lock3] = some lock3 ∧
    fingerprintOf [Record.approach lock3] = (⟨[.approach lock3], fingerprintOf [.approach lock3]⟩ : Table).fingerprint :=
  ⟨by decide +kernel, by dsimp only⟩

/-- A lever found with both contacts made. -/
theorem test_meets_PowerOn_contacts :
    let tb : Table := ⟨[.lever lever2], fingerprintOf [.lever lever2]⟩
    let t := after (.powerOn { normal := 2, reverse := 2 }) { State.reset with store := { copy := .written tb } }
    (t.lever 2).contactActive = true ∧ (t.lever 1).contactActive = false ∧ t.link.queue.length = 2 := by
  decide +kernel

theorem test_meets_TermsAndLists : start.firstUnsatisfied 1 lever14.reverseList = some 3 := by decide +kernel

/-- A condition of each kind that holds and one that does not; a list of each position; a SPARE lever; a lock that is to
be FREE. -/
theorem test_meets_TermsAndLists_conditions :
    let s := (start.updSect .b fun x => { x with state := some .clearOut }).updLock 3 fun _ => { phase := .engaged }
    ([(0, 2), (2, 3), (3, 6), (5, 1), (6, 4), (7, 4)] : List (Byte × Byte)).all (fun c => start.codeHolds c.1 c.2) =
      true ∧
    ([(0, 1), (1, 2), (2, 6), (3, 3), (4, 1), (5, 0), (6, 5), (7, 3), (8, 1), (9, 1)] : List (Byte × Byte)).all
      (fun c => !start.codeHolds c.1 c.2) = true ∧
    s.codeHolds 4 (secCode .b) = true ∧ s.codeHolds 6 3 = false ∧
    (start.lever 2).position = .normal ∧ start.leverRec 2 = some lever2 ∧ start.leverRec 1 = none ∧
    (engaged3.lever 2).position = .transit ∧ (engaged3.lever 2).lastProved = some .reverse ∧
    start.wantsFree 9 = true ∧ start.wantsFree 14 = false := by decide +kernel

theorem test_meets_EvaluationSettles :
    leverOk 14 = true ∧ unevaluated.hasLock 14 = true ∧
    ((unevaluated.evaluate .partState).lever 2).command ≠ (unevaluated.lever 2).command ∧
    ((unevaluated.evaluate .partState).lever 14).command = (unevaluated.lever 14).command := by decide +kernel

/-- A FREE lock with LOCK_DRIVE active goes to HELD with the frame supply. -/
theorem test_meets_EvaluationSettles_drive :
    let s := start.updLever 9 fun l => { l with driveActive := true }
    let s := { s with frame := { s.frame with supplyOn := false }
                      faults := { s.faults with entries := [entry .lockDrive 9 true] } }
    ((s.lever 9).command = .free ∧ ((s.evaluate .frameSupply).lever 9).command = .held ∧ s.hasLock 9 = true ∧
      (s.lever 9).driveActive = true) ∧ s.listLawful :=
  ⟨by decide +kernel, by unfold State.listLawful; decide +kernel⟩

/-- A level already held; the one contact; the other. -/
theorem test_meets_LeverContacts :
    leverOk 2 = true ∧ (start.lever 2).normalMade = true ∧ (start.lever 2).reverseMade = false ∧
    ¬(false = (start.lever 2).normalMade ∧ (start.lever 2).reverseMade = (start.lever 2).reverseMade) := by
  decide +kernel

/-- Lever 9 with its contacts open, after it left Normal, and before any end was proved; in CONTACT_FAULT. -/
def open9 (p : Position) (e : Option LeverEnd) (before : Bool) : State :=
  start.updLever 9 fun l =>
    { l with normalMade := decide (p = .contactFault), reverseMade := decide (p = .contactFault), position := p,
             lastProved := e, provedBeforeFault := before, contactActive := true, forcedActive := true }

/-- A return, a first proving, a contact restored; an entry into CONTACT_FAULT; a stroke that continues; a lever that is
not fitted. -/
theorem test_meets_LeverContacts_ends :
    start.leverFitted 9 = true ∧ ((open9 .transit (some .normal) false).lever 9).lastProved = some .normal ∧
    ((open9 .transit none false).lever 9).lastProved = none ∧
    ((open9 .contactFault (some .normal) true).lever 9).normalMade = true ∧
    ((open9 .transit (some .normal) false).lever 9).contactActive = true ∧
    ((open9 .transit (some .normal) false).lever 9).forcedActive = true ∧
    (start.lever 9).normalMade = true ∧ (start.lever 9).reverseMade = false ∧
    ((open9 .transit (some .normal) false).lever 9).position.provedEnd = none ∧
    (let s := (open9 .contactFault none false).updLever 9 fun l => { l with reverseMade := false }
     (s.lever 9).normalMade = true ∧ (s.lever 9).position.provedEnd = none ∧ (s.lever 9).provedBeforeFault = false) ∧
    leverOk 1 = true ∧ start.leverFitted 1 = false ∧ (start.lever 1).normalMade = false := by decide +kernel

theorem test_meets_LeverDepartures :
    leverOk 9 = true ∧ start.leverFitted 9 = true ∧ (start.lever 9).position = LeverEnd.position .normal ∧
    (start.lever 9).normalMade = true ∧ (start.lever 9).reverseMade = false ∧ start.forced 9 = false ∧
    (heldFor 150).forced 9 = false ∧ (heldFor 151).forced 9 = true ∧ start.approachRec 4 = some lock4 ∧
    lock4.signal.toNat = 9 ∧ lockOk 4 = true ∧ lockOk 3 = true ∧ lock3.signal.toNat ≠ 9 := by decide +kernel

/-- A departure from a CONTACT_FAULT that began at an end, with LEVER_CONTACT held. -/
theorem test_meets_LeverDepartures_fault :
    let s := (open9 .contactFault (some .normal) true).updLever 9 fun l => { l with reverseMade := false }
    ((s.lever 9).position = .contactFault ∧ (s.lever 9).provedBeforeFault = true ∧
    (s.lever 9).lastProved = some .normal ∧ (s.lever 9).contactActive = true) ∧
    s.listLawful :=
  ⟨by decide +kernel, listLawful_of_empty _ (by decide +kernel)⟩

/-- Lever 9 on its way from the end it left last. -/
def moving9 (e : LeverEnd) : State :=
  (start.updLever 9 fun l => { l with normalMade := false, position := .transit, lastProved := some e }).updLock 4
    fun _ => { phase := .engaged }

theorem test_meets_Arrivals :
    leverOk 9 = true ∧ (moving9 .normal).leverFitted 9 = true ∧
    ((moving9 .normal).lever 9).lastProved = some (LeverEnd.other .reverse) ∧
    ((moving9 .reverse).lever 9).lastProved = some (LeverEnd.other .normal) ∧
    ((moving9 .normal).lever 9).normalMade = false ∧ ((moving9 .normal).lever 9).reverseMade = false ∧
    (moving9 .normal).forced 9 = false ∧ (moving9 .reverse).approachRec 4 = some lock4 ∧ lockOk 4 = true ∧
    ((moving9 .reverse).lockn 4).phase = .engaged ∧ ((moving9 .reverse).track 3).state = .clear ∧
    engaged3.forced 2 = false ∧ (engaged3.track 3).state = .occupied ∧ lock3.plunger = absent ∧
    (((moving9 .reverse).updLock 4 fun _ => { phase := .timing }).lockn 4).phase ≠ .engaged := by decide +kernel

/-- A forced arrival at either end, with LEVER_FORCED and LEVER_CONTACT held or not. -/
theorem test_meets_Arrivals_forced :
    let s (e : LeverEnd) := (moving9 e).updLever 9 fun l =>
      { l with command := .held, commandTime := 0, contactActive := true, forcedActive := true }
    ((s .normal).forced 9 = true ∧ (s .reverse).forced 9 = true ∧ (s .normal).hasLock 9 = true ∧
    ((s .normal).lever 9).contactActive = true ∧ ((s .normal).lever 9).forcedActive = true) ∧
    (s .normal).listLawful :=
  ⟨by decide +kernel, listLawful_of_empty _ (by decide +kernel)⟩

/-- The section's own signal completes to Reverse in CLEAR_OUT with the release unused, and in BLOCKED with
BLOCK_IRREGULAR unmasked, masked, and masked with an unmasked entry in the list; a lock of another lever and a section that is not fitted. -/
theorem test_meets_Arrivals_section :
    let s := (start.updLever 2 fun l =>
      { l with normalMade := false, position := .transit, lastProved := some .normal }).updSect .b fun x =>
        { x with state := some .clearOut }
    s.sectionRec .b = some sectionB ∧ sectionB.signal.toNat = 2 ∧ s.forced 2 = false ∧
    (s.sectn .b).state = some .clearOut ∧ (s.sectn .b).releaseUsed = false ∧ (start.sectn .b).state = some .blocked ∧
    start.faults.masked.getLsbD FaultClass.blockIrregular.number = false ∧
    (start.setFaults { masked := 0x1FC5 }).faults.masked.getLsbD FaultClass.blockIrregular.number = true ∧
    (start.setFaults { masked := 0x1FC5 }).faults.entryOf .blockIrregular (secCode .b).toNat = none ∧
    (start.setFaults { masked := 0x1FC5, entries := [entry .blockIrregular 1 false] }).faults.entryOf .blockIrregular
      (secCode .b).toNat = some (entry .blockIrregular 1 false) ∧ (entry .blockIrregular 1 false).unmasked = true ∧
    s.approachRec 4 = some lock4 ∧ lock4.signal.toNat ≠ 2 ∧ s.sectionRec .a = none := by decide +kernel

/-- Two sections of one signal, the list full with one ENDED entry, unmasked, of the second: the raise of the
first displaces it, and the second, masked in the set, stands. -/
theorem test_meets_Arrivals_crowded :
    let s := { start with
      store := { start.store with active := some ⟨yard ++ [Record.blockSection { sectionB with letter := 0 }], 0x1234⟩ }
      faults := { masked := 0x1FC5, entries := entry .blockIrregular 1 false :: listOf 16 15 } }
    let s := s.updLever 2 fun l => { l with normalMade := false, position := .transit, lastProved := some .normal }
    let s := s.updSect .a fun x => { x with state := some .blocked }
    let t := after (.leverContactChange 2 .reverse true) s
    (s.sectionRec .a).isSome = true ∧ s.sectionRec .b = some sectionB ∧
    (s.faults.entryOf .blockIrregular 1).map (·.unmasked) = some true ∧ 16 ≤ t.faults.entries.length ∧
    (t.faults.entryOf .blockIrregular 1).map (·.unmasked) = some false ∧ t.sectn .b = s.sectn .b := by decide +kernel

theorem test_meets_TransitLimit :
    let s := later (15000 + departed14.now - departed14.now) departed14
    leverOk 14 = true ∧ s.leverFitted 14 = true ∧ (s.lever 14).position = .transit ∧ (s.lever 14).notHome = false ∧
    (s.lever 14).transitSince + s.transitLimit ≤ s.now ∧
    ¬((departed14.lever 14).transitSince + departed14.transitLimit ≤ departed14.now) := by decide +kernel

/-- The FRAME and the BELL_TIMING record of the example's table, the first of their kinds; a part without a table. -/
theorem test_meets_TransitLimit_record :
    start.store.active = some yardTable ∧ yardTable.records = [] ++ .frame frameRow :: yard.tail ∧
    yardTable.records = [.frame frameRow] ++ .timing defaultTiming :: yard.drop 2 ∧
    (∀ q ∈ [Record.frame frameRow], q.isTiming = false) ∧ State.reset.store.active = none := by decide +kernel

/-- Lever 9 with a command, a readback and a window. -/
def lock9 (c : LockCommand) (on : Bool) (w : Option Time) : State :=
  start.updLever 9 fun l => { l with command := c, readback := on, window := w }

theorem test_meets_Readbacks :
    ((lock9 .free true none).lever 9).readback = true ∧ start.hasLock 1 = false ∧ (start.lever 1).readback ≠ true ∧
    (lock9 .free false none).hasLock 9 = true ∧
    ((lock9 .free true none).lever 9).command = .free ∧ ((lock9 .free true none).lever 9).window = none ∧
    (lock9 .free true none).frame.lockSupply = false ∧
    ((lock9 .held false none).lever 9).command = .held ∧ ((lock9 .held false (some 69999)).lever 9).window ≠ none ∧
    ((lock9 .held true (some 69850)).lever 9).window = some 69850 ∧
    69850 + (lock9 .held true (some 69850)).travelTime ≤ (lock9 .held true (some 69850)).now ∧
    ¬(69851 + start.travelTime ≤ start.now) := by decide +kernel

/-- A readback that ends LOCK_DRIVE; one that ends LOCK_STUCK_FREE; one lost inside a window, and under LOCK_SUPPLY outside
one; one gained outside a window. -/
theorem test_meets_Readbacks_conditions :
    let drive := (lock9 .free false none).updLever 9 fun l => { l with driveActive := true }
    let listed := drive.setFaults { drive.faults with entries := [entry .lockDrive 9 true] }
    let stuck := (lock9 .held true none).updLever 9 fun l => { l with stuckActive := true }
    let low := { lock9 .free true none with frame := { (lock9 .free true none).frame with lockSupply := true } }
    ((listed.lever 9).readback = false ∧ (listed.lever 9).driveActive = true ∧ listed.hasLock 9 = true ∧
      (stuck.lever 9).readback = true ∧ (stuck.lever 9).stuckActive = true ∧
      ((lock9 .free true (some 69999)).lever 9).window = some 69999 ∧
      ((lock9 .free true (some 69999)).lever 9).driveActive = false ∧ low.frame.lockSupply = true ∧
      (low.lever 9).readback = true ∧ (low.lever 9).window = none ∧ (low.lever 9).stuckActive = false ∧
      ((lock9 .held false none).lever 9).window = none) ∧
    listed.listLawful :=
  ⟨by decide +kernel, by unfold State.listLawful; decide +kernel⟩

/-- The third low sample, a low one before it, the first good one with a lock to be watched afresh, a part without a
table. -/
theorem test_meets_Readbacks_supply :
    let s := { lock9 .free false none with frame := { (lock9 .free false none).frame with lowRun := 2, lockSupply := true } }
    s.frameRec = some frameRow ∧ State.reset.frameRec = none ∧ (399#10).toNat < frameRow.threshold.toNat ∧
    frameRow.threshold.toNat ≤ (400#10).toNat ∧ s.frame.lowRun = 2 ∧ start.frame.lowRun ≠ 2 ∧
    s.frame.lockSupply = true ∧ start.frame.lockSupply = false ∧ s.hasLock 9 = true ∧ (s.lever 9).command = .free ∧
    (s.lever 9).readback = false ∧ (start.lever 9).readback = true := by decide +kernel

theorem test_meets_ScanPass :
    start.trackRec 3 = some (circuit 3) ∧ start.sectionRec .b = some sectionB ∧ start.frameRec = some frameRow := by
  decide +kernel

/-- Samples at the limits of each class of the circuit of the examples. -/
theorem test_meets_SampleClasses :
    1020 ≤ (1020#10).toNat ∧ (1019#10).toNat < 1020 ∧ 600 ≤ (600#10).toNat ∧ (599#10).toNat < 600 ∧
    (350#10).toNat ≤ 350 ∧ 350 < (351#10).toNat := by decide

theorem test_meets_AccumulatorAndTally :
    ({ state := .occupied, acc := 20, tally := 255 } : TrackState).acc ≤ (circuit 1).clearCount.toNat ∧
    ({ state := .occupied, acc := 20, tally := 255 } : TrackState).tally ≤ 255 := by decide +kernel

/-- Over range at a run of 2; the step down to C − 4 and to C − 3; the step up to C; L reached, L/2 reached. -/
theorem test_meets_CircuitTests :
    classify 600 350 1020 = .overRange ∧ classify 600 350 1019 ≠ .overRange ∧ nextAcc 20 .shunted 20 + 4 ≤ 20 ∧
    20 < nextAcc 20 .marginal 18 + 4 ∧ nextAcc 20 .energised 19 = 20 ∧ nextAcc 20 .energised 18 ≠ 20 ∧
    64 ≤ nextTally .marginal 56 ∧ nextTally .energised 33 ≤ 64 / 2 := by decide

/-- A sample that begins each condition, one that ends each, one that does neither; a clearing of the clearing track with
a handle that is re-tested, and one that is not. -/
theorem test_meets_CircuitTests_hand :
    let begun : TrackState := { acc := 5, overRun := 2, tally := 20 }
    let faulty : TrackState := { acc := 5, channelFault := true, degraded := true, tally := 33 }
    let held := (sectionIn .offeredIn .none false).updSect .b fun x =>
      { x with offered := some 2, handle := .lineClear, retest := true }
    let taken := held.updTrack 5 fun _ => { state := .clear, acc := 20 }
    (start.trackRec 5 = some (circuit 5) ∧ (begun.sample (circuit 5) 1020).channelFault = true ∧
    ({ begun with tally := 56 }.sample (circuit 5) 400).degraded = true ∧
    (faulty.sample (circuit 5) 700).channelFault = false ∧ (faulty.sample (circuit 5) 700).degraded = false ∧
    (begun.sample (circuit 5) 700).state = begun.state ∧ (begun.sample (circuit 5) 700).degraded = begun.degraded ∧
    start.faults.masked.getLsbD FaultClass.trackDegraded.number = true ∧
    start.faults.masked.getLsbD FaultClass.trackChannel.number = false ∧
    ({ acc := 19 : TrackState }.sample (circuit 5) 700).state = .clear ∧ sectionB.clearing.toNat = 5 ∧
    held.sectionRec .b = some sectionB ∧ (held.sectn .b).state = some .offeredIn ∧ (held.sectn .b).retest = true ∧
    taken.acceptsTrain .b sectionB = true ∧ (held.updTrack 5 fun _ => {}).acceptsTrain .b sectionB = false) ∧
    start.listLawful :=
  ⟨by decide +kernel, listLawful_of_empty _ (by decide +kernel)⟩

theorem test_meets_TrackRequests :
    start.receives [3] = true ∧ start.store.part ≠ .storing ∧ start.store.active ≠ none ∧
    State.reset.store.active = none ∧ State.reset.receives [3] = true ∧ State.reset.store.part ≠ .storing ∧
    start.trackRec 7 = none ∧ start.trackRec 5 = some (circuit 5) ∧ start.seqRec 4 = some sequence4 ∧
    sequenceOk 4 = true ∧ byte 5 ∈ sequence4.circuits ∧ (start.track 5).state ≠ .outOfUse ∧
    ((start.updTrack 5 fun x => { x with state := .outOfUse }).track 5).state = .outOfUse := by decide +kernel

def step1 : State := start.updSeq 4 fun q => { q with step := 1, stepTime := some 0 }

/-- A step that has just timed out, one that has not; a notification in flight, and one of an earlier table. -/
theorem test_meets_SequenceEvents :
    sequenceOk 4 = true ∧ (later 230000 step1).seqRec 4 = some sequence4 ∧ 1 ≤ ((later 230000 step1).seqn 4).step ∧
    ((later 230000 step1).seqn 4).stepTime = some 0 ∧
    0 + sequence4.timeout.toNat * 1000 ≤ (later 230000 step1).now ∧
    ((step1.seqn 4).stepTime = some 0 ∧ ¬(0 + sequence4.timeout.toNat * 1000 ≤ step1.now)) ∧
    consumerOk (.lever 14) = true ∧ (∀ m ∈ start.notices, ¬(m.consumer = .lever 14 ∧ m.seq = 4)) ∧
    completed14.notices = [] ++ { consumer := .lever 14, seq := 4, epoch := 0 } :: [] ∧
    ({ completed14 with epoch := 1 } : State).epoch ≠ 0 := by decide +kernel

/-- Sequence 4 at a step, with the latch as given. -/
def follows (k : Nat) (latch : Bool) : State :=
  start.updSeq 4 fun _ => { step := k, stepTime := if k = 0 then none else some 60000, latch := latch }

/-- A start, an advance that completes and one that does not, a break, a clearing that completes, an entry that breaks;
samples that occupy and clear. -/
theorem test_meets_SequenceProgress :
    start.seqRec 4 = some sequence4 ∧ sequenceOk 4 = true ∧ sequence4.lists 3 = false ∧ sequence4.lists 5 = true ∧
    ((follows 0 false).seqn 4).step = 0 ∧ (1 ≤ ((follows 1 true).seqn 4).step ∧
      ((follows 1 true).seqn 4).step < sequence4.circuits.length) ∧ sequence4.circuitAt 2 = 6 ∧
    (start.track (sequence4.circuitAt 1)).state = .clear ∧
    (((follows 1 true).updTrack 5 fun _ => {}).track (sequence4.circuitAt 1)).state ≠ .clear ∧
    (1 + 1 = sequence4.circuits.length) ∧ ((follows 2 false).seqn 4).step = sequence4.circuits.length ∧
    sequence4.circuitAt 1 = 5 ∧
    (let x : TrackState := { state := .clear, acc := 17 }
     (x.sample (circuit 3) 300).state = .occupied ∧ (x.sample (circuit 3) 300).channelFault = x.channelFault ∧
     (x.sample (circuit 3) 300).degraded = x.degraded) ∧
    (let x : TrackState := { state := .occupied, acc := 19 }
     (x.sample (circuit 3) 700).state = .clear ∧ (x.sample (circuit 3) 700).degraded = x.degraded) ∧
    (start.track 3).state = .clear := by decide +kernel

theorem test_meets_HoldTimes :
    plungerOk 2 = true ∧ Bank.at start.plungers 2 = false ∧ lockOk 4 = true ∧ start.approachRec 4 = some lock4 ∧
    lock4.plunger.toNat = 2 ∧ ((start.updLock 4 fun _ => { phase := .awaitRelease }).lockn 4).phase = .awaitRelease ∧
    ((timing4 720 21900).lockn 4).remaining = some 720 ∧ ((timing4 720 21900).lockn 4).phase = .timing ∧
    ((timing4 720 21900).lockn 4).since + 100 * (lock4.hold.toNat - 720 + 1) ≤ (timing4 720 21900).now ∧
    ¬(((timing4 720 21901).lockn 4).since + 100 * (lock4.hold.toNat - 720 + 1) ≤ (timing4 720 21901).now) ∧
    ((timing4 1 0).lockn 4).since + 100 * (lock4.hold.toNat - 1 + 1) ≤ (later 50000 (timing4 1 0)).now ∧
    (start.lockn 4).phase ≠ .timing := by decide +kernel

def answered (c : Consumer) (epoch : Nat) : State :=
  { start with answers := [{ consumer := c, seq := 4, epoch := epoch, consumed := true }] }

theorem test_meets_ApproachAnswers :
    lockOk 4 = true ∧ (∀ x ∈ start.answers, x.consumer ≠ .approach 4) ∧
    (answered (.approach 4) 0).answers = [] ++ { consumer := .approach 4, seq := 4, epoch := 0, consumed := true } :: [] ∧
    start.epoch = 0 ∧ (1 : Nat) ≠ start.epoch ∧ start.approachFitted 5 = false ∧ start.approachFitted 4 = true := by
  decide +kernel

/-- Samples at the limits of the scale and of each band, and runs of 0, 1 and 2. -/
theorem test_meets_MeasuredPolarity :
    sectionB.offLevel.toNat < sectionB.onLevel.toNat ∧ (3#10).toNat ≤ 3 ∧ 3 < (4#10).toNat ∧ 1020 ≤ (1020#10).toNat ∧
    (1019#10).toNat < 1020 ∧
    ([712, 711, 592, 593, 432, 431, 312, 313].map fun r => State.sampleCandidate sectionB .negative r) =
      [some .positive, some .negative, some .none, some .negative, some .none, some .negative, some .negative,
        some .negative] ∧
    ({ measured := .negative } : SectionState).candidate ≠ some .positive ∧
    ({ candidate := some .positive, candRun := 1 } : SectionState).candRun < 2 ∧
    2 ≤ ({ candidate := some .positive, candRun := 2 } : SectionState).candRun := by decide +kernel

/-- Samples that begin and end each cause of INDICATOR_MISMATCH, one that changes the polarity, one that accepts a held
handle. -/
theorem test_meets_MeasuredPolarity_sample :
    let run := (sectionIn .clearIn .none false).updSect .b fun x =>
      { x with drive := .positive, scaleRun := 2, mismatchRun := 2, candidate := some .negative, candRun := 2 }
    let held := (sectionIn .offeredIn .none false).updSect .b fun x =>
      { x with offered := some 2, handle := .lineClear, retest := true }
    (run.sectionRec .b = some sectionB ∧ State.sampleCandidate sectionB .none 200 = some .negative ∧
    State.sampleCandidate sectionB .none 1020 = none ∧ State.sampleCandidate sectionB .none 800 = some .positive ∧
    ((run.sectionSample .b 200).sectn .b).measured = .negative ∧
    ((run.sectionSample .b 1020).sectn .b).scaleCause = true ∧
    ((run.sectionSample .b 1020).sectn .b).driveCause = true ∧
    ((run.sectionSample .b 800).sectn .b).driveCause = false ∧ (run.sectn .b).scaleCause = false ∧
    run.faults.masked.getLsbD FaultClass.indicatorMismatch.number = true ∧
    (run.setFaults { masked := 0 }).faults.masked.getLsbD FaultClass.indicatorMismatch.number = false ∧
    (held.sectn .b).state = some .offeredIn ∧ held.acceptsTrain .b sectionB = true ∧ held.store.part ≠ .storing ∧
    (held.sectn .b).frozen = false) ∧
    start.listLawful :=
  ⟨by decide +kernel, listLawful_of_empty _ (by decide +kernel)⟩

theorem test_meets_IndicatorRules :
    ((sectionIn .offeredOut .positive false).sectn .b).state = some .offeredOut ∧
    ((sectionIn .blocked .none true).sectn .b).frozen = true ∧ (start.sectn .a).state = none ∧
    ((sectionIn .onLineOut .positive false).sectn .b).measured = .positive ∧
    ((sectionIn .blocked .negative false).sectn .b).measured = .negative ∧
    polarityIrregular .onLineOut .positive false = true ∧ polarityIrregular .clearOut .none true = true ∧
    polarityNext .clearOut .none ≠ .clearOut ∧
    (sectionIn .blocked .negative false).faults.unmaskedFor .blockIrregular (secCode .b).toNat = true := by
  decide +kernel

theorem test_meets_OffersAndCancels :
    start.sectionRec .b = some sectionB ∧ (start.sectn .b).frozen = false ∧ (start.sectn .b).state = some .blocked ∧
    sectionB.attentionRequired = true ∧ (start.sectn .b).attention = none ∧ start.sectionFitted .a = false ∧
    ((start.updSect .b fun x => { x with attention := some 80000 }).sectn .b).attention ≠ none ∧
    ((sectionIn .clearIn .positive false).sectn .b).state = some .clearIn ∧
    ((sectionIn .clearIn .positive true).sectn .b).frozen = true ∧
    ((sectionIn .clearIn .positive false).sectn .b).cancelReceived = false ∧
    (((sectionIn .clearIn .positive false).updSect .b fun x => { x with cancelReceived := true }).sectn
      .b).cancelReceived = true ∧
    (let s := (sectionIn .onLineIn .negative false).updSect .b fun x => { x with retest := true }
     (s.sectn .b).handle = .lineBlocked ∧ (s.sectn .b).retest = true ∧ s.store.part ≠ .storing ∧
     (s.seqn sectionB.arrival.toNat).latch = true ∧ (s.sectn .b).consumeAsked = false) ∧
    ((start.updSect .b fun x => { x with state := none }).sectn .b).state = none := by decide +kernel

/-- A level already held; a handle 500 ms in movement, and 100 ms; one that is UNREADABLE and stays so. -/
theorem test_meets_Handles :
    (start.sectn .b).blockedMade = true ∧ (start.sectn .b).clearMade = false ∧ (start.sectn .b).trainMade = false ∧
    ((later 400 offered).sectn .b).handle = .moving ∧ ((later 400 offered).sectn .b).movingSince = some 69900 ∧
    69900 + 500 ≤ (later 400 offered).now ∧
    ((offered.sectn .b).movingSince = some 69900 ∧ ¬(69900 + 500 ≤ offered.now)) ∧
    offered.sectionFitted .b = true ∧ (offered.sectn .b).state ≠ none ∧ (offered.sectn .b).frozen = false ∧
    (let s := offered.updSect .b fun x => { x with handle := .unreadable, blockedMade := true, clearMade := true }
     (s.sectn .b).handle = .unreadable ∧ (s.sectn .b).trainMade = false ∧
     ((after (.handleContactChange .b .trainOnLine true) s).sectn .b).handle = .unreadable) ∧
    (start.sectn .b).handle ≠ .unreadable ∧ ((after (.handleContactChange .b .lineClear true) start).sectn .b).handle = .unreadable ∧
    ((after (.handleContactChange .b .lineBlocked false) start).sectn .b).handle = .moving := by decide +kernel

/-- A handle on its way, with an acceptable offer and one that is not, a train to block back for and none. -/
theorem test_meets_HandleRules :
    offered.sectionRec .b = some sectionB ∧ (offered.sectn .b).state = some .offeredIn ∧ offered.store.part ≠ .storing ∧
    (offered.sectn .b).blockedMade = false ∧ (offered.sectn .b).clearMade = false ∧ (offered.sectn .b).trainMade = false ∧
    (offered.sectn .b).offered = some 2 ∧ sectionB.classes.getLsbD 2 = true ∧ sectionB.classes.getLsbD 4 = false ∧
    (offered.lever sectionB.home.toNat).position = .normal ∧ (offered.track sectionB.clearing.toNat).state = .clear ∧
    (offered.seqn sectionB.arrival.toNat).latch = true ∧ (offered.sectn .b).consumeAsked = false ∧
    ((offered.updSect .b fun x => { x with outSent := true }).sectn .b).outSent = true ∧
    (offered.sectn .b).outSent = false ∧
    ((offered.updSect .b fun x => { x with state := some .clearIn, cancelReceived := true }).sectn .b).state =
      some .clearIn ∧
    ((offered.updSect .b fun x => { x with frozen := true }).sectn .b).frozen = true := by decide +kernel

/-- A handle that reaches a position as a contact is made, and as one opens; in STORING. -/
theorem test_meets_HandleRules_reaches :
    let two := offered.updSect .b fun x => { x with handle := .unreadable, blockedMade := true, clearMade := true }
    ¬(true = (offered.sectn .b).clearMade) ∧ (two.sectn .b).blockedMade = true ∧ ¬(false = (two.sectn .b).blockedMade) ∧
    (two.sectn .b).clearMade = true ∧ (two.sectn .b).trainMade = false ∧ (two.sectn .b).frozen = false ∧
    (inPart .storing two).store.part = .storing ∧ two.store.part ≠ .storing := by decide +kernel

theorem test_meets_AttentionAndBlockAnswers :
    (start.sectn .b).attention = none ∧
    ((start.updSect .b fun x => { x with attention := some 70000 }).sectn .b).attention = some 70000 ∧
    70000 ≤ start.now ∧ start.now < 70001 ∧ (∀ a ∈ start.answers, a.consumer ≠ .block .b) ∧
    (answered (.block .b) 0).answers = [] ++ { consumer := .block .b, seq := 4, epoch := 0, consumed := true } :: [] ∧
    start.epoch = 0 ∧ start.sectionFitted .b = true ∧ start.sectionFitted .a = false ∧
    ((sectionIn .onLineIn .negative false).sectn .b).state = some .onLineIn := by decide +kernel

theorem test_meets_BellInputs :
    (start.bell .b).plunger ≠ true ∧ (start.bell .b).sense ≠ true ∧ (start.bell .b).driveSince = none ∧
    ((bellB (fun b => { b with driveSince := some 69990 }) start).bell .b).driveSince ≠ none ∧
    ((bellB (fun b => { b with plunger := true, outbound := { piece := some ⟨69970, none, true⟩ } }) start).bell
      .b).outbound.piece = some ⟨69970, none, true⟩ := by decide +kernel

/-- A hold that a release ends, with both slots set, one of them during the hold. -/
theorem test_meets_BellInputs_hold :
    let p : Press := { press 69000 none true 0 with pendingReached := true }
    let s := bellB (fun b => { b with plunger := true, heldSince := some 69800, awaited := some ⟨4, 71000, 60000⟩,
                                      owed := some ⟨7, 80000, 69900⟩,
                                      outbound := { piece := some ⟨69000, none, true⟩, press := some p } }) start
    (s.bell .b).plunger ≠ false ∧ (s.bell .b).heldSince = some 69800 ∧
    (((after (.bellPlungerChange .b false) s).bell .b).outbound.press.bind (·.release)) = some 70000 ∧
    ((after (.bellPlungerChange .b false) s).bell .b).inbound.press = none ∧
    ((after (.bellPlungerChange .b false) s).bell .b).awaited = some ⟨4, 71200, 60000⟩ ∧
    ((after (.bellPlungerChange .b false) s).bell .b).owed = some ⟨7, 80100, 69900⟩ := by decide +kernel

/-- A piece that joins its press by 1 ms and one that begins another, the held pending reached; a crossed section. -/
theorem test_meets_BellInputs_press :
    let p : Press := { press 69000 (some 69941) true 0 with pendingReached := true }
    let s := bellB (fun b => { b with crossed := true, silentSince := some 69941,
                                      outbound := { piece := some ⟨69900, some 69941, true⟩, press := some p } }) start
    let t := after (.bellPlungerChange .b true) s
    s.assembles .b = true ∧ start.assembles .a = false ∧ ((s.bell .b).side .outbound).press = some p ∧
    s.now < 69941 + s.timing.mergeGap.toNat ∧ ¬(s.now < 69940 + s.timing.mergeGap.toNat) ∧ (s.bell .b).crossed = true ∧
    (t.bell .b).heldSince = some 70000 ∧ (t.bell .b).silentSince = none ∧ ((start.bell .b).side .outbound).press = none := by
  decide +kernel

/-- A piece of 29 ms, one of 30 ms; a drive of 59 ms, one of 60 ms; a strike that ends now. -/
theorem test_meets_DrivesAndStrikes :
    start.timing.beatMinimum.toNat ≤ (none : Option Time).getD start.now - 69970 ∧
    ¬(start.timing.beatMinimum.toNat ≤ (none : Option Time).getD start.now - 69971) ∧
    ((bellB (fun b => { b with outbound := { piece := some ⟨69970, none, false⟩ } }) start).bell .b).outbound.piece =
      some ⟨69970, none, false⟩ ∧
    69940 + 60 ≤ start.now ∧ ¬(69941 + 60 ≤ start.now) ∧
    ((bellB (fun b => { b with driveSince := some 69940, sense := true }) start).bell .b).driveSince = some 69940 ∧
    ((bellB (fun b => { b with sounderUntil := some 70000 }) start).bell .b).sounderUntil = some 70000 := by
  decide +kernel

def pressed (p : Press) (own other : Option Code) : State :=
  bellB (fun b => { b with inbound := { press := some p, code := own }, outbound := { code := other } }) start

/-- Each threshold of the default timing reached to the millisecond, and missed by one. -/
theorem test_meets_PressThresholds :
    start.assembles .b = true ∧
    (((pressed (press 69970 none false 0) none none).bell .b).side .inbound).press = some (press 69970 none false 0) ∧
    (((pressed (press 69970 none false 0) none (some (code [3] none))).bell .b).side (otherDir .inbound)).code ≠ none ∧
    (((pressed (press 69970 none false 0) (some (code [3] none)) none).bell .b).side .inbound).code ≠ none ∧
    start.timing.beatMinimum.toNat ≤ 70000 - 69970 ∧ ¬(start.timing.beatMinimum.toNat ≤ 70000 - 69971) ∧
    start.timing.longPress.toNat ≤ 70000 - 69400 ∧ ¬(start.timing.longPress.toNat ≤ 70000 - 69401) ∧
    start.timing.heldPending.toNat ≤ 70000 - 69200 ∧ ¬(start.timing.heldPending.toNat ≤ 70000 - 69201) ∧
    start.timing.heldRing.toNat ≤ 70000 - 68500 ∧ ¬(start.timing.heldRing.toNat ≤ 70000 - 68501) ∧
    (start.bell .b).crossed = false ∧ start.sectionFitted .b = true ∧
    start.link.filters.getLsbD Category.bell.number = true ∧ start.link.queue.length < 64 := by decide +kernel

/-- The merge gap reached and missed by one; the bounds of a code; a section without assemblers. -/
theorem test_meets_PressSettles :
    start.assembles .b = true ∧ start.assembles .a = false ∧
    (((pressed (press 69870 (some 69940) true 600) (some (code [3] none)) none).bell .b).side .inbound).press =
      some (press 69870 (some 69940) true 600) ∧
    69940 + start.timing.mergeGap.toNat ≤ start.now ∧ ¬(69941 + start.timing.mergeGap.toNat ≤ start.now) ∧
    70 < start.timing.longPress.toNat ∧ ¬(600 < start.timing.groupGap.toNat) ∧ (449 : Nat) < start.timing.groupGap.toNat ∧
    24 ≤ (code [12, 12] none).groups.sum ∧ (code [] none).groups = [] ∧ (code [11, 12] none).groups = [11] ++ [12] ∧
    (code [11, 12] none).groups.sum < 24 ∧ 4 ≤ (code [1, 1, 1, 1] none).groups.length ∧
    ((start.bell .b).side .inbound).press = none ∧ ((start.bell .b).side .inbound).code = none := by decide +kernel

/-- A press that has reached the held ring settles in a fitted section, no other ring standing. -/
theorem test_meets_PressSettles_ring :
    ({ press 68000 (some 69940) true 0 with ringReached := true } : Press).ringReached = true ∧
    start.sectionFitted .b = true ∧ ((start.bell .b).side (otherDir .inbound)).press = none := by decide +kernel

/-- A code that ends now, as attention; one that is no entry; slots that are equal, unequal and empty. -/
theorem test_meets_CodeEnds :
    let s := bellB (fun b => { b with inbound := { code := some (code [1] (some 68200)) },
                                      awaited := some ⟨1, 80000, 65000⟩, owed := some ⟨7, 80000, 65000⟩ }) start
    ((s.bell .b).side .inbound).code = some (code [1] (some 68200)) ∧ ((s.bell .b).side .inbound).press = none ∧
    68200 + s.timing.codeEndGap.toNat ≤ s.now ∧ ¬(68201 + s.timing.codeEndGap.toNat ≤ s.now) ∧
    s.recognise .b (code [1] (some 68200)) = some attentionCode ∧ s.recognise .b (code [5] (some 68200)) = none ∧
    s.recognise .b (code [6] none) = some obstructionCode ∧
    Meaning.ofCode obstructionCode.meaning.toNat = some .obstruction ∧
    (s.bell .b).awaited = some ⟨1, 80000, 65000⟩ ∧ (⟨1, 80000, 65000⟩ : Slot).entry = attentionCode.entry.toNat ∧
    (⟨7, 80000, 65000⟩ : Slot).entry ≠ attentionCode.entry.toNat ∧ (start.bell .b).awaited = none ∧
    Meaning.ofCode attentionCode.meaning.toNat = some .attention ∧ s.recognise .b (code [2] none) = some enteringCode ∧
    (⟨7, 80000, 65000⟩ : Slot).entry = enteringCode.entry.toNat := by decide +kernel

/-- The first entry of the code set with the pattern; a pattern of none; a section that is not fitted. -/
theorem test_meets_CodeEnds_recognition :
    start.sectionRec .b = some sectionB ∧ start.table = yard.take 15 ++ .code offerCode :: yard.drop 16 ∧
    (code [3, 1] none).malformed = false ∧ offerCode.codeSets.getLsbD sectionB.codeSet.toNat = true ∧
    offerCode.groups.map (·.toNat) = (code [3, 1] none).groups ∧
    (yard.all fun r => match r with | .code q => decide (q = offerCode ∨ q.groups.map (·.toNat) ≠ [3, 1]) | _ => true) = true ∧
    (yard.all fun r => match r with | .code q => decide (q.groups.map (·.toNat) ≠ [5]) | _ => true) = true ∧
    ({ code [3, 1] none with malformed := true } : Code).malformed = true ∧ start.sectionRec .a = none := by
  decide +kernel

theorem test_meets_BellDeadlines :
    let s := bellB (fun b => { b with crossed := true, silentSince := some 68200, awaited := some ⟨4, 70000, 55000⟩,
                                      owed := some ⟨7, 70000, 55000⟩ }) start
    (s.bell .b).crossed = true ∧ (s.bell .b).silentSince = some 68200 ∧ 68200 + s.timing.codeEndGap.toNat ≤ s.now ∧
    ¬(68201 + s.timing.codeEndGap.toNat ≤ s.now) ∧ (s.bell .b).awaited = some ⟨4, 70000, 55000⟩ ∧
    (s.bell .b).owed = some ⟨7, 70000, 55000⟩ ∧ (s.bell .b).heldSince = none ∧ (70000 : Nat) ≤ s.now ∧ s.now < 70001 ∧
    (start.bell .b).awaited = none := by decide +kernel

/-! ### The box of the example is one of the states the invariants speak of, and it has a next state -/

theorem test_meets_LockingIsKept : start.verdictsFresh ∧ start.locksLawful := by
  have hv : ∀ n < 49, leverOk n = true → start.leverFitted n = true →
      ((start.lever n).verdict, (start.lever n).blocking) = start.verdictOf n := by decide +kernel
  have hl : ∀ n < 49, leverOk n = true → ((start.lever n).command = .free ↔ start.wantsFree n = true) := by
    decide +kernel
  have hb : ∀ n, leverOk n = true → n < 49 := by intro n h; simp [leverOk] at h; omega
  exact ⟨fun n h => hv n (hb n h) h, fun n h => hl n (hb n h) h⟩

theorem test_meets_OrdersAreKept : start.supplyLawful ∧ start.registerLawful := by
  have ht : ∀ t < 25, (start.track t).failedMark = false ∧ (start.track t).state ≠ .failed ∧
      start.faults.failedSet.getLsbD (t - 1) = false := by
    decide +kernel
  refine ⟨?_, by decide +kernel, fun x => by cases x <;> decide +kernel, fun t _ h2 _ => ?_⟩
  · unfold State.supplyLawful
    decide +kernel
  · obtain ⟨a, b, c⟩ := ht t (by omega)
    simp [a, b, c]

theorem test_meets_SectionsAreKept : start.drivesLawful ∧ start.bellsLawful := by
  have hc : ∀ x : SectionId, (start.bell x).outbound.code = none ∧ (start.bell x).inbound.code = none := by
    intro x; cases x <;> decide +kernel
  refine ⟨fun x => by cases x <;> decide +kernel, fun x => ?_⟩
  obtain ⟨h1, h2⟩ := hc x
  simp [h1, h2]

theorem trackOf_mem (n : Nat) (r : TrackRec) : ∀ rs : List Record, trackOf n rs = some r →
    .track r ∈ rs ∧ r.circuit.toNat = n
  | [], h => by simp [trackOf] at h
  | x :: rs, h => by
    have ih := trackOf_mem n r rs
    cases x <;> simp only [trackOf] at h <;> try split at h
    all_goals simp_all

theorem sequenceOf_mem (n : Nat) (r : SequenceRec) : ∀ rs : List Record, sequenceOf n rs = some r →
    .sequence r ∈ rs ∧ r.number.toNat = n
  | [], h => by simp [sequenceOf] at h
  | x :: rs, h => by
    have ih := sequenceOf_mem n r rs
    cases x <;> simp only [sequenceOf] at h <;> try split at h
    all_goals simp_all

theorem approachOf_mem (n : Nat) (r : ApproachRec) : ∀ rs : List Record, approachOf n rs = some r →
    .approach r ∈ rs ∧ r.number.toNat = n
  | [], h => by simp [approachOf] at h
  | x :: rs, h => by
    have ih := approachOf_mem n r rs
    cases x <;> simp only [approachOf] at h <;> try split at h
    all_goals simp_all

theorem test_meets_CircuitsAndLocksAreKept : start.tracksBounded ∧ start.clearCircuits ∧ start.stepsLawful ∧ start.timingLawful := by
  have ht : start.table = yard := by decide +kernel
  refine ⟨fun t rec h => ?_, fun t rec h => ?_, fun q rec h => ?_, fun a rec h => ?_⟩
  · obtain ⟨hm, rfl⟩ := trackOf_mem t rec yard (ht ▸ h)
    simp only [yard, List.cons_append, List.nil_append, List.mem_cons, reduceCtorEq, false_or, or_false,
      List.not_mem_nil, Record.track.injEq] at hm
    rcases hm with rfl | rfl | rfl | rfl <;> decide +kernel
  · obtain ⟨hm, rfl⟩ := trackOf_mem t rec yard (ht ▸ h)
    simp only [yard, List.cons_append, List.nil_append, List.mem_cons, reduceCtorEq, false_or, or_false,
      List.not_mem_nil, Record.track.injEq] at hm
    rcases hm with rfl | rfl | rfl | rfl <;> decide +kernel
  · obtain ⟨hm, rfl⟩ := sequenceOf_mem q rec yard (ht ▸ h)
    simp only [yard, List.cons_append, List.nil_append, List.mem_cons, reduceCtorEq, false_or, or_false,
      List.not_mem_nil, Record.sequence.injEq] at hm
    subst hm
    decide +kernel
  · obtain ⟨hm, rfl⟩ := approachOf_mem a rec yard (ht ▸ h)
    simp only [yard, List.cons_append, List.nil_append, List.mem_cons, reduceCtorEq, false_or, or_false,
      List.not_mem_nil, Record.approach.injEq] at hm
    have hf : ∀ n < 17, (start.lockn n).phase = .free ∧ (start.lockn n).remaining = none := by decide +kernel
    obtain ⟨h1, h2⟩ := hf rec.number.toNat (by rcases hm with rfl | rfl <;> decide)
    simp [h1, h2]

theorem test_meets_ListsAreKept :
    start.listLawful ∧ start.masksLawful ∧ start.linkLawful ∧ start.stagingLawful := by
  have he : start.faults.entries = [] := by decide +kernel
  refine ⟨?_, fun c h => ?_, ?_, ?_⟩
  · simp [State.listLawful, he]
  · have hm : start.faults.masked = 0x1EC5 := by decide +kernel
    rw [hm]
    rcases h with rfl | rfl | rfl | h
    · decide
    · decide
    · decide
    · have hs : ∀ k < 16, 14 ≤ k → (0x1EC5 : BitVec 16).getLsbD k = false := by decide
      by_cases hc : c < 16
      · exact hs c hc h
      · exact BitVec.getLsbD_of_ge _ _ (by omega)
  · unfold State.linkLawful
    decide +kernel
  · unfold State.stagingLawful
    decide +kernel

/-- Every one of them has a next state. -/
theorem test_meets_a_step : ∃ t, step start = .next t := by
  have h : start.pending = [] := by decide +kernel
  simp [step, h]

end Sys2Proof.Tests
end

