-- ==== Sys2Proof/Proofs/TrackCircuits.lean ====
section
/-! PROOFS. The class of a sample, and what a sample does to the accumulator and the marginal tally (R51 to R53). -/

namespace Sys2Proof.Machine

/-! ### The class of a sample: one equation per row of the table of R51 -/

theorem classify_overRange {pick drop : Nat} {r : Sample} (hr : 1020 ≤ r.toNat) :
    classify pick drop r = .overRange :=
  if_pos hr

/-- Below full scale the table goes on with P and D. -/
theorem classify_inRange {pick drop : Nat} {r : Sample} (hr : r.toNat < 1020) :
    classify pick drop r =
      if pick ≤ r.toNat then .energised else if r.toNat ≤ drop then .shunted else .marginal :=
  if_neg (Nat.not_le.mpr hr)

theorem classify_energised {pick drop : Nat} {r : Sample} (hr : r.toNat < 1020) (hp : pick ≤ r.toNat) :
    classify pick drop r = .energised := by
  rw [classify_inRange hr, if_pos hp]

theorem classify_shunted {pick drop : Nat} {r : Sample} (hr : r.toNat < 1020) (hp : r.toNat < pick)
    (hd : r.toNat ≤ drop) : classify pick drop r = .shunted := by
  rw [classify_inRange hr, if_neg (Nat.not_le.mpr hp), if_pos hd]

theorem classify_marginal {pick drop : Nat} {r : Sample} (hr : r.toNat < 1020) (hp : r.toNat < pick)
    (hd : drop < r.toNat) : classify pick drop r = .marginal := by
  rw [classify_inRange hr, if_neg (Nat.not_le.mpr hp), if_neg (Nat.not_le.mpr hd)]

/-! ### The accumulator and the tally stay in their ranges -/

/-- Only an energised sample raises the accumulator, and that rise stops at C. -/
theorem nextAcc_le {c a : Nat} (k : SampleClass) (ha : a ≤ c) : nextAcc c k a ≤ c := by
  cases k with
  | energised => exact Nat.min_le_left ..
  | marginal => exact (Nat.sub_le ..).trans ha
  | shunted | overRange => exact (Nat.sub_le ..).trans ha

/-- Only a marginal sample raises the tally, and that rise stops at 255. -/
theorem nextTally_le {m : Nat} (k : SampleClass) (hm : m ≤ 255) : nextTally k m ≤ 255 := by
  cases k with
  | marginal => exact Nat.min_le_left ..
  | energised | shunted => exact (Nat.sub_le ..).trans hm
  | overRange => exact hm

/-! ### What one sample does to a circuit -/

namespace TrackState

variable (rec : TrackRec) (r : Sample) (x : TrackState)

@[simp] theorem sample_lastClass :
    (x.sample rec r).lastClass = some (classify rec.pick.toNat rec.drop.toNat r) := rfl

@[simp] theorem sample_tally :
    (x.sample rec r).tally = nextTally (classify rec.pick.toNat rec.drop.toNat r) x.tally := rfl

/-- The accumulator of R52 that the sample leaves, before the half-recovery of an occupation (R55). -/
def accAfter : Nat :=
  nextAcc rec.clearCount.toNat (classify rec.pick.toNat rec.drop.toNat r) x.acc

/-- R55: the sample takes a circuit that is CLEAR to OCCUPIED. -/
def Occupies : Prop :=
  x.state = .clear ∧ x.accAfter rec r + 4 ≤ rec.clearCount.toNat

variable {rec r x}

theorem sample_of_occupies (h : x.Occupies rec r) :
    (x.sample rec r).state = .occupied ∧
      (x.sample rec r).acc = min (x.accAfter rec r) (rec.clearCount.toNat / 2) := by
  obtain ⟨hclear, hlow⟩ := h
  simp only [accAfter] at hlow
  simp [sample, accAfter, hclear, hlow]

theorem sample_acc_of_not_occupies (h : ¬ x.Occupies rec r) : (x.sample rec r).acc = x.accAfter rec r := by
  simp only [Occupies, accAfter] at h
  simp [sample, accAfter, h]

variable (rec r x)

/-- The sample either leaves the accumulator of R52, or occupies the circuit and leaves at most C/2. -/
theorem sample_acc_cases :
    (x.sample rec r).acc = x.accAfter rec r ∨
      (x.state = .clear ∧ (x.sample rec r).state = .occupied ∧
        (x.sample rec r).acc = min (x.accAfter rec r) (rec.clearCount.toNat / 2)) := by
  by_cases h : x.Occupies rec r
  · exact .inr ⟨h.1, sample_of_occupies h⟩
  · exact .inl (sample_acc_of_not_occupies h)

theorem sample_acc_le_accAfter : (x.sample rec r).acc ≤ x.accAfter rec r := by
  obtain hacc | ⟨-, -, hacc⟩ := x.sample_acc_cases rec r
  · exact hacc.le
  · exact hacc.trans_le (Nat.min_le_left ..)

variable {x}

theorem sample_acc_le_clearCount (ha : x.acc ≤ rec.clearCount.toNat) :
    (x.sample rec r).acc ≤ rec.clearCount.toNat :=
  (x.sample_acc_le_accAfter rec r).trans (nextAcc_le _ ha)

end TrackState

/-! ### The obligations -/

/-- Settles O36: the accumulator by whether the sample occupies the circuit, then the class's row of R52 and R53. -/
theorem accumulatorAndTally : Obligations.AccumulatorAndTally := by
  intro rec r x c k a
  have hacc : x.accAfter rec r = a := by
    simp only [TrackState.accAfter, a, k, c]
    cases classify rec.pick.toNat rec.drop.toNat r <;> rfl
  refine ⟨hacc ▸ x.sample_acc_cases rec r, ?_, fun ha hm => ⟨?_, ?_⟩⟩
  · simp only [TrackState.sample_tally, k]
    cases classify rec.pick.toNat rec.drop.toNat r <;> rfl
  · exact TrackState.sample_acc_le_clearCount rec r ha
  · exact nextTally_le _ hm

/-- Settles O35, row by row of R51. -/
theorem sampleClasses : Obligations.SampleClasses := fun _ _ _ =>
  ⟨classify_overRange, classify_energised, classify_shunted, classify_marginal,
    fun rec x => x.sample_lastClass rec _⟩

end Sys2Proof.Machine
end

/-! PROOFS. The link reset (R190), and a request that passes the length test of R183. -/

namespace Sys2Proof.Machine

/-! ### Taking a request -/

namespace State

/-- R183: a request that the part receives, its body of the length its kind requires, goes to its owner. -/
theorem request_of_fits {s : State} {f : List Byte} {lenOk : Bool} (k : RequestKind) (owner : State → State)
    (hr : s.receives f = true) (hl : lenOk = true) : s.request k f lenOk owner = owner s :=
  (if_pos hr).trans (if_pos hl)

/-- R182: to accept a request is to answer it ACCEPTED. -/
theorem accept_eq_answered (k : RequestKind) (data : List Byte) (s : State) :
    s.accept k.code data = s.answered k .accepted data := rfl

end State

/-! ### The link reset -/

theorem exec_linkReset (f : List Byte) (broadcast : Bool) (s : State) :
    exec (.linkReset f broadcast) s = execLinkReset f broadcast s := rfl

/-- By broadcast the reset is all that comes about: no reply is formed. -/
theorem exec_linkReset_broadcast (s : State) : exec (.linkReset [] true) s = .next s.resetLink := by
  simp [exec_linkReset, execLinkReset]

theorem exec_linkReset_addressed {s : State} (hr : s.receives [] = true) :
    exec (.linkReset [] false) s = .next (s.resetLink.answered .linkReset .accepted []) := by
  have hfits : ([] : List Byte).isEmpty = true := rfl
  simp only [exec_linkReset, execLinkReset, Bool.false_eq_true, if_false]
  rw [State.request_of_fits .linkReset _ hr hfits, State.accept_eq_answered]

/-! ### The obligations -/

/-- Settles O10: the record update of `State.resetLink` names all that a link reset touches; only the addressed one
adds a reply. -/
theorem linkReset : Obligations.LinkReset := fun s =>
  ⟨exec_linkReset_broadcast s, exec_linkReset_addressed⟩

end Sys2Proof.Machine

/-! PROOFS. What every event of the part keeps. The operations of the model are built from a few kinds of update; a
predicate that each kind keeps is kept by every operation, and this is proved here once, for the invariants of
O56 to O60 and for what the statements call unchanged. -/

namespace Sys2Proof.Machine

/-! ### Kinds of update -/

/-- Two records of a lever agree in what its contacts say. -/
def LeverState.SameContacts (l k : LeverState) : Prop :=
  k.normalMade = l.normalMade ∧ k.reverseMade = l.reverseMade ∧ k.readback = l.readback ∧
  k.position = l.position ∧ k.lastProved = l.lastProved

/-- Two records of a lever agree in what the evaluator reads and writes of it (R11 to R13, R29). -/
def LeverState.SameVerdict (l k : LeverState) : Prop :=
  k.position = l.position ∧ k.lastProved = l.lastProved ∧ k.verdict = l.verdict ∧ k.blocking = l.blocking ∧
  k.command = l.command

/-- R73: the step of a sequence within its table, with a step time exactly while it is not 0. -/
def SequenceRec.stepOk (rec : SequenceRec) (x : SequenceState) : Prop :=
  x.step ≤ rec.circuits.length ∧ (x.step = 0 ↔ x.stepTime = none)

/-- R87: the remaining time of a lock in TIMING, at most its hold time, and none in any other state. -/
def ApproachRec.timeOk (rec : ApproachRec) (x : ApproachState) : Prop :=
  (x.phase = .timing ↔ x.remaining.isSome = true) ∧ ∀ m, x.remaining = some m → m ≤ rec.hold.toNat

/-- R129: the drive is that of the state. -/
def SectionState.driveOk (r : SectionState) : Prop := r.drive = driveOf r.state

/-- Two records of a section agree in what conditions read of it (R7) and in what owners keep of it. -/
def SectionState.SameState (r u : SectionState) : Prop :=
  u.state = r.state ∧ u.releaseUsed = r.releaseUsed ∧ u.obstruction = r.obstruction ∧ u.frozen = r.frozen ∧
  u.drive = r.drive

/-- What the track unit makes of a fitted circuit, but for the supervisor's orders: a sample (R50), out of use (R58),
back to FAILED while the order stands, or in use again (R59). -/
def TrackTurn (s : State) (t : Nat) (y : TrackState) : Prop :=
  ∃ rec, s.trackRec t = some rec ∧
    ((∃ r, y = (s.track t).sample rec r) ∨ y = { s.track t with state := .outOfUse } ∨
      ((s.track t).state = .outOfUse ∧ (s.track t).failedMark = true ∧ y = { s.track t with state := .failed }) ∨
      ((s.track t).state = .outOfUse ∧ (s.track t).failedMark = false ∧
        y = (s.track t).recover rec.clearCount.toNat))

/-- A predicate that reports, ends of conditions and all updates keep that no verdict reads. Only the levers of `L`
have their contacts moved. -/
structure Firm (L : Nat → Prop) (P : State → Prop) : Prop where
  report : ∀ c o e d s, P s → P (s.report c o e d)
  endFault : ∀ c o s, P s → P (s.endFault c o)
  lever : ∀ n f s, (s.lever n).SameVerdict (f (s.lever n)) → (L n ∨ (s.lever n).SameContacts (f (s.lever n))) →
    P s → P (s.updLever n f)
  track : ∀ t f s, TrackTurn s t (f (s.track t)) → ((f (s.track t)).state = .clear ↔ (s.track t).state = .clear) →
    P s → P (s.updTrack t f)
  seq : ∀ q f s, (∀ rec, s.seqRec q = some rec → rec.stepOk (s.seqn q) → rec.stepOk (f (s.seqn q))) →
    (f (s.seqn q)).latch = (s.seqn q).latch → P s → P (s.updSeq q f)
  lock : ∀ a f s, (∀ rec, s.approachRec a = some rec → rec.timeOk (s.lockn a) → rec.timeOk (f (s.lockn a))) →
    ((f (s.lockn a)).phase = .free ↔ (s.lockn a).phase = .free) → P s → P (s.updLock a f)
  sect : ∀ x f s, (s.sectn x).SameState (f (s.sectn x)) → P s → P (s.updSect x f)
  notice : ∀ c q s, P s → P (s.sendNotice c q)

/-- A predicate that holds inside a step too: every update keeps it, those that verdicts read as well. -/
structure Rough (L : Nat → Prop) (Q : State → Prop) : Prop where
  report : ∀ c o e d s, Q s → Q (s.report c o e d)
  endFault : ∀ c o s, Q s → Q (s.endFault c o)
  lever : ∀ n f s, (f (s.lever n)).command = (s.lever n).command →
    (L n ∨ (s.lever n).SameContacts (f (s.lever n))) → Q s → Q (s.updLever n f)
  track : ∀ t f s, TrackTurn s t (f (s.track t)) → Q s → Q (s.updTrack t f)
  seq : ∀ q f s, (∀ rec, s.seqRec q = some rec → rec.stepOk (s.seqn q) → rec.stepOk (f (s.seqn q))) →
    Q s → Q (s.updSeq q f)
  lock : ∀ a f s, (∀ rec, s.approachRec a = some rec → rec.timeOk (s.lockn a) → rec.timeOk (f (s.lockn a))) →
    Q s → Q (s.updLock a f)
  sect : ∀ x f s, (f (s.sectn x)).frozen = (s.sectn x).frozen →
    ((s.sectn x).driveOk → (f (s.sectn x)).driveOk) → Q s → Q (s.updSect x f)
  notice : ∀ c q s, Q s → Q (s.sendNotice c q)

theorem Rough.firm {L : Nat → Prop} {Q : State → Prop} (h : Rough L Q) : Firm L Q where
  report := h.report
  endFault := h.endFault
  lever n f s hv := h.lever n f s hv.2.2.2.2
  track t f s ht _ := h.track t f s ht
  seq q f s hs _ := h.seq q f s hs
  lock a f s hs _ := h.lock a f s hs
  sect x f s hx := h.sect x f s hx.2.2.2.1 fun hd => by
    obtain ⟨hst, -, -, -, hdr⟩ := hx
    rw [SectionState.driveOk, hst, hdr]; exact hd
  notice := h.notice

/-- `Q` holds inside a step, and an evaluation makes `P` of it, which the updates that no verdict reads keep. -/
structure Settling (L : Nat → Prop) (Q P : State → Prop) : Prop where
  rough : Rough L Q
  firm : Firm L P
  weaken : ∀ s, P s → Q s
  evaluate : ∀ c s, Q s → P (s.evaluate c)
  /-- A lever that is not fitted stands in no condition (R5). -/
  unfitted : ∀ n f s, L n → s.leverFitted n = false → (f (s.lever n)).verdict = (s.lever n).verdict →
    (f (s.lever n)).blocking = (s.lever n).blocking → (f (s.lever n)).command = (s.lever n).command →
    P s → P (s.updLever n f)

/-- The object of a raise is one that its order can name (R156). -/
def FaultClass.names (c : FaultClass) (obj : Nat) : Prop :=
  (c.order = some .fail → 1 ≤ obj) ∧ (c.order = some .freeze → ∃ x, obj = (secCode x).toNat)

/-- `Settling`, with the raises of 8.3. -/
structure Raising (L : Nat → Prop) (Q P : State → Prop) : Prop extends Settling L Q P where
  raise : ∀ m c o s, c.names o → P s → P (s.raiseWith m c o)
  raiseInside : ∀ m c o s, c.names o → Q s → Q (s.raiseWith m c o)

/-! ### What a predicate that stands keeps under the operations that no verdict reads -/

/-- A fold keeps a property that each of its steps keeps, for the objects of its list. -/
theorem forEach_inv_mem {α : Type} {P : State → Prop} {f : α → State → State} (xs : List α) :
    (∀ x ∈ xs, ∀ s, P s → P (f x s)) → ∀ s, P s → P (forEach xs f s) := by
  induction xs with
  | nil => exact fun _ s hs => hs
  | cons x xs ih =>
    exact fun h s hs => ih (fun y hy => h y (List.mem_cons_of_mem x hy)) (f x s) (h x List.mem_cons_self s hs)

/-- What both branches have, the choice has. -/
theorem ite_keeps {P : State → Prop} {c : Prop} [Decidable c] {s t : State} (hs : P s) (ht : P t) :
    P (if c then s else t) := by
  split
  · exact hs
  · exact ht

namespace Firm

variable {L : Nat → Prop} {P : State → Prop} (h : Firm L P) {s : State}
include h

theorem endIf (b : Bool) (c : FaultClass) (o : Nat) (hs : P s) : P (s.endIf b c o) := by
  unfold State.endIf; split
  · exact h.endFault _ _ _ hs
  · exact hs

theorem sectReports (x : SectionId) (rows : List (Nat × List Byte)) : ∀ {s : State}, P s → P (s.sectReports x rows) := by
  induction rows with
  | nil => exact id
  | cons r rows ih => exact fun hs => ih (h.report _ _ _ _ _ hs)

theorem endContact (n : Nat) (hs : P s) : P (s.endContact n) :=
  h.endIf _ _ _ (h.lever n _ s ⟨rfl, rfl, rfl, rfl, rfl⟩ (.inr ⟨rfl, rfl, rfl, rfl, rfl⟩) hs)

theorem endForced (n : Nat) (hs : P s) : P (s.endForced n) :=
  h.endIf _ _ _ (h.lever n _ s ⟨rfl, rfl, rfl, rfl, rfl⟩ (.inr ⟨rfl, rfl, rfl, rfl, rfl⟩) hs)

theorem freshWindow (n : Nat) (hs : P s) : P (s.freshWindow n) := by
  unfold State.freshWindow; split
  · exact h.lever n _ s ⟨rfl, rfl, rfl, rfl, rfl⟩ (.inr ⟨rfl, rfl, rfl, rfl, rfl⟩) hs
  · exact hs

/-! Sequences. -/

theorem breakSequence (q : Nat) (w : BreakCause) (hs : P s) : P (s.breakSequence q w) :=
  h.report _ _ _ _ _ (h.seq q _ s (fun _ _ _ => ⟨Nat.zero_le _, by simp⟩) rfl hs)

theorem entryHanded (t : Nat) (w : BreakCause) (hs : P s) : P (s.entryHanded t w) := by
  refine forEach_inv (fun q u hu => ?_) _ s hs
  unfold State.entrySeq; split
  · exact hu
  · split
    · exact h.breakSequence q w hu
    · exact hu

/-- R74: step 1, in a sequence that lists the circuit. -/
theorem startSeq (t q : Nat) (r : SequenceRec) (hr : s.seqRec q = some r) (hl : r.lists t = true) (hs : P s) :
    P (s.startSeq t q r) := by
  have hpos : 1 ≤ r.circuits.length := by
    cases hc : r.circuits with
    | nil => simp [SequenceRec.lists, hc] at hl
    | cons => simp
  unfold State.startSeq; split
  · split
    · refine h.report _ _ _ _ _ (h.seq q _ s (fun rec hrec _ => ?_) rfl hs)
      obtain rfl : rec = r := Option.some.inj (hrec.symm.trans hr)
      exact ⟨hpos, by simp⟩
    · exact h.report _ _ _ _ _ hs
  · exact hs

/-! Approach locks. -/

theorem releaseTest (a : Nat) (hs : P s) : P (s.releaseTest a) := by
  unfold State.releaseTest; split
  · exact hs
  · dsimp only; split
    · exact h.notice _ _ _ (h.lock a _ s (fun _ _ => id) Iff.rfl hs)
    · exact hs

theorem trackAtLocks (t : Nat) (b : Byte) (hs : P s) : P (s.trackAtLocks t b) := by
  refine forEach_inv (fun a u hu => ?_) _ s hs
  unfold State.trackAtLock; split
  · exact hu
  · split
    · exact h.report _ _ _ _ _ hu
    · exact hu

theorem settingAtLocks (q : Nat) (hs : P s) : P (s.settingAtLocks q) := by
  refine forEach_inv (fun a u hu => ?_) _ s hs
  unfold State.settingAtLock; split
  · exact hu
  · split
    · exact h.releaseTest _ hu
    · exact hu

/-- R93: the hold time of a lock that was not FREE begins. -/
theorem startTiming (a : Nat) (rec : ApproachRec) (hr : s.approachRec a = some rec) (hp : (s.lockn a).phase ≠ .free)
    (hs : P s) : P (s.startTiming a rec.hold) := by
  refine h.lock a _ s (fun rec' hr' _ => ?_) (by simp [hp]) hs
  obtain rfl : rec' = rec := Option.some.inj (hr'.symm.trans hr)
  exact ⟨by simp, fun m hm => (Option.some.inj hm).ge⟩

theorem pressLocks (k : Nat) (hs : P s) : P (s.pressLocks k) := by
  refine forEach_inv (fun a u hu => ?_) _ s hs
  unfold State.pressLock; split
  · exact hu
  · rename_i rec hrec
    split
    · rename_i hp
      exact h.releaseTest _ (h.report _ _ _ _ _ (h.startTiming a rec hrec (by simp [hp.2]) hu))
    · exact hu

/-! Sections. -/

theorem correspond (x : SectionId) (hs : P s) : P (s.correspond x) := by
  have put : ∀ b, P (s.updSect x fun y => { y with outOfCorr := b }) := fun b =>
    h.sect x _ s ⟨rfl, rfl, rfl, rfl, rfl⟩ hs
  unfold State.correspond; dsimp only; split
  · exact hs
  · split
    · exact hs
    · split
      · split
        · exact h.report _ _ _ _ _ (put false)
        · exact hs
      · exact h.report _ _ _ _ _ (put true)

theorem holdHandle (x : SectionId) (b : Bool) (hs : P s) : P (s.holdHandle x b) :=
  h.report _ _ _ _ _ (h.sect x _ s ⟨rfl, rfl, rfl, rfl, rfl⟩ hs)

theorem handleHeld (x : SectionId) (hs : P s) : P (s.handleHeld x) := by
  unfold State.handleHeld; dsimp only; split
  · exact hs
  · split
    · exact h.report _ _ _ _ _ hs
    · exact h.holdHandle x _ hs

theorem blockBackTest (x : SectionId) (hs : P s) : P (s.blockBackTest x) := by
  unfold State.blockBackTest; split
  · exact hs
  · dsimp only; split
    · exact h.notice _ _ _ (h.sect x _ s ⟨rfl, rfl, rfl, rfl, rfl⟩ hs)
    · exact hs

theorem setEarlyClear (x : SectionId) (hs : P s) : P (s.setEarlyClear x) :=
  h.report _ _ _ _ _ (h.sect x _ s ⟨rfl, rfl, rfl, rfl, rfl⟩ hs)

end Firm

/-! ### What an evaluation restores -/

@[simp] theorem SectionState.entering_frozen (b : BlockState) (r : SectionState) : (r.entering b).frozen = r.frozen := by
  cases b <;> rfl

@[simp] theorem SectionState.driven_frozen (d : Drive) (r : SectionState) : (r.driven d).frozen = r.frozen := by
  unfold SectionState.driven; split <;> rfl

@[simp] theorem SectionState.driven_drive (d : Drive) (r : SectionState) : (r.driven d).drive = d := by
  unfold SectionState.driven; split
  · assumption
  · rfl

/-- R148: an entry into a state begins no cause of INDICATOR_MISMATCH, so it raises nothing. -/
theorem State.enterState_eq (x : SectionId) (b : BlockState) (w : StateCause) (rs : List (Nat × List Byte)) (s : State) :
    let u := s.updSect x fun r => { (r.entering b).driven (driveOf (some b)) with state := some b, retest := false }
    s.enterState x b w rs =
      (((((u.endIf ((s.sectn x).mismatch && !(u.sectn x).mismatch) .indicatorMismatch (secCode x).toNat).sectReport x 1
        [optBlock (s.sectn x).state, b.code, w.code]).sectReports x rs).correspond x).evaluate .verdict) := by
  intro u
  have hu : (u.sectn x).mismatch = true → (s.sectn x).mismatch = true := by
    rw [State.sectn_updSect_same]; exact (State.entered_eq b _).2
  have hedge : u.mismatchEdge x (s.sectn x).mismatch =
      u.endIf ((s.sectn x).mismatch && !(u.sectn x).mismatch) .indicatorMismatch (secCode x).toNat := by
    unfold State.mismatchEdge State.endIf
    cases hw : (s.sectn x).mismatch <;> cases hm : (u.sectn x).mismatch <;> simp_all
  rw [← hedge]; rfl

namespace Settling

variable {L : Nat → Prop} {Q P : State → Prop} (h : Settling L Q P) {s : State}
include h

/-- What holds inside a step is restored as well. -/
theorem inner : Settling L Q Q where
  rough := h.rough
  firm := h.rough.firm
  weaken _ := id
  evaluate c s hs := h.weaken _ (h.evaluate c s hs)
  unfitted n f s hn _ _ _ hc := h.rough.lever n f s hc (.inl hn)

/-! Approach locks. -/

theorem freeLock (a r : Nat) (d : List Byte) (hs : Q s) : P (s.freeLock a r d) :=
  h.evaluate _ _ (h.rough.report _ _ _ _ _ (h.rough.lock a _ s (fun _ _ _ => ⟨by simp, by simp⟩) hs))

theorem engageLocks (n : Nat) (w : EngageCause) (hs : P s) : P (s.engageLocks n w) := by
  refine forEach_inv (fun a u hu => ?_) _ s hs
  unfold State.engageLock; split
  · exact hu
  · dsimp only; split
    · have engaged : ∀ rec, u.approachRec a = some rec → rec.timeOk (u.lockn a) →
          rec.timeOk { u.lockn a with phase := .engaged, remaining := none, since := u.now } :=
        fun _ _ _ => ⟨by simp, by simp⟩
      split
      · exact h.evaluate _ _ (h.rough.report _ _ _ _ _ (h.rough.lock a _ u engaged (h.weaken _ hu)))
      · rename_i hp
        exact h.firm.report _ _ _ _ _ (h.firm.lock a _ u engaged (by simp [hp]) hu)
    · exact hu

theorem replaceLocks (n : Nat) (hs : P s) : P (s.replaceLocks n) := by
  refine forEach_inv (fun a u hu => ?_) _ s hs
  unfold State.replaceLock; split
  · exact hu
  · rename_i rec hrec
    split
    · rename_i hp
      dsimp only; split
      · split
        · exact h.firm.releaseTest _ (h.firm.report _ _ _ _ _ (h.firm.startTiming a rec hrec (by simp [hp.2]) hu))
        · exact h.firm.releaseTest _ (h.firm.report _ _ _ _ _
            (h.firm.lock a _ u (fun _ _ _ => ⟨by simp, by simp⟩) (by simp [hp.2]) hu))
      · exact h.freeLock a 2 [] (h.weaken _ hu)
    · exact hu

theorem approachAnswer (a : Nat) (x : Answer) (hs : P s) : P (s.approachAnswer a x) := by
  have asks : P (s.updLock a fun r => { r with releaseAsked := false }) :=
    h.firm.lock a _ s (fun _ _ => id) Iff.rfl hs
  unfold State.approachAnswer; split
  · dsimp only; split
    · split
      · exact h.freeLock _ _ _ (h.weaken _ asks)
      · exact h.freeLock _ _ _ (h.weaken _ asks)
      · exact h.firm.report _ _ _ _ _ asks
      · exact h.firm.report _ _ _ _ _ asks
    · exact asks
  · exact hs

/-! Sections. -/

theorem enterState (x : SectionId) (b : BlockState) (w : StateCause) (rs : List (Nat × List Byte)) (hs : Q s) :
    P (s.enterState x b w rs) := by
  rw [State.enterState_eq]
  refine h.evaluate _ _ (h.rough.firm.correspond _ (h.rough.firm.sectReports _ _ (h.rough.report _ _ _ _ _
    (h.rough.firm.endIf _ _ _ (h.rough.sect x _ s (by simp)
      (fun _ => SectionState.driven_drive _ _) hs)))))

theorem followPolarity (x : SectionId) (c : Bool) (hs : P s) : P (s.followPolarity x c) := by
  have stay : ∀ rs, P (s.sectReports x rs) := fun rs => h.firm.sectReports x rs hs
  have enter : ∀ b w rs, P (s.enterState x b w rs) := fun b w rs => h.enterState x b w rs (h.weaken _ hs)
  have early : ∀ {u : State} (b : Bool), P u → P (u.updSect x fun y => { y with earlyClear := b }) := fun b hu =>
    h.firm.sect x _ _ ⟨rfl, rfl, rfl, rfl, rfl⟩ hu
  unfold State.followPolarity; dsimp only; split
  · exact stay _
  · split
    · exact h.firm.setEarlyClear x (stay _)
    · exact enter _ _ _
    · split
      · exact h.firm.report _ _ _ _ _ (early _ (stay _))
      · exact stay _
    · exact enter _ _ _
    · exact enter _ _ _
    · exact enter _ _ _
    · exact enter _ _ _
    · exact enter _ _ _
    · exact enter _ _ _
    · exact early _ (enter _ _ _)
    · exact enter _ _ _
    · exact stay _

theorem retestHandle (x : SectionId) (o : Option Exchange) (hs : P s) : P (s.retestHandle x o) := by
  have stay : ∀ rs, P (s.sectReports x rs) := fun rs => h.firm.sectReports x rs hs
  have enter : ∀ b w rs, P (s.enterState x b w rs) := fun b w rs => h.enterState x b w rs (h.weaken _ hs)
  unfold State.retestHandle; dsimp only; split
  · split
    · split
      · exact enter _ _ _
      · exact stay _
    · split
      · exact enter _ _ _
      · exact stay _
    · exact h.firm.blockBackTest x (stay _)
    · exact stay _
  · exact stay _

theorem handleEvent (x : SectionId) (hs : P s) : P (s.handleEvent x) := by
  have enter : ∀ b w, P (s.enterState x b w []) := fun b w => h.enterState x b w [] (h.weaken _ hs)
  have hold : ∀ b, P (s.holdHandle x b) := fun b => h.firm.holdHandle x b hs
  unfold State.handleEvent; dsimp only; split
  · exact hs
  · split
    · exact h.firm.report _ _ _ _ _ hs
    · split
      · exact h.firm.correspond x hs
      · split
        · exact hold _
        · split
          · split
            · exact enter _ _
            · exact hold _
          · exact enter _ _
          · split
            · exact enter _ _
            · exact hold _
          · exact h.firm.blockBackTest _ (hold _)
          · exact hold _

theorem takeHandle (x : SectionId) (hs : P s) : P (s.takeHandle x) := by
  unfold State.takeHandle; split
  · split
    · exact hs
    · exact h.firm.handleHeld x hs
    all_goals exact h.handleEvent x hs
  · exact hs

theorem sampleRetest (x : SectionId) (hs : P s) : P (s.sampleRetest x) := by
  unfold State.sampleRetest; split
  · exact h.retestHandle x _ hs
  · exact hs

/-- R133: a change of obstruction with its report. -/
theorem obstruct (x : SectionId) (b : Bool) (d : List Byte) (hs : Q s) :
    P (((s.updSect x fun r => { r with obstruction := b }).sectReport x 6 d).evaluate .verdict) :=
  h.evaluate _ _ (h.rough.report _ _ _ _ _ (h.rough.sect x _ s rfl id hs))

theorem urgentReceipt (x : SectionId) (hs : P s) : P (s.urgentReceipt x) := by
  unfold State.urgentReceipt; split
  · exact h.obstruct x true _ (h.weaken _ hs)
  · exact hs

theorem obstructionRemoved (x : SectionId) (hs : P s) : P (s.obstructionRemoved x) := by
  unfold State.obstructionRemoved; split
  · exact h.obstruct x false _ (h.weaken _ hs)
  · exact hs

theorem judgeExchange (x : SectionId) (e : Exchange) (hs : P s) : P (s.judgeExchange x e) := by
  have same : ∀ o, P (s.exchangeReport x e o) := fun o => h.firm.sectReports x _ hs
  have acted : ∀ f b w rs, (∀ r : SectionState, r.SameState (f r)) → P ((s.updSect x f).enterState x b w rs) :=
    fun f b w rs hf => h.enterState x b w rs (h.weaken _ (h.firm.sect x f s (hf _) hs))
  unfold State.judgeExchange; dsimp only
  split
  · split <;> exact acted _ _ _ _ fun _ => ⟨rfl, rfl, rfl, rfl, rfl⟩
  · exact acted _ _ _ _ fun _ => ⟨rfl, rfl, rfl, rfl, rfl⟩
  · exact same _
  · exact acted _ _ _ _ fun _ => ⟨rfl, rfl, rfl, rfl, rfl⟩
  · exact acted _ _ _ _ fun _ => ⟨rfl, rfl, rfl, rfl, rfl⟩
  · exact acted _ _ _ _ fun _ => ⟨rfl, rfl, rfl, rfl, rfl⟩
  · split
    · exact same _
    · exact h.retestHandle x _ (h.firm.sect x _ s ⟨rfl, rfl, rfl, rfl, rfl⟩ hs)
  · exact same _

theorem announced (x : SectionId) (e : Exchange) (hs : P s) : P (s.announced x e) := by
  unfold State.announced; split
  · exact hs
  · split
    · exact h.firm.sectReports x _ hs
    · exact h.judgeExchange x e hs

theorem takeExchange (x : SectionId) (e : Exchange) (hs : P s) : P (s.takeExchange x e) := by
  have told : ∀ {u : State} o, P u → P (u.exchangeReport x e o) := fun o hu => h.firm.sectReports x _ hu
  unfold State.takeExchange; dsimp only; split
  · exact hs
  · split
    · exact told _ hs
    · split
      · exact told _ (h.firm.sect x _ s ⟨rfl, rfl, rfl, rfl, rfl⟩ hs)
      · exact h.obstructionRemoved x (told _ hs)
      · split
        · exact told _ hs
        · exact h.announced x e hs
      · split
        · exact told _ hs
        · exact h.announced x e hs
      · split
        · exact told _ hs
        · split
          · exact h.retestHandle x _ (h.firm.sect x _ s ⟨rfl, rfl, rfl, rfl, rfl⟩ hs)
          · exact told _ hs
      · split
        · exact told _ hs
        · exact told _ hs

theorem clearingAtSections (t : Nat) (hs : P s) : P (s.clearingAtSections t) := by
  refine forEach_inv (fun x u hu => ?_) _ s hs
  unfold State.clearingAtSection; split
  · exact hu
  · split
    · exact h.retestHandle x _ hu
    · exact hu

theorem settingAtSections (q : Nat) (hs : P s) : P (s.settingAtSections q) := by
  refine forEach_inv (fun x u hu => ?_) _ s hs
  unfold State.settingAtSection; split
  · exact hu
  · split
    · exact h.retestHandle x _ hu
    · exact hu

theorem blockAnswer (x : SectionId) (a : Answer) (hs : P s) : P (s.blockAnswer x a) := by
  have asked : P (s.updSect x fun y => { y with consumeAsked := false }) :=
    h.firm.sect x _ s ⟨rfl, rfl, rfl, rfl, rfl⟩ hs
  unfold State.blockAnswer; split
  · dsimp only; split
    · split
      · exact h.firm.report _ _ _ _ _ asked
      · exact h.enterState _ _ _ _ (h.weaken _ asked)
    · exact asked
  · exact hs

/-- R145: of an unfreeze, all that follows the end of the freeze. -/
theorem unfreeze (x : SectionId)
    (thaw : (s.sectn x).frozen = true → Q (s.updSect x fun r => { r with frozen := false }))
    (stands : (s.sectn x).frozen = false → P s) : P (s.unfreeze x) := by
  unfold State.unfreeze; split
  · rename_i hf
    have taken := h.followPolarity x false (h.evaluate .verdict _ (h.rough.report .sec (secCode x).toNat 8 [1] _
      (thaw hf)))
    dsimp only; split
    · exact h.firm.handleHeld _ taken
    · exact h.firm.handleHeld _ taken
    all_goals exact h.handleEvent _ taken
  · rename_i hf
    exact stands (by simpa using hf)

theorem startSections (hs : P s) : P s.startSections := by
  refine forEach_inv (fun x u hu => ?_) _ s hs
  unfold State.startSection; split
  · dsimp only
    have started : Q ((u.updSect x fun y =>
        { y.driven (driveOf (some (State.startStateOf (u.sectn x).handle (u.sectn x).measured).1)) with
          state := some (State.startStateOf (u.sectn x).handle (u.sectn x).measured).1
          releaseUsed := (State.startStateOf (u.sectn x).handle (u.sectn x).measured).2
          earlyClear := false, cancelReceived := false, outSent := false, offered := none
          retest := false }).sectReport x 8 [2, (u.sectn x).handle.code, (u.sectn x).measured.code]) := by
      refine h.rough.report _ _ _ _ _ (h.rough.sect x _ u (by simp)
        (fun _ => SectionState.driven_drive _ _) (h.weaken _ hu))
    split
    · exact h.evaluate _ _ started
    · exact h.evaluate _ _ (h.rough.firm.holdHandle _ _ started)
  · exact hu

/-! Sequences and circuits. -/

theorem completeSeq (q : Nat) (hs : P s) : P (s.completeSeq q) := by
  unfold State.completeSeq; split
  · exact h.firm.report _ _ _ _ _ (h.firm.seq q _ s (fun _ _ _ => ⟨Nat.zero_le _, by simp⟩) rfl hs)
  · exact h.settingAtSections q (h.firm.settingAtLocks q (h.evaluate _ _ (h.rough.report _ _ _ _ _
      (h.rough.seq q _ s (fun _ _ _ => ⟨Nat.zero_le _, by simp⟩) (h.weaken _ hs)))))

theorem occupationHanded (t : Nat) (hs : P s) : P (s.occupationHanded t) := by
  refine forEach_inv (fun q u hu => ?_) _ s hs
  unfold State.occupationAtSeq; split
  · exact hu
  · rename_i r hr
    have broken : ∀ w, P ((u.breakSequence q w).startSeq t q r) ∨ r.lists t = false := fun w => by
      cases hl : r.lists t
      · exact .inr rfl
      · refine .inl (h.firm.startSeq t q r ?_ hl (h.firm.breakSequence q w hu))
        obtain ⟨_, _, _, _, _, _, he⟩ := State.breakSequence_only q w u
        rw [he]; exact hr
    dsimp only; split
    · exact hu
    · rename_i hl
      split
      · exact h.firm.startSeq t q r hr (by simpa using hl) hu
      · split
        · rename_i hk
          split
          · exact (broken _).resolve_right hl
          · have advanced : P ((u.updSeq q fun x => { x with step := (u.seqn q).step + 1, stepTime := some u.now }).report
                .seq q 1 [byte ((u.seqn q).step + 1), byte t]) := by
              refine h.firm.report _ _ _ _ _ (h.firm.seq q _ u (fun rec hrec _ => ?_) rfl hu)
              obtain rfl : rec = r := Option.some.inj (hrec.symm.trans hr)
              exact ⟨hk.1, by simp⟩
            split
            · exact h.completeSeq _ advanced
            · exact advanced
        · exact (broken _).resolve_right hl

theorem clearingHanded (t : Nat) (hs : P s) : P (s.clearingHanded t) := by
  refine forEach_inv (fun q u hu => ?_) _ s hs
  unfold State.clearingAtSeq; split
  · exact hu
  · dsimp only; split
    · exact h.completeSeq q hu
    · exact hu

theorem occupationOf (t : Nat) (hs : Q s) : P (s.occupationOf t) :=
  h.firm.trackAtLocks t 0 (h.occupationHanded t (h.evaluate _ _ hs))

theorem clearingOf (t : Nat) (hs : Q s) : P (s.clearingOf t) :=
  h.clearingAtSections t (h.firm.trackAtLocks t 1 (h.clearingHanded t (h.evaluate _ _ hs)))

theorem takeOutOfUse (t : Nat) (hf : s.trackFitted t = true) (hs : P s) : P (s.takeOutOfUse t) := by
  obtain ⟨rec, hrec⟩ := Option.isSome_iff_exists.1 hf
  have turn : TrackTurn s t { s.track t with state := .outOfUse } := ⟨rec, hrec, .inr (.inl rfl)⟩
  have stays : (s.track t).state ≠ .clear → ∀ b,
      P (((s.updTrack t fun x => { x with state := .outOfUse }).trackReport t 3 [] b).entryHanded t .outOfUse) :=
    fun hc b => h.firm.entryHanded _ _ (h.firm.report _ _ _ _ _ (h.firm.track t _ s turn (by simp [hc]) hs))
  unfold State.takeOutOfUse; dsimp only; split
  · exact hs
  · exact h.firm.entryHanded _ _ (h.evaluate _ _ (h.rough.report _ _ _ _ _ (h.rough.track t _ s turn (h.weaken _ hs))))
  · rename_i hc; rw [hc]; exact stays (by simp [hc]) _
  · rename_i hc; rw [hc]; exact stays (by simp [hc]) _

theorem putInUse (t : Nat) (rec : TrackRec) (hr : s.trackRec t = some rec) (ho : (s.track t).state = .outOfUse)
    (hs : P s) : P (s.putInUse t rec.clearCount.toNat) := by
  unfold State.putInUse; dsimp only; split
  · rename_i hm
    exact h.firm.entryHanded _ _ (h.firm.report _ _ _ _ _
      (h.firm.track t _ s ⟨rec, hr, .inr (.inr (.inl ⟨ho, hm, rfl⟩))⟩ (by simp [ho]) hs))
  · rename_i hm
    exact h.firm.report _ _ _ _ _
      (h.firm.track t _ s ⟨rec, hr, .inr (.inr (.inr ⟨ho, by simpa using hm, rfl⟩))⟩
        (by simp [ho, TrackState.recover]) hs)

/-! Levers. -/

theorem continueStroke (n : Nat) (hn : L n) (hs : Q s) : P (s.continueStroke n) :=
  h.evaluate _ _ (h.rough.firm.endContact n (h.rough.lever n _ s rfl (.inl hn) hs))

theorem proveQuietly (n r : Nat) (d : List Byte) (e : LeverEnd) (hn : L n) (hs : Q s) : P (s.proveQuietly n r d e) :=
  h.evaluate _ _ (h.rough.firm.endForced n (h.rough.firm.endContact n (h.rough.report _ _ _ _ _
    (h.rough.lever n _ s rfl (.inl hn) hs))))

/-- R22, R28: a lever that is not fitted moves. -/
theorem unfittedMove (n : Nat) (p : Position) (hn : L n) (hf : s.leverFitted n = false) (hs : P s) :
    P (s.unfittedMove n p) := by
  have moved : ∀ f : LeverState → LeverState, (∀ l, (f l).verdict = l.verdict ∧ (f l).blocking = l.blocking ∧
      (f l).command = l.command) → P (s.updLever n f) := fun f hv =>
    h.unfitted n f s hn hf (hv _).1 (hv _).2.1 (hv _).2.2 hs
  have proved : ∀ e, P (s.proveAt n e) := fun e => moved _ fun _ => ⟨rfl, rfl, rfl⟩
  have ends : ∀ e : LeverEnd,
      P (match (s.lever n).lastProved with
        | none => s.proveAt n e
        | some o =>
          if o ≠ e then (s.proveAt n e).leverReport n 10 [0, e.code]
          else if (s.lever n).position = .transit then (s.proveAt n e).leverReport n 10 [1, e.code]
          else s.proveAt n e) := fun e => by
    split
    · exact proved e
    · split
      · exact h.firm.report _ _ _ _ _ (proved e)
      · split
        · exact h.firm.report _ _ _ _ _ (proved e)
        · exact proved e
  cases p
  · exact ends .normal
  · exact ends .reverse
  · exact moved (fun x => { x with position := .transit, transitSince := s.now, notHome := false }) fun _ => ⟨rfl, rfl, rfl⟩
  · exact moved (fun x => { x with position := .contactFault, notHome := false }) fun _ => ⟨rfl, rfl, rfl⟩

end Settling

/-! ### What raises keep -/

/-- R61: a circuit fails. -/
def TrackState.failedBy (x : TrackState) : TrackState := { x with state := .failed, failedMark := true }

/-- R61: a circuit that is OUT_OF_USE takes the fail order as its mark. -/
def TrackState.markedBy (x : TrackState) : TrackState := { x with failedMark := true }

/-- R144: the freeze. -/
def SectionState.frozenBy (r : SectionState) : SectionState := { r with frozen := true }

/-- The parts of a raise and of its order (R155, R156): what they keep makes a `Raising` of a `Settling`. -/
structure Ordering (L : Nat → Prop) (Q P : State → Prop) : Prop extends Settling L Q P where
  enterRaise : ∀ c o m s, P s → P (s.enterRaise c o m)
  enterRaiseInside : ∀ c o m s, Q s → Q (s.enterRaise c o m)
  register : ∀ r o s, P s → P (s.register r o)
  registerInside : ∀ r o s, Q s → Q (s.register r o)
  supply : ∀ b s, Q s → Q { s with frame := { s.frame with supplyOn := b } }
  mark : ∀ t s, P s → P (s.updTrack t TrackState.markedBy)
  markInside : ∀ t s, Q s → Q (s.updTrack t TrackState.markedBy)
  failUnread : ∀ t s, (s.track t).state ≠ .clear → P s → P (s.updTrack t TrackState.failedBy)
  fail : ∀ t s, Q s → Q (s.updTrack t TrackState.failedBy)
  freeze : ∀ x s, Q s → Q (s.updSect x SectionState.frozenBy)

namespace Ordering

variable {L : Nat → Prop} {Q P : State → Prop} (h : Ordering L Q P) {s : State}
include h

theorem inner : Ordering L Q Q where
  toSettling := h.toSettling.inner
  enterRaise := h.enterRaiseInside
  enterRaiseInside := h.enterRaiseInside
  register := h.registerInside
  registerInside := h.registerInside
  supply := h.supply
  mark := h.markInside
  markInside := h.markInside
  failUnread t s _ := h.fail t s
  fail := h.fail
  freeze := h.freeze

theorem cutFrame (hs : P s) : P s.cutFrame := by
  unfold State.cutFrame; split
  · exact h.firm.report _ _ _ _ _ (h.evaluate _ _ (h.supply false s (h.weaken _ hs)))
  · exact hs

theorem failTrack (t : Nat) (hs : P s) : P (s.failTrack t) := by
  unfold State.failTrack; dsimp only; split
  · exact hs
  · exact h.firm.report _ _ _ _ _ (h.mark t s hs)
  · exact h.firm.entryHanded _ _ (h.evaluate _ _ (h.rough.report _ _ _ _ _ (h.fail t s (h.weaken _ hs))))
  · rename_i ho
    exact h.firm.entryHanded _ _ (h.firm.report _ _ _ _ _ (h.failUnread t s (by simp [ho]) hs))

theorem freezeSection (x : SectionId) (hs : P s) : P (s.freezeSection x) := by
  unfold State.freezeSection; split
  · exact hs
  · exact h.evaluate _ _ (h.rough.report _ _ _ _ _ (h.freeze x s (h.weaken _ hs)))

theorem deliver (r : Order) (o : Nat) (hs : P s) : P (s.deliver r o) := by
  cases r
  · exact h.cutFrame hs
  · exact h.failTrack o hs
  · simp only [State.deliver]; split
    · exact hs
    · exact h.freezeSection _ hs

theorem raiseWith (m : Bool) (c : FaultClass) (o : Nat) (hs : P s) : P (s.raiseWith m c o) := by
  have entered := h.enterRaise c o m s hs
  unfold State.raiseWith; dsimp only; split
  · exact entered
  · split
    · exact h.deliver _ _ (h.register _ _ _ entered)
    · exact entered

theorem raising : Raising L Q P where
  toSettling := h.toSettling
  raise m c o _ _ := h.raiseWith m c o
  raiseInside m c o _ _ := h.inner.raiseWith m c o

end Ordering

/-! ### What the events of the field keep -/

theorem FaultClass.names_secCode {c : FaultClass} (x : SectionId) (hc : c.order ≠ some .fail) :
    c.names (secCode x).toNat := ⟨fun h => (hc h).elim, fun _ => ⟨x, rfl⟩⟩

theorem FaultClass.names_track {c : FaultClass} {t : Nat} (ht : 1 ≤ t) (hc : c.order ≠ some .freeze) : c.names t :=
  ⟨fun _ => ht, fun h => (hc h).elim⟩

theorem FaultClass.names_of_frame {c : FaultClass} {o : Nat} (hc : c.order = none ∨ c.order = some .frameCut) :
    c.names o := by
  rcases hc with hc | hc <;> exact ⟨by simp [hc], by simp [hc]⟩

namespace Raising

variable {L : Nat → Prop} {Q P : State → Prop} (h : Raising L Q P) {s : State}
include h

theorem inner : Raising L Q Q where
  toSettling := h.toSettling.inner
  raise := h.raiseInside
  raiseInside := h.raiseInside

/-! Sections. -/

theorem irregular (x : SectionId) (hs : P s) : P (s.irregular x) :=
  h.raise true .blockIrregular _ s (FaultClass.names_secCode x (by decide)) hs

theorem mismatchEdge (x : SectionId) (w : Bool) (hs : P s) : P (s.mismatchEdge x w) := by
  unfold State.mismatchEdge; dsimp only; split
  · exact h.raise _ _ _ _ (FaultClass.names_secCode x (by decide)) hs
  · split
    · exact h.firm.endFault _ _ _ hs
    · exact hs

theorem takePolarity (x : SectionId) (c : Bool) (hs : P s) : P (s.takePolarity x c) := by
  unfold State.takePolarity; dsimp only; split
  · exact h.irregular x (h.followPolarity x c hs)
  · exact h.followPolarity x c hs

theorem scaleStage (x : SectionId) (b : Bool) (hs : P s) : P (s.scaleStage x b) :=
  h.mismatchEdge _ _ (h.firm.sect x _ s (by cases b <;> exact ⟨rfl, rfl, rfl, rfl, rfl⟩) hs)

theorem driveStage (x : SectionId) (c : Option Polarity) (hs : P s) : P (s.driveStage x c) := by
  unfold State.driveStage; dsimp only; split
  · exact hs
  · exact h.mismatchEdge _ _ (h.firm.sect x _ s (by split <;> exact ⟨rfl, rfl, rfl, rfl, rfl⟩) hs)

theorem measureStage (x : SectionId) (c : Option Polarity) (r : Sample) (hs : P s) : P (s.measureStage x c r) := by
  have confirmed : P (s.updSect x fun y => ({ y with lastRaw := r } : SectionState).confirm c) := by
    refine h.firm.sect x _ s ?_ hs
    unfold SectionState.confirm
    split
    · exact ⟨rfl, rfl, rfl, rfl, rfl⟩
    · split
      · exact ⟨rfl, rfl, rfl, rfl, rfl⟩
      · rename_i p _
        dsimp only; generalize (if (s.sectn x).candidate = some p then (s.sectn x).candRun + 1 else 1) = run
        split <;> exact ⟨rfl, rfl, rfl, rfl, rfl⟩
  unfold State.measureStage; dsimp only; split
  · exact confirmed
  · exact h.takePolarity x true confirmed

theorem sectionSample (x : SectionId) (r : Sample) (hs : P s) : P (s.sectionSample x r) := by
  unfold State.sectionSample; split
  · exact hs
  · exact h.sampleRetest _ (h.driveStage _ _ (h.scaleStage _ _ (h.measureStage _ _ _ hs)))

theorem signalAtSections (n : Nat) (e : LeverEnd) (hs : P s) : P (s.signalAtSections n e) := by
  refine forEach_inv (fun x u hu => ?_) _ s hs
  unfold State.signalAtSection; split
  · exact hu
  · split
    · split
      · exact h.firm.report _ _ _ _ _ hu
      · dsimp only; split
        · exact h.evaluate _ _ (h.rough.report _ _ _ _ _ (h.rough.sect x _ u rfl id (h.weaken _ hu)))
        · exact h.irregular x hu
    · exact hu

/-! Circuits. -/

theorem trackCondition (c : FaultClass) (t : Nat) (a b : Bool) (hc : c.names t) (hs : P s) :
    P (s.trackCondition c t a b) := by
  unfold State.trackCondition; split
  · exact h.raise _ _ _ _ hc hs
  · split
    · exact h.firm.endFault _ _ _ hs
    · exact hs

theorem trackSample (t : Nat) (r : Sample) (ht : 1 ≤ t) (hs : P s) : P (s.trackSample t r) := by
  unfold State.trackSample; split
  · exact hs
  · rename_i rec hrec
    have turn : TrackTurn s t ((s.track t).sample rec r) := ⟨rec, hrec, .inl ⟨r, rfl⟩⟩
    have taken : Q (s.updTrack t fun _ => (s.track t).sample rec r) := h.rough.track t _ s turn (h.weaken _ hs)
    dsimp only
    refine h.trackCondition _ _ _ _ (FaultClass.names_track ht (by decide))
      (h.trackCondition _ _ _ _ (FaultClass.names_track ht (by decide)) ?_)
    split
    · exact h.occupationOf t (h.rough.report _ _ _ _ _ taken)
    · split
      · exact h.clearingOf t (h.rough.report _ _ _ _ _ taken)
      · refine h.firm.track t _ s turn ?_ hs
        cases hx : (s.track t).state <;> simp_all [TrackState.sample]

/-! Levers. -/

theorem enterContactFault (n : Nat) (hn : L n) (hs : Q s) : P (s.enterContactFault n) :=
  h.evaluate _ _ (h.raiseInside _ _ _ _ (FaultClass.names_of_frame (.inl rfl)) (h.rough.report _ _ _ _ _
    (h.rough.lever n _ s rfl (.inl hn) hs)))

theorem depart (n : Nat) (e : LeverEnd) (hn : L n) (hs : Q s) : P (s.depart n e) := by
  have gone : ∀ r, P ((((s.enterTransit n).leverReport n r [e.code]).endContact n).evaluate .verdict) := fun r =>
    h.evaluate _ _ (h.rough.firm.endContact n (h.rough.report _ _ _ _ _ (h.rough.lever n _ s rfl (.inl hn) hs)))
  have forced : ∀ {u : State}, P u → P ((u.updLever n fun l => { l with forcedActive := true }).raise .leverForced n) :=
    fun hu => h.raise _ _ _ _ (FaultClass.names_of_frame (.inr rfl))
      (h.firm.lever n _ _ ⟨rfl, rfl, rfl, rfl, rfl⟩ (.inr ⟨rfl, rfl, rfl, rfl, rfl⟩) hu)
  unfold State.depart; dsimp only
  cases s.forced n <;> simp only [Bool.false_eq_true, if_false, if_true] <;> split
  · exact h.engageLocks _ _ (gone 1)
  · exact gone 1
  · exact h.engageLocks _ _ (forced (gone 2))
  · exact forced (gone 2)

theorem completeMove (n : Nat) (e : LeverEnd) (hn : L n) (hs : Q s) : P (s.completeMove n e) := by
  unfold State.completeMove; dsimp only
  refine h.signalAtSections _ _ ?_
  have noticed : P (forEach (s.consumedBy n e) (State.sendNotice (.lever n))
      (((((s.proveAt n e).leverReport n 3 (e.code :: sequenceSet (s.consumedBy n e))).endContact n).endForced
        n).evaluate .verdict)) :=
    forEach_inv (fun q u => h.firm.notice _ q u) _ _ (h.evaluate _ _ (h.rough.firm.endForced n
      (h.rough.firm.endContact n (h.rough.report _ _ _ _ _ (h.rough.lever n _ s rfl (.inl hn) hs)))))
  cases e
  · exact h.replaceLocks n noticed
  · exact h.engageLocks n _ noticed

theorem forcedArrival (n : Nat) (e : LeverEnd) (hn : L n) (hs : Q s) : P (s.forcedArrival n e) := by
  have ended : P (((((((s.proveAt n e).leverReport n 4 [e.code]).endContact n).evaluate .verdict).updLever n fun l =>
      { l with forcedActive := false }).raiseAndEnd .leverForced n)) :=
    h.raise _ _ _ _ (FaultClass.names_of_frame (.inr rfl))
      (h.firm.lever n _ _ ⟨rfl, rfl, rfl, rfl, rfl⟩ (.inr ⟨rfl, rfl, rfl, rfl, rfl⟩)
        (h.evaluate _ _ (h.rough.firm.endContact n (h.rough.report _ _ _ _ _ (h.rough.lever n _ s rfl (.inl hn) hs)))))
  cases e
  · exact ended
  · exact h.engageLocks n _ ended

theorem reachEnd (n : Nat) (e : LeverEnd) (hn : L n) (hs : Q s) : P (s.reachEnd n e) := by
  unfold State.reachEnd State.arrive; split
  · exact h.proveQuietly _ _ _ _ hn hs
  · split
    · split <;> exact h.proveQuietly _ _ _ _ hn hs
    · split
      · exact h.forcedArrival _ _ hn hs
      · exact h.completeMove _ _ hn hs

theorem fittedMove (n : Nat) (p : Position) (hn : L n) (hs : Q s) : P (s.fittedMove n p) := by
  unfold State.fittedMove; dsimp only; split
  · exact h.enterContactFault n hn hs
  · exact h.reachEnd n _ hn hs
  · exact h.reachEnd n _ hn hs
  · split
    · exact h.depart n _ hn hs
    · split
      · exact h.depart n _ hn hs
      · exact h.continueStroke n hn hs

/-- A lever's contact. -/
theorem contactChange (n : Nat) (k : LeverContact) (b : Bool) (hn : L n) (hs : P s) : P (s.contactChange n k b) := by
  unfold State.contactChange; dsimp only
  generalize (if k = .normal then b else (s.lever n).normalMade) = nm
  generalize (if k = .reverse then b else (s.lever n).reverseMade) = rm
  have made : P (s.updLever n fun x => { x with normalMade := nm, reverseMade := rm }) :=
    h.firm.lever n _ s ⟨rfl, rfl, rfl, rfl, rfl⟩ (.inl hn) hs
  split
  · exact hs
  · split
    · exact h.fittedMove _ _ hn (h.weaken _ made)
    · rename_i hf
      exact h.unfittedMove _ _ hn (by rw [Bool.not_eq_true] at hf; exact hf) made

theorem raiseDrive (n : Nat) (hs : P s) : P (s.raiseDrive n) :=
  h.raise false .lockDrive n _ (FaultClass.names_of_frame (.inl rfl))
    (h.firm.lever n _ _ ⟨rfl, rfl, rfl, rfl, rfl⟩ (.inr ⟨rfl, rfl, rfl, rfl, rfl⟩) hs)

theorem raiseStuck (n : Nat) (hs : P s) : P (s.raiseStuck n) :=
  h.raise false .lockStuckFree n _ (FaultClass.names_of_frame (.inr rfl))
    (h.firm.lever n _ _ ⟨rfl, rfl, rfl, rfl, rfl⟩ (.inr ⟨rfl, rfl, rfl, rfl, rfl⟩) hs)

theorem closeWindow (n : Nat) (hs : P s) : P (s.closeWindow n) := by
  have closed : P (s.updLever n fun x => { x with window := none }) :=
    h.firm.lever n _ _ ⟨rfl, rfl, rfl, rfl, rfl⟩ (.inr ⟨rfl, rfl, rfl, rfl, rfl⟩) hs
  unfold State.closeWindow; dsimp only; split
  · split
    · exact h.raiseDrive n closed
    · exact closed
  · split
    · exact h.raiseStuck n closed
    · exact closed

theorem lockedReadback (n : Nat) (b : Bool) (hn : L n) (hs : P s) : P (s.lockedReadback n b) := by
  have read : P (s.updLever n fun x => { x with readback := b }) :=
    h.firm.lever n _ _ ⟨rfl, rfl, rfl, rfl, rfl⟩ (.inl hn) hs
  have quiet : ∀ {u : State} f, (∀ l : LeverState, l.SameVerdict (f l) ∧ l.SameContacts (f l)) → P u →
      P (u.updLever n f) := fun f hf hu => h.firm.lever n f _ (hf _).1 (.inr (hf _).2) hu
  have drive := h.firm.endIf (s.lever n).driveActive .lockDrive n
    (quiet (fun x => { x with driveActive := false }) (fun _ => ⟨⟨rfl, rfl, rfl, rfl, rfl⟩, ⟨rfl, rfl, rfl, rfl, rfl⟩⟩) read)
  have stuck := h.firm.endIf (s.lever n).stuckActive .lockStuckFree n
    (quiet (fun x => { x with stuckActive := false }) (fun _ => ⟨⟨rfl, rfl, rfl, rfl, rfl⟩, ⟨rfl, rfl, rfl, rfl, rfl⟩⟩) read)
  have closes : ∀ {u : State}, P u → P (u.updLever n fun x => { x with window := none }) := fun hu =>
    quiet _ (fun _ => ⟨⟨rfl, rfl, rfl, rfl, rfl⟩, ⟨rfl, rfl, rfl, rfl, rfl⟩⟩) hu
  unfold State.lockedReadback; dsimp only; split
  · split
    · exact closes drive
    · split
      · exact h.raiseStuck n drive
      · exact drive
  · split
    · exact closes stuck
    · split
      · exact h.raiseDrive n stuck
      · exact stuck

theorem readbackChange (n : Nat) (b : Bool) (hn : L n) (hs : P s) : P (s.readbackChange n b) := by
  unfold State.readbackChange; split
  · exact hs
  · split
    · exact h.lockedReadback n b hn hs
    · exact h.firm.lever n _ _ ⟨rfl, rfl, rfl, rfl, rfl⟩ (.inl hn) hs

end Raising

/-! ### What every command keeps -/

/-- `Raising` for a predicate that the scanner, the release plungers, the queues of hand-offs and the state of the lock
supply do not touch. -/
structure Lasting (L : Nat → Prop) (Q P : State → Prop) : Prop extends Raising L Q P where
  scanner : ∀ c s, P s → P { s with scanner := c }
  plungers : ∀ p s, Q s → Q { s with plungers := p }
  notices : ∀ n s, P s → P { s with notices := n }
  answers : ∀ a s, P s → P { s with answers := a }
  lockSupply : ∀ r b s, P s → P { s with frame := { s.frame with lowRun := r, lockSupply := b } }

/-- Of a result: whatever state it gives has the property. -/
def Gives (P : State → Prop) (r : Result) : Prop := ∀ t, r = .next t → P t

theorem gives_next {P : State → Prop} {s : State} (hs : P s) : Gives P (.next s) := by
  rintro t ⟨⟩; exact hs

theorem gives_onObject {P : State → Prop} {s : State} (b : Bool) (hs : P s) : Gives P (onObject b s) := by
  unfold onObject; split
  · exact gives_next hs
  · rintro t ⟨⟩

namespace Lasting

variable {L : Nat → Prop} {Q P : State → Prop} (h : Lasting L Q P) {s : State}
include h

/-! The scan. -/

theorem supplySample (r : Sample) (hs : P s) : P (s.supplySample r) := by
  unfold State.supplySample; split
  · exact hs
  · split
    · dsimp only; split
      · exact h.raise false .lockSupply 0 _ (FaultClass.names_of_frame (.inl rfl)) (h.lockSupply _ _ s hs)
      · exact h.lockSupply _ _ s hs
    · dsimp only; split
      · exact forEach_inv (fun n u => h.firm.freshWindow n) _ _ (h.firm.endFault _ _ _ (h.lockSupply _ _ s hs))
      · exact h.lockSupply _ _ s hs

theorem handSample (c : Nat) (v : Sample) (hs : P s) : P (s.handSample c v) := by
  unfold State.handSample; split
  · exact h.trackSample _ _ (Nat.le_add_left 1 c) hs
  · split
    · exact h.sectionSample _ _ hs
    · split
      · exact h.supplySample _ hs
      · exact hs

theorem scanChannel (raw : Bank Sample 32) (c : Nat) (hs : P s) : P (s.scanChannel raw c) := by
  unfold State.scanChannel; split
  · exact h.handSample _ _ (h.scanner _ s hs)
  · exact hs

theorem scanPass (raw : Bank Sample 32) (hs : P s) : Gives P (exec (.scanPass raw) s) :=
  gives_next (forEach_inv (fun c _ => h.scanChannel raw c) _ s hs)

/-! Levers. -/

theorem leverContactChange (n : Nat) (k : LeverContact) (b : Bool) (hn : L n) (hs : P s) :
    Gives P (exec (.leverContactChange n k b) s) := by
  refine gives_onObject _ ?_
  split
  · exact h.contactChange n k b hn hs
  · exact hs

theorem transitLimit (n : Nat) (hs : P s) : Gives P (exec (.transitLimit n) s) := by
  refine gives_onObject _ ?_
  split
  · exact h.raise false .leverContact n _ (FaultClass.names_of_frame (.inl rfl)) (h.firm.report _ _ _ _ _
      (h.firm.lever n _ s ⟨rfl, rfl, rfl, rfl, rfl⟩ (.inr ⟨rfl, rfl, rfl, rfl, rfl⟩) hs))
  · exact hs

theorem lockReadbackChange (n : Nat) (b : Bool) (hn : L n) (hs : P s) : Gives P (exec (.lockReadbackChange n b) s) := by
  refine gives_onObject _ ?_
  split
  · exact h.readbackChange n b hn hs
  · exact hs

theorem readbackWindowClose (n : Nat) (hs : P s) : Gives P (exec (.readbackWindowClose n) s) := by
  refine gives_onObject _ ?_
  split
  · exact h.closeWindow n hs
  · exact hs

/-! Approach locks. -/

theorem plungerChange (k : Nat) (b : Bool) (hs : P s) : Gives P (exec (.plungerChange k b) s) := by
  refine gives_onObject _ ?_
  split
  · have evaluated := h.evaluate .verdict _ (h.plungers (Bank.put s.plungers k b) s (h.weaken _ hs))
    dsimp only; split
    · exact h.firm.pressLocks k evaluated
    · exact evaluated
  · exact hs

theorem approachCountdownStep (a : Nat) (hs : P s) : Gives P (exec (.approachCountdownStep a) s) := by
  refine gives_onObject _ ?_
  split
  · refine h.firm.lock a _ s (fun rec _ hok => ⟨by simpa using hok.1, fun m hm => ?_⟩) Iff.rfl hs
    obtain ⟨k, hk, rfl⟩ := Option.map_eq_some_iff.1 hm
    exact (Nat.sub_le k 1).trans (hok.2 k hk)
  · exact hs

theorem approachExpiry (a : Nat) (hs : P s) : Gives P (exec (.approachExpiry a) s) := by
  refine gives_onObject _ ?_
  split
  · exact h.freeLock a 6 [] (h.weaken _ hs)
  · exact hs

theorem approachConsumptionAnswer (a : Nat) (hs : P s) : Gives P (exec (.approachConsumptionAnswer a) s) := by
  refine gives_onObject _ ?_
  split
  · exact hs
  · exact h.approachAnswer a _ (h.answers _ s hs)

/-! Sections. -/

theorem handleContactChange (x : SectionId) (k : HandleContact) (b : Bool) (hs : P s) :
    Gives P (exec (.handleContactChange x k b) s) := by
  refine gives_next ?_
  have made : ∀ f : SectionState → SectionState, (∀ r : SectionState, r.SameState (f r)) → P (s.updSect x f) :=
    fun f hf => h.firm.sect x f s (hf _) hs
  exact ite_keeps hs (ite_keeps (made _ fun _ => ⟨rfl, rfl, rfl, rfl, rfl⟩)
    (h.takeHandle x (made _ fun _ => ⟨rfl, rfl, rfl, rfl, rfl⟩)))

theorem handleMovingTimeout (x : SectionId) (hs : P s) : Gives P (exec (.handleMovingTimeout x) s) := by
  refine gives_next ?_
  split
  · exact h.takeHandle x (h.firm.sect x _ s ⟨rfl, rfl, rfl, rfl, rfl⟩ hs)
  · exact hs

theorem attentionLapsed (x : SectionId) (hs : P s) : Gives P (exec (.attentionLapsed x) s) := by
  refine gives_next ?_
  split
  · exact hs
  · split
    · exact h.firm.report _ _ _ _ _ (h.firm.sect x _ s ⟨rfl, rfl, rfl, rfl, rfl⟩ hs)
    · exact hs

theorem blockConsumptionAnswer (x : SectionId) (hs : P s) : Gives P (exec (.blockConsumptionAnswer x) s) := by
  refine gives_next ?_
  split
  · exact hs
  · exact h.blockAnswer x _ (h.answers _ s hs)

/-! Sequences. -/

theorem stepTimeout (q : Nat) (hs : P s) : Gives P (exec (.stepTimeout q) s) := by
  refine gives_onObject _ ?_
  split
  · exact h.firm.breakSequence q _ hs
  · exact hs

theorem answerTo (n : Notice) (b : Bool) (hs : P s) : P (s.answerTo n b) := by
  unfold State.answerTo; split
  · exact hs
  · exact h.answers _ s hs
  · exact h.answers _ s hs

theorem takeNotice (n : Notice) (hs : P s) : P (s.takeNotice n) := by
  unfold State.takeNotice; split
  · split
    · exact h.answerTo _ _ (h.evaluate _ _ (h.rough.report _ _ _ _ _ (h.rough.seq _ _ s (fun _ _ => id) (h.weaken _ hs))))
    · exact h.answerTo _ _ (h.firm.report _ _ _ _ _ hs)
  · exact h.answerTo _ _ hs

theorem consumptionNotification (c : Consumer) (q : Nat) (hs : P s) : Gives P (exec (.consumptionNotification c q) s) := by
  refine gives_onObject _ ?_
  split
  · exact hs
  · exact h.takeNotice _ (h.notices _ s hs)

end Lasting

/-! ### The codes of the bells (R107, R111) -/

/-- R107, R111: what `State.bellsLawful` says of one section. -/
def BellState.lawful (b : BellState) : Prop :=
  (b.outbound.code = none ∨ b.inbound.code = none) ∧
  (b.crossed = true → b.outbound.code = none ∧ b.inbound.code = none) ∧
  (∀ c, b.outbound.code = some c → c.lawful) ∧ ∀ c, b.inbound.code = some c → c.lawful

/-- A direction begins no code, and the code it has stays within its bounds. -/
def Assembler.CodeStays (a e : Assembler) : Prop :=
  ∀ c, e.code = some c → ∃ k, a.code = some k ∧ (k.lawful → c.lawful)

theorem Assembler.CodeStays.of_eq {a e : Assembler} (h : e.code = a.code) : a.CodeStays e :=
  fun c hc => ⟨c, h ▸ hc, id⟩

theorem Assembler.CodeStays.of_none {a e : Assembler} (h : e.code = none) : a.CodeStays e :=
  fun c hc => by rw [h] at hc; cases hc

theorem Assembler.CodeStays.of_map {a e : Assembler} {g : Code → Code} (hg : ∀ k : Code, k.lawful → (g k).lawful)
    (h : e.code = a.code.map g) : a.CodeStays e := fun c hc => by
  obtain ⟨k, hk, rfl⟩ := Option.map_eq_some_iff.1 (h ▸ hc)
  exact ⟨k, hk, hg k⟩

namespace BellState

theorem lawful_of_stays {b e : BellState} (ho : b.outbound.CodeStays e.outbound) (hi : b.inbound.CodeStays e.inbound)
    (hc : e.crossed = true → b.crossed = true) (h : b.lawful) : e.lawful := by
  obtain ⟨hone, hcross, hout, hin⟩ := h
  have outNone : b.outbound.code = none → e.outbound.code = none := fun hn => by
    cases he : e.outbound.code with
    | none => rfl
    | some c => obtain ⟨k, hk, -⟩ := ho c he; rw [hn] at hk; cases hk
  have inNone : b.inbound.code = none → e.inbound.code = none := fun hn => by
    cases he : e.inbound.code with
    | none => rfl
    | some c => obtain ⟨k, hk, -⟩ := hi c he; rw [hn] at hk; cases hk
  refine ⟨hone.imp outNone inNone, fun h => ⟨outNone (hcross (hc h)).1, inNone (hcross (hc h)).2⟩, fun c he => ?_,
    fun c he => ?_⟩
  · obtain ⟨k, hk, hkc⟩ := ho c he; exact hkc (hout k hk)
  · obtain ⟨k, hk, hkc⟩ := hi c he; exact hkc (hin k hk)

theorem lawful_setSide {b : BellState} (d : Direction) {a : Assembler} (ha : (b.side d).CodeStays a) (h : b.lawful) :
    (b.setSide d a).lawful := by
  cases d
  · exact lawful_of_stays (b := b) ha (.of_eq rfl) id h
  · exact lawful_of_stays (b := b) (.of_eq rfl) ha id h

theorem holdUpdate_same (now : Time) (b : BellState) : (b.holdUpdate now).outbound = b.outbound ∧
    (b.holdUpdate now).inbound = b.inbound ∧ (b.holdUpdate now).crossed = b.crossed := by
  unfold holdUpdate; split <;> exact ⟨rfl, rfl, rfl⟩

theorem silenceUpdate_same (now : Time) (b : BellState) : (b.silenceUpdate now).outbound = b.outbound ∧
    (b.silenceUpdate now).inbound = b.inbound ∧ (b.silenceUpdate now).crossed = b.crossed := by
  unfold silenceUpdate; split
  · split <;> exact ⟨rfl, rfl, rfl⟩
  · exact ⟨rfl, rfl, rfl⟩

/-- What follows a change of a piece touches neither the pieces, the presses and the codes nor CROSSED. -/
theorem after_same (now : Time) (b : BellState) : ((b.holdUpdate now).silenceUpdate now).outbound = b.outbound ∧
    ((b.holdUpdate now).silenceUpdate now).inbound = b.inbound ∧
    ((b.holdUpdate now).silenceUpdate now).crossed = b.crossed := by
  obtain ⟨ho, hi, hc⟩ := b.holdUpdate_same now
  obtain ⟨go, gi, gc⟩ := (b.holdUpdate now).silenceUpdate_same now
  exact ⟨go.trans ho, gi.trans hi, gc.trans hc⟩

end BellState

/-- R107: a beat more leaves a code within its bounds. -/
theorem Code.addBeat_lawful (same : Bool) (c : Code) (h : c.lawful) : (c.addBeat same).lawful := by
  obtain ⟨hlen, hbeats, hsum⟩ := h
  have total : c.groups.foldl (· + ·) 0 = c.groups.sum := List.sum_eq_foldl.symm
  unfold Code.addBeat; dsimp only; rw [total]
  split
  · exact ⟨hlen, hbeats, hsum⟩
  · rename_i hroom
    split
    · exact ⟨by simp, by simp, by simp⟩
    · rename_i k hk
      obtain ⟨init, hinit⟩ := List.getLast?_eq_some_iff.1 hk
      rw [hinit] at hlen hbeats hsum hroom
      simp only [List.length_append, List.length_singleton, List.sum_append, List.sum_singleton] at hlen hsum hroom
      have hbeats' : ∀ g ∈ init, 1 ≤ g ∧ g ≤ 12 := fun g hg => hbeats g (List.mem_append_left _ hg)
      have hk' := hbeats k (List.mem_append_right _ List.mem_cons_self)
      split
      · split
        · rw [hinit] at *; exact ⟨by simpa using hlen, hbeats, by simpa using hsum⟩
        · rename_i hfull
          rw [hinit, List.dropLast_concat]
          refine ⟨by simpa using hlen, fun g hg => ?_, by simp; omega⟩
          rcases List.mem_append.1 hg with hg | hg
          · exact hbeats' g hg
          · obtain rfl := List.mem_singleton.1 hg; omega
      · split
        · rw [hinit] at *; exact ⟨by simpa using hlen, hbeats, by simpa using hsum⟩
        · rename_i hfew
          rw [hinit] at hfew ⊢
          simp only [List.length_append, List.length_singleton] at hfew
          refine ⟨by simp; omega, fun g hg => ?_, by simp; omega⟩
          rcases List.mem_append.1 hg with hg | hg
          · exact hbeats g hg
          · obtain rfl := List.mem_singleton.1 hg; omega

theorem Code.released_lawful (now : Time) (c : Code) (h : c.lawful) : (c.released now).lawful := h

/-- The events of the bells (06). -/
def ofBells : Instr → Bool
  | .bellPlungerChange _ _ | .bellSenseChange _ _ | .regenerationDriveStart _ | .driveEnd _ | .sounderStrike _
  | .sounderOff _ | .pressQualifies _ _ | .longPressReached _ _ | .heldPendingReached _ _ | .heldRing _ _
  | .pressSettles _ _ | .codeEnd _ _ | .crossingCleared _ | .awaitedDeadline _ | .owedDeadline _ => true
  | _ => false

/-- `Lasting` for a predicate that an update of the bells keeps which leaves a lawful record; a press that qualifies may
pass through one that is not, when the bells cross (R111). -/
structure Ringing (L : Nat → Prop) (Q P : State → Prop) : Prop extends Lasting L Q P where
  bells : ∀ x f s, ((s.bell x).lawful → (f (s.bell x)).lawful) → P s → P (s.updBell x f)
  qualify : ∀ x d s, s.qualifyDue x d = true → P s → P (s.qualify x d)

namespace Ringing

variable {L : Nat → Prop} {Q P : State → Prop} (h : Ringing L Q P) {s : State}
include h

/-- An update of a section's bells that touches neither a code nor CROSSED. -/
theorem bellsRest (x : SectionId) (f : BellState → BellState) (hf : ∀ b, (f b).outbound.code = b.outbound.code ∧
    (f b).inbound.code = b.inbound.code ∧ (f b).crossed = b.crossed) (hs : P s) : P (s.updBell x f) := by
  obtain ⟨ho, hi, hc⟩ := hf (s.bell x)
  exact h.bells x f s (BellState.lawful_of_stays (.of_eq ho) (.of_eq hi) (hc ▸ id)) hs

theorem setAssembler (x : SectionId) (d : Direction) (f : Assembler → Assembler) (hf : ∀ a : Assembler, a.CodeStays (f a))
    (hs : P s) : P (s.setAssembler x d f) := h.bells x _ s (BellState.lawful_setSide d (hf _)) hs

theorem bellAfter (x : SectionId) (hs : P s) : P (s.bellAfter x) :=
  h.bellsRest x _ (fun b => by obtain ⟨ho, hi, hc⟩ := b.after_same s.now; exact ⟨by rw [ho], by rw [hi], hc⟩) hs

theorem settle (x : SectionId) (d : Direction) (hs : P s) : P (s.settle x d) := by
  unfold State.settle; split
  · exact hs
  · rename_i p _
    have settled : P (s.setAssembler x d fun a =>
        { a with press := none
                 code := if p.qualified && !decide (s.timing.longPress.toNat ≤ p.extent s.now) then
                     a.code.map (Code.addBeat (decide (p.gap < s.timing.groupGap.toNat))) else a.code }) := by
      refine h.setAssembler x d _ (fun a => ?_) hs
      cases p.qualified && !decide (s.timing.longPress.toNat ≤ p.extent s.now)
      · exact .of_eq rfl
      · exact .of_map (Code.addBeat_lawful _) rfl
    exact ite_keeps (h.firm.report _ _ _ _ _ (ite_keeps (h.firm.endFault _ _ _ settled) settled)) settled

theorem startPiece (x : SectionId) (d : Direction) (hs : P s) : P (s.startPiece x d) :=
  h.bellAfter x (h.setAssembler x d _ (fun _ => .of_eq rfl) (ite_keeps (h.settle x d hs) hs))

theorem endPiece (x : SectionId) (d : Direction) (hs : P s) : P (s.endPiece x d) := by
  refine h.bellAfter x (h.setAssembler x d _ (fun a => ?_) hs)
  unfold Assembler.pieceEnd; split
  · cases hq : a.press.any (·.qualified)
    · exact .of_eq rfl
    · exact .of_map (Code.released_lawful s.now) rfl
  · exact .of_eq rfl

theorem driveStart (x : SectionId) (hs : P s) : P (s.driveStart x) := by
  have counted : P (s.setAssembler x .outbound fun a =>
      { a with piece := a.piece.map fun p => { p with counted := true } }) :=
    h.setAssembler x _ _ (fun _ => .of_eq rfl) hs
  unfold State.driveStart; dsimp only; split
  · exact counted
  · have driven := h.bellsRest x (fun b => { b with driveSince := some s.now }) (fun _ => ⟨rfl, rfl, rfl⟩) counted
    exact ite_keeps (h.endPiece x _ driven) driven

theorem driveStop (x : SectionId) (hs : P s) : P (s.driveStop x) := by
  have stopped := h.bellsRest x (fun b => { b with driveSince := none }) (fun _ => ⟨rfl, rfl, rfl⟩) hs
  exact ite_keeps (h.startPiece x _ stopped) stopped

theorem longPress (x : SectionId) (d : Direction) (hs : P s) : P (s.longPress x d) := by
  refine h.setAssembler x d _ (fun a => ?_) hs
  cases hq : a.press.any (·.qualified)
  · exact .of_eq (by simp)
  · exact .of_map (g := fun c => { c with malformed := true }) (fun _ hk => hk) (by simp)

theorem ringHeld (x : SectionId) (d : Direction) (hs : P s) : P (s.ringHeld x d) := by
  have rung : P (s.setAssembler x d fun a =>
      { a with press := a.press.map fun p => { p with ringReached := true }, code := none }) :=
    h.setAssembler x d _ (fun _ => .of_none rfl) hs
  exact h.firm.report _ _ _ _ _ (ite_keeps
    (h.raise false .heldRing _ _ (FaultClass.names_of_frame (.inl rfl)) rung) rung)

theorem completeExchange (x : SectionId) (d : Direction) (r : CodeRec) (hs : P s) : P (s.completeExchange x d r) := by
  unfold State.completeExchange; dsimp only; split
  · exact h.firm.report _ _ _ _ _ hs
  · exact h.takeExchange x _ (h.firm.report _ _ _ _ _ hs)

/-- The slot of an owed code, set or cleared. -/
theorem owes (x : SectionId) (o : Option Slot) (hs : P s) : P (s.updBell x fun b => { b with owed := o }) :=
  h.bellsRest x _ (fun _ => ⟨rfl, rfl, rfl⟩) hs

/-- The slot of an awaited code, set or cleared. -/
theorem awaits (x : SectionId) (o : Option Slot) (hs : P s) : P (s.updBell x fun b => { b with awaited := o }) :=
  h.bellsRest x _ (fun _ => ⟨rfl, rfl, rfl⟩) hs

theorem outboundEnded (x : SectionId) (r : CodeRec) (hs : P s) : P (s.outboundEnded x r) := by
  unfold State.outboundEnded; dsimp only; split
  · exact h.completeExchange x _ r (h.owes x none hs)
  · have lapsed : P (match (s.bell x).owed with
        | none => s
        | some o => (s.updBell x fun b => { b with owed := none }).bellReport x 7 [byte o.entry]) := by
      split
      · exact hs
      · exact h.firm.report _ _ _ _ _ (h.owes x none hs)
    split
    · exact h.firm.report _ _ _ _ _ (h.awaits x _ lapsed)
    · exact h.firm.report _ _ _ _ _ (h.firm.report _ _ _ _ _ (h.awaits x _ lapsed))

theorem becomeOwed (x : SectionId) (r : CodeRec) (hs : P s) : P (s.becomeOwed x r) := by
  have owed := h.firm.report .bell (secCode x).toNat 6 [byte r.entry.toNat] _
    (h.owes x (some (s.newSlot r.entry.toNat)) hs)
  have lapsed : P (match (s.bell x).owed with
      | none => (s.updBell x fun b => { b with owed := some (s.newSlot r.entry.toNat) }).bellReport x 6 [byte r.entry.toNat]
      | some o => ((s.updBell x fun b => { b with owed := some (s.newSlot r.entry.toNat) }).bellReport x 6
          [byte r.entry.toNat]).bellReport x 7 [byte o.entry]) := by
    split
    · exact owed
    · exact h.firm.report _ _ _ _ _ owed
  unfold State.becomeOwed; dsimp only; split
  · exact h.urgentReceipt x lapsed
  · exact lapsed

theorem inboundEnded (x : SectionId) (r : CodeRec) (hs : P s) : P (s.inboundEnded x r) := by
  unfold State.inboundEnded; dsimp only; split
  · exact h.becomeOwed x r hs
  · split
    · exact h.completeExchange x _ r (h.awaits x none hs)
    · exact h.becomeOwed x r (h.firm.report _ _ _ _ _
        (h.raise true .bellMisrepeat _ _ (FaultClass.names_of_frame (.inl rfl)) (h.awaits x none hs)))

theorem endCode (x : SectionId) (d : Direction) (hs : P s) : P (s.endCode x d) := by
  have forgotten : P (s.setAssembler x d fun a => { a with code := none }) :=
    h.setAssembler x d _ (fun _ => .of_none rfl) hs
  unfold State.endCode; split
  · exact hs
  · dsimp only; split
    · exact h.firm.report _ _ _ _ _ forgotten
    · split
      · exact h.outboundEnded x _ (h.firm.report _ _ _ _ _ forgotten)
      · exact h.inboundEnded x _ (h.firm.report _ _ _ _ _ forgotten)

/-! The events of the bells, one by one. -/

theorem bellPlungerChange (x : SectionId) (b : Bool) (hs : P s) : Gives P (exec (.bellPlungerChange x b) s) := by
  have level := h.bellsRest x (fun y => { y with plunger := b }) (fun _ => ⟨rfl, rfl, rfl⟩) hs
  exact gives_next (ite_keeps hs (ite_keeps (h.startPiece x _ level) (h.endPiece x _ level)))

theorem bellSenseChange (x : SectionId) (b : Bool) (hs : P s) : Gives P (exec (.bellSenseChange x b) s) := by
  have level := h.bellsRest x (fun y => { y with sense := b }) (fun _ => ⟨rfl, rfl, rfl⟩) hs
  exact gives_next (ite_keeps hs (ite_keeps level (ite_keeps (h.startPiece x _ level) (h.endPiece x _ level))))

theorem sounderStrike (x : SectionId) (hs : P s) : Gives P (exec (.sounderStrike x) s) :=
  gives_next (ite_keeps (h.bellsRest x _ (fun _ => ⟨rfl, rfl, rfl⟩) hs) hs)

theorem sounderOff (x : SectionId) (hs : P s) : Gives P (exec (.sounderOff x) s) :=
  gives_next (ite_keeps (h.bellsRest x _ (fun _ => ⟨rfl, rfl, rfl⟩) hs) hs)

theorem pressQualifies (x : SectionId) (d : Direction) (hs : P s) : Gives P (exec (.pressQualifies x d) s) := by
  refine gives_next ?_
  split
  · exact h.qualify x d s (by assumption) hs
  · exact hs

theorem crossingCleared (x : SectionId) (hs : P s) : Gives P (exec (.crossingCleared x) s) := by
  have cleared : P (s.updBell x fun b => { b with crossed := false, silentSince := none }) :=
    h.bells x _ s (BellState.lawful_of_stays (.of_eq rfl) (.of_eq rfl) (fun hc => by cases hc)) hs
  exact gives_next (ite_keeps (h.firm.report _ _ _ _ _ (h.firm.endIf _ _ _ cleared)) hs)

theorem awaitedDeadline (x : SectionId) (hs : P s) : Gives P (exec (.awaitedDeadline x) s) := by
  refine gives_next ?_
  split
  · exact hs
  · exact ite_keeps (h.firm.report _ _ _ _ _
      (h.raise true .bellNotRepeated _ _ (FaultClass.names_of_frame (.inl rfl)) (h.awaits x none hs))) hs

theorem owedDeadline (x : SectionId) (hs : P s) : Gives P (exec (.owedDeadline x) s) := by
  refine gives_next ?_
  split
  · exact hs
  · exact ite_keeps (h.firm.report _ _ _ _ _ (h.owes x none hs)) hs

theorem rings (i : Instr) (hi : ofBells i = true) (hs : P s) : Gives P (exec i s) := by
  cases i with
  | bellPlungerChange x b => exact h.bellPlungerChange x b hs
  | bellSenseChange x b => exact h.bellSenseChange x b hs
  | regenerationDriveStart x => exact gives_next (ite_keeps (h.driveStart x hs) hs)
  | driveEnd x => exact gives_next (ite_keeps (h.driveStop x hs) hs)
  | sounderStrike x => exact h.sounderStrike x hs
  | sounderOff x => exact h.sounderOff x hs
  | pressQualifies x d => exact h.pressQualifies x d hs
  | longPressReached x d => exact gives_next (ite_keeps (h.longPress x d hs) hs)
  | heldPendingReached x d =>
    exact gives_next (ite_keeps (h.bellAfter x (h.setAssembler x d _ (fun _ => .of_eq rfl) hs)) hs)
  | heldRing x d => exact gives_next (ite_keeps (h.ringHeld x d hs) hs)
  | pressSettles x d => exact gives_next (ite_keeps (h.settle x d hs) hs)
  | codeEnd x d => exact gives_next (ite_keeps (h.endCode x d hs) hs)
  | crossingCleared x => exact h.crossingCleared x hs
  | awaitedDeadline x => exact h.awaitedDeadline x hs
  | owedDeadline x => exact h.owedDeadline x hs
  | _ => cases hi

end Ringing

/-- What crosses the bells: the discard of the codes, the raise and the report (R111). -/
theorem Lasting.crossBells {L : Nat → Prop} {Q P : State → Prop} (h : Lasting L Q P) {s : State} (x : SectionId)
    (hs : P ((s.updBell x fun b =>
      { b with outbound := { b.outbound with code := none }, inbound := { b.inbound with code := none },
               crossed := true, silentSince := none }).bellAfter x)) : P (s.crossBells x) :=
  h.firm.report _ _ _ _ _ (ite_keeps
    (h.raise false .bellCrossed _ _ (FaultClass.names_of_frame (.inl rfl)) hs) hs)

/-- A predicate that no update of the bells touches. -/
theorem Lasting.ringing {L : Nat → Prop} {Q P : State → Prop} (h : Lasting L Q P)
    (bells : ∀ x f s, P s → P (s.updBell x f)) : Ringing L Q P where
  toLasting := h
  bells x f s _ := bells x f s
  qualify x d s _ hs := by
    have joined : ∀ {u : State} r, P u → P (u.beginOrJoin x d r) := fun r hu => by
      unfold State.beginOrJoin; split
      · exact bells _ _ _ hu
      · exact h.firm.report _ _ _ _ _ (bells _ _ _ hu)
    unfold State.qualify; dsimp only; split
    · exact h.crossBells x (bells _ _ _ (bells _ _ _ (joined _ (bells _ _ s hs))))
    · exact joined _ (bells _ _ s hs)

/-! ### Sets of numbers as bits (R191) -/

theorem flagBits_testBit (bs : List Bool) : ∀ k, (flagBits bs).testBit k = bs.getD k false := by
  induction bs with
  | nil => intro k; simp [flagBits]
  | cons b bs ih =>
    rintro (_ | k)
    · cases b <;> simp [flagBits, Nat.testBit_zero, Nat.add_mod]
    · have half : ((if b then 1 else 0) + 2 * flagBits bs) / 2 = flagBits bs := by cases b <;> simp; omega
      rw [flagBits, Nat.testBit_succ, half, ih]; rfl

theorem changeSet_getLsbD (v : BitVec 16) (add del : List Nat) (k : Nat) :
    (State.changeSet v add del).getLsbD k =
      ((v.getLsbD k || (decide (k < 16) && add.contains k)) && (decide (k < 16) && !del.contains k)) := by
  have bits : ∀ l : List Nat,
      (BitVec.ofNat 16 (flagBits ((List.range 16).map l.contains))).getLsbD k = (decide (k < 16) && l.contains k) := by
    intro l
    rw [BitVec.getLsbD_ofNat, flagBits_testBit]
    by_cases hk : k < 16 <;> simp [hk, List.getD]
  unfold State.changeSet
  rw [BitVec.getLsbD_and, BitVec.getLsbD_or, BitVec.getLsbD_not, bits, bits]
  cases decide (k < 16) <;> simp

/-- R187, R189: what `State.linkLawful` says of the link unit. -/
def LinkUnit.lawful (l : LinkUnit) : Prop :=
  l.queue.length ≤ 64 ∧ l.lost ≤ 65535 ∧ l.filters.getLsbD Category.fault.number = true ∧
  l.filters.getLsbD Category.part.number = true

/-- A predicate that every command keeps: the events of the field by `Lasting`, the events of the bells, and what the
requests, the keys and the table store do. -/
structure Standing (Q P : State → Prop) : Prop extends Lasting (fun _ => True) Q P where
  rings : ∀ i s, ofBells i = true → P s → Gives P (exec i s)
  link : ∀ l s, (s.link.lawful → l.lawful) → P s → P { s with link := l }
  staging : ∀ rs l s, (rs.length ≤ 160 ∨ rs = s.store.staged) → (l = .empty → rs = []) → P s →
    P { s with store := { s.store with staged := rs, load := l } }
  part : ∀ p b c e s, P s → Q { s with store := { s.store with part := p, buffer := b, copy := c, entered := e } }
  keys : ∀ r c s, P s → P { s with resetKey := r, commissioningKey := c }
  takeMasked : ∀ s, P s → P s.takeMasked
  masks : ∀ m u s, State.badClasses m u = false → m.any (fun c => !State.maskableCode c) = false → P s →
    P (s.setFaults { s.faults with masked := State.changeSet s.faults.masked m u })
  shortAlarm : ∀ a s, P s → P (s.setFaults { s.faults with shortAlarm := a })
  boxReset : ∀ s, P s → P s.boxReset
  powerUp : ∀ p s, P s → P (s.powerUp p)
  writeComplete : ∀ t s, P s → P (s.writeComplete t)
  writeFail : ∀ s, P s → P s.writeFail

/-- `Standing`, for a predicate that reads neither the clock nor the queue of commands. -/
structure Stepping (Q P : State → Prop) : Prop extends Standing Q P where
  pending : ∀ q s, P s → P { s with pending := q }
  now : ∀ n s, P s → P { s with now := n }

namespace Standing

variable {Q P : State → Prop} (h : Standing Q P) {s : State}
include h

theorem reply (k : Byte) (o : ReplyOutcome) (d : List Byte) (hs : P s) : P (s.reply k o d) := h.link _ s id hs

theorem request (k : RequestKind) (f : List Byte) (b : Bool) (owner : State → State) (ho : P (owner s)) (hs : P s) :
    P (s.request k f b owner) := ite_keeps (ite_keeps ho (h.reply _ _ _ hs)) hs

/-- A request whose owner is reached outside STORING only, or that is refused. -/
theorem unlessBusy (k : RequestKind) (owner : State → State) (ho : P (owner s)) (hs : P s) :
    P (State.unlessBusy k owner s) := ite_keeps (h.reply _ _ _ hs) ho

theorem plainRequest (k : RequestKind) (f : List Byte) (owner : State → State) (ho : P (owner s)) (hs : P s) :
    P (s.plainRequest k f owner) := h.request _ _ _ _ (h.unlessBusy _ _ ho hs) hs

theorem byteRequest (k : RequestKind) (f : List Byte) (owner : Nat → State → State) (ho : ∀ n, P (owner n s))
    (hs : P s) : P (s.byteRequest k f owner) := h.request _ _ _ _ (ho _) hs

theorem poll (n : Nat) (hs : P s) : P (s.poll n) := by
  unfold State.poll; split
  · refine h.reply _ _ _ (h.link _ s (fun hl => ?_) hs)
    obtain ⟨hq, -, hf, hp⟩ := hl
    exact ⟨by simp; omega, by simp, hf, hp⟩
  · exact h.reply _ _ _ hs

theorem setReporting (e d : List Nat) (hs : P s) : P (s.setReporting e d) := by
  unfold State.setReporting; split
  · exact h.reply _ _ _ hs
  · rename_i hb
    refine h.reply _ _ _ (h.link _ s (fun hl => ?_) hs)
    obtain ⟨hq, hlost, hf, hp⟩ := hl
    have hd : d.contains Category.fault.number = false ∧ d.contains Category.part.number = false := by
      simp only [State.badCategories, Bool.or_eq_true, not_or, Bool.not_eq_true] at hb
      exact ⟨hb.1.2, hb.2⟩
    have keeps : ∀ k, k < 16 → s.link.filters.getLsbD k = true → d.contains k = false →
        (State.changeSet s.link.filters e d).getLsbD k = true := fun k hk hset hdel => by
      rw [changeSet_getLsbD, hset, hdel, decide_eq_true hk]; rfl
    exact ⟨hq, hlost, keeps _ (by decide) hf hd.1, keeps _ (by decide) hp hd.2⟩

theorem linkReset (hs : P s) : P s.resetLink := by
  have filtered : (0x3FD : BitVec 16).getLsbD Category.fault.number = true ∧
      (0x3FD : BitVec 16).getLsbD Category.part.number = true := by decide
  have unstaged : P { s with store := { s.store with staged := [], load := .empty } } :=
    h.staging [] .empty s (.inl (by simp)) (fun _ => rfl) hs
  exact h.link { s.link with queue := [], lost := 0, filters := 0x3FD } _
    (fun _ => ⟨by simp, by simp, filtered.1, filtered.2⟩) unstaged

theorem setMasks (m u : List Nat) (hs : P s) : P (s.setMasks m u) := by
  unfold State.setMasks; split
  · exact h.reply _ _ _ hs
  · rename_i hb
    split
    · exact h.reply _ _ _ hs
    · rename_i hm
      have masked := h.masks m u s (by simpa using hb) (by simpa using hm) hs
      exact h.reply _ _ _ (ite_keeps masked (h.firm.report _ _ _ _ _ masked))

theorem trackOutOfUse (t : Nat) (hs : P s) : P (s.trackOutOfUse t) := by
  unfold State.trackOutOfUse; split
  · split
    · rename_i hf
      exact h.reply _ _ _ (h.takeOutOfUse t hf hs)
    · exact h.reply _ _ _ hs
  · exact h.reply _ _ _ hs

theorem trackInUse (t : Nat) (hs : P s) : P (s.trackInUse t) := by
  unfold State.trackInUse; split
  · split
    · exact h.reply _ _ _ hs
    · rename_i rec hrec
      split
      · rename_i ho
        exact h.reply _ _ _ (h.putInUse t rec hrec ho hs)
      · exact h.reply _ _ _ hs
  · exact h.reply _ _ _ hs

/-- R175: the outcome of a load, its records standing. -/
theorem closeLoad (l : LoadState) (hl : l ≠ .empty) (n : Nat) (d : List Byte) (hs : P s) :
    P ((s.setStore { s.store with load := l }).partReport n d) :=
  h.firm.report _ _ _ _ _ (h.staging s.store.staged l s (.inr rfl) (fun he => (hl he).elim) hs)

theorem verify (hs : P s) : P s.verify := by
  unfold State.verify; split
  · exact h.closeLoad _ (by simp) _ _ hs
  · exact h.closeLoad _ (by simp) _ _ hs

theorem loadRecord (more : Byte) (body : List Byte) (hs : P s) : P (s.loadRecord more body) := by
  unfold State.loadRecord; split
  · rename_i ho
    split
    · exact h.reply _ _ _ hs
    · rename_i r _
      refine h.reply _ _ _ ?_
      unfold State.stage; split
      · exact h.closeLoad _ (by simp) _ _ hs
      · rename_i hroom
        have staged : P (s.setStore { s.store with staged := s.store.staged ++ [r] }) := by
          have room : s.store.staged.length < 160 := Nat.lt_of_not_le hroom
          refine h.staging (s.store.staged ++ [r]) s.store.load s (.inl (by simp; omega)) (fun he => ?_) hs
          rw [ho] at he; cases he
        exact ite_keeps staged (h.verify staged)
  · exact h.reply _ _ _ hs

theorem loadBegin (hs : P s) : P s.loadBegin :=
  h.reply _ _ _ (h.firm.report _ _ _ _ _ (h.staging [] .opened s (.inl (by simp)) (fun _ => rfl) hs))

theorem loadAbandon (hs : P s) : P s.loadAbandon :=
  h.reply _ _ _ (h.firm.report _ _ _ _ _ (h.staging [] .empty s (.inl (by simp)) (fun _ => rfl) hs))

theorem commission (fp : Word16) (key : Bool) (hs : P s) : P (s.commission fp key) := by
  unfold State.commission; split
  · exact h.reply _ _ _ (h.firm.report _ _ _ _ _ hs)
  · exact h.reply _ _ _ (h.evaluate _ _ (h.rough.report _ _ _ _ _ (h.part _ _ _ _ s hs)))

theorem endProving (hs : P s) : P s.endProving :=
  h.evaluate _ _ (h.rough.report _ _ _ _ _ (h.part .running _ _ _ _ (h.startSections hs)))

/-- Every command keeps the predicate. -/
theorem exec (i : Instr) (hs : P s) : Gives P (exec i s) := by
  cases i with
  | powerOn p => exact gives_next (h.powerUp p s hs)
  | identify f => exact gives_next (h.request _ _ _ _ (h.reply _ _ _ hs) hs)
  | poll f => exact gives_next (h.byteRequest _ _ _ (fun n => h.poll n hs) hs)
  | readLevers f =>
    exact gives_next (h.byteRequest _ _ _ (fun n => h.unlessBusy _ _ (ite_keeps (h.reply _ _ _ hs) (h.reply _ _ _ hs)) hs) hs)
  | readTracks f =>
    exact gives_next (h.byteRequest _ _ _ (fun n => h.unlessBusy _ _ (ite_keeps (h.reply _ _ _ hs) (h.reply _ _ _ hs)) hs) hs)
  | readSection f =>
    refine gives_next (h.byteRequest _ _ _ (fun n => h.unlessBusy _ _ ?_ hs) hs)
    split <;> exact h.reply _ _ _ hs
  | readApproach f => exact gives_next (h.plainRequest _ _ _ (h.reply _ _ _ hs) hs)
  | readSequences f => exact gives_next (h.plainRequest _ _ _ (h.reply _ _ _ hs) hs)
  | readRaw f =>
    exact gives_next (h.byteRequest _ _ _ (fun n => ite_keeps (h.reply _ _ _ (h.scanner _ s hs)) (h.reply _ _ _ hs)) hs)
  | readFaults f => exact gives_next (h.plainRequest _ _ _ (h.reply _ _ _ hs) hs)
  | takeFaults f => exact gives_next (h.plainRequest _ _ _ (h.reply _ _ _ (h.takeMasked s hs)) hs)
  | setMasks f =>
    refine gives_next ?_
    split
    · exact h.request _ _ _ _ hs hs
    · exact h.request _ _ _ _ (h.unlessBusy _ _ (h.setMasks _ _ hs) hs) hs
  | setReporting f =>
    refine gives_next ?_
    split
    · exact h.request _ _ _ _ hs hs
    · exact h.request _ _ _ _ (h.unlessBusy _ _ (h.setReporting _ _ hs) hs) hs
  | trackOutOfUse f => exact gives_next (h.byteRequest _ _ _ (fun n => h.unlessBusy _ _ (h.trackOutOfUse n hs) hs) hs)
  | trackInUse f => exact gives_next (h.byteRequest _ _ _ (fun n => h.unlessBusy _ _ (h.trackInUse n hs) hs) hs)
  | loadBegin f => exact gives_next (h.plainRequest _ _ _ (h.loadBegin hs) hs)
  | loadAbandon f => exact gives_next (h.plainRequest _ _ _ (h.loadAbandon hs) hs)
  | loadRecord f =>
    refine gives_next ?_
    split
    · exact h.request _ _ _ _ hs hs
    · exact h.request _ _ _ _ (h.unlessBusy _ _ (h.loadRecord _ _ hs) hs) hs
  | loadStatus f => exact gives_next (h.plainRequest _ _ _ (h.reply _ _ _ hs) hs)
  | commission f key =>
    refine gives_next ?_
    split
    · exact h.request _ _ _ _ (h.commission _ _ (h.keys s.resetKey key s hs)) hs
    · exact h.request _ _ _ _ hs hs
  | readTable f =>
    refine gives_next ?_
    split
    · exact h.request _ _ _ _ (h.unlessBusy _ _ (ite_keeps (ite_keeps (h.reply _ _ _ hs) (h.reply _ _ _ hs))
        (h.reply _ _ _ hs)) hs) hs
    · exact h.request _ _ _ _ hs hs
  | linkReset f b =>
    exact gives_next (ite_keeps (ite_keeps (h.linkReset hs) hs) (h.request _ _ _ _ (h.reply _ _ _ (h.linkReset hs)) hs))
  | unknownRequestKind k f =>
    change Gives P (execUnknownRequestKind k f s)
    unfold execUnknownRequestKind; split
    · rintro t ⟨⟩
    · exact gives_next (ite_keeps (h.reply _ _ _ hs) hs)
  | frameDiscarded w => exact gives_next hs
  | interCharacterGap => exact gives_next hs
  | replyTransmission =>
    refine gives_next ?_
    split
    · exact hs
    · exact h.link _ s id hs
  | scanPass raw => exact h.scanPass raw hs
  | leverContactChange n k b => exact h.leverContactChange n k b trivial hs
  | transitLimit n => exact h.transitLimit n hs
  | lockReadbackChange n b => exact h.lockReadbackChange n b trivial hs
  | readbackWindowClose n => exact h.readbackWindowClose n hs
  | plungerChange k b => exact h.plungerChange k b hs
  | boxResetKey b =>
    have key : P { s with resetKey := b } := h.keys b s.commissioningKey s hs
    exact gives_next (ite_keeps hs (ite_keeps (h.boxReset _ key) key))
  | handleContactChange x k b => exact h.handleContactChange x k b hs
  | handleMovingTimeout x => exact h.handleMovingTimeout x hs
  | attentionLapsed x => exact h.attentionLapsed x hs
  | stepTimeout q => exact h.stepTimeout q hs
  | consumptionNotification c q => exact h.consumptionNotification c q hs
  | approachConsumptionAnswer a => exact h.approachConsumptionAnswer a hs
  | blockConsumptionAnswer x => exact h.blockConsumptionAnswer x hs
  | approachCountdownStep a => exact h.approachCountdownStep a hs
  | approachExpiry a => exact h.approachExpiry a hs
  | provingEnd => exact gives_next (ite_keeps (h.endProving hs) hs)
  | storeWriteComplete =>
    refine gives_next ?_
    split
    · exact hs
    · exact h.writeComplete _ s hs
  | storeWriteFailed => exact gives_next (ite_keeps (h.writeFail s hs) hs)
  | shortAlarmEnd => exact gives_next (ite_keeps (h.shortAlarm none s hs) hs)
  | _ => exact h.rings _ s rfl hs

end Standing

/-- Every step keeps the predicate: the command at the front of the queue, or what the part does of itself. -/
theorem Stepping.step {Q P : State → Prop} (h : Stepping Q P) {s t : State} (hs : P s) (ht : step s = .next t) :
    P t := by
  unfold Machine.step at ht
  split at ht
  · obtain rfl : idle s = t := by injection ht
    unfold idle; split
    · exact h.pending _ s hs
    · exact h.now _ s hs
  · exact h.exec _ (h.pending _ s hs) t ht


/-! ### The desk: the fault list, the link unit, the staging -/

/-- 8.4, R153: what `State.listLawful` and `State.masksLawful` say of the supervisor. -/
def EntriesLawful (es : List FaultEntry) : Prop :=
  es.length ≤ 16 ∧ es.Pairwise (fun e f => ¬(e.cls = f.cls ∧ e.object = f.object)) ∧
  ∀ e ∈ es, 1 ≤ e.count ∧ e.count ≤ 255 ∧ (e.alarmPending = true → e.unmasked = true ∧ e.cls.isAlarm = true)

def MasksLawful (v : BitVec 16) : Prop :=
  ∀ c, (c = FaultClass.leverForced.number ∨ c = FaultClass.lockStuckFree.number ∨ c = FaultClass.store.number ∨ 14 ≤ c) →
    v.getLsbD c = false

def Supervisor.lawful (f : Supervisor) : Prop := EntriesLawful f.entries ∧ MasksLawful f.masked

/-- 9.2: what `State.stagingLawful` says of the table store. -/
def TableStore.lawful (t : TableStore) : Prop := t.staged.length ≤ 160 ∧ (t.load = .empty → t.staged = [])

namespace EntriesLawful

variable {es : List FaultEntry} (h : EntriesLawful es)
include h

theorem sublist {fs : List FaultEntry} (hs : fs.Sublist es) : EntriesLawful fs :=
  ⟨hs.length_le.trans h.1, h.2.1.sublist hs, fun e he => h.2.2 e (hs.subset he)⟩

/-- A change of entries that keeps what names them. -/
theorem map {g : FaultEntry → FaultEntry} (hk : ∀ e, (g e).cls = e.cls ∧ (g e).object = e.object)
    (hg : ∀ e ∈ es, 1 ≤ e.count ∧ e.count ≤ 255 ∧ (e.alarmPending = true → e.unmasked = true ∧ e.cls.isAlarm = true) →
      1 ≤ (g e).count ∧ (g e).count ≤ 255 ∧ ((g e).alarmPending = true → (g e).unmasked = true ∧ (g e).cls.isAlarm = true)) :
    EntriesLawful (es.map g) := by
  refine ⟨by simpa using h.1, List.pairwise_map.2 (h.2.1.imp fun hd => ?_), fun e he => ?_⟩
  · rwa [(hk _).1, (hk _).1, (hk _).2, (hk _).2]
  · obtain ⟨f, hf, rfl⟩ := List.mem_map.1 he
    exact hg f hf (h.2.2 f hf)

/-- A new entry, for a class and object that have none. -/
theorem concat {e : FaultEntry} (hroom : es.length < 16) (hnew : ∀ f ∈ es, ¬(f.cls = e.cls ∧ f.object = e.object))
    (he : 1 ≤ e.count ∧ e.count ≤ 255 ∧ (e.alarmPending = true → e.unmasked = true ∧ e.cls.isAlarm = true)) :
    EntriesLawful (es ++ [e]) := by
  refine ⟨by simpa using hroom, List.pairwise_append.2 ⟨h.2.1, List.pairwise_singleton _ _, ?_⟩, fun f hf => ?_⟩
  · intro f hf g hg; obtain rfl := List.mem_singleton.1 hg; exact hnew f hf
  · rcases List.mem_append.1 hf with hf | hf
    · exact h.2.2 f hf
    · obtain rfl := List.mem_singleton.1 hf; exact he

end EntriesLawful

theorem FaultEntry.is_iff (c : FaultClass) (o : Nat) (e : FaultEntry) : e.is c o = true ↔ e.cls = c ∧ e.object = o := by
  simp [FaultEntry.is]

/-- R157: no entry stands for a class and object for which none is found. -/
theorem Supervisor.entryOf_eq_none {f : Supervisor} {c : FaultClass} {o : Nat} :
    f.entryOf c o = none ↔ ∀ e ∈ f.entries, ¬(e.cls = c ∧ e.object = o) := by
  simp [Supervisor.entryOf, FaultEntry.is_iff]

/-- What the desk keeps from one state to the next. -/
def DeskStep (s t : State) : Prop :=
  (s.link.lawful → t.link.lawful) ∧ (s.faults.lawful → t.faults.lawful) ∧ (s.store.lawful → t.store.lawful) ∧
  t.store.active = s.store.active

theorem DeskStep.refl (s : State) : DeskStep s s := ⟨id, id, id, rfl⟩

theorem DeskStep.trans {s t u : State} (h : DeskStep s t) (g : DeskStep t u) : DeskStep s u := by
  obtain ⟨hl, hf, hs, ha⟩ := h
  obtain ⟨gl, gf, gs, ga⟩ := g
  exact ⟨gl ∘ hl, gf ∘ hf, gs ∘ hs, ga.trans ha⟩

/-- R187: a report keeps the bounds of the queue and of the lost count. -/
theorem State.report_lawful (c : Category) (o e : Nat) (d : List Byte) (s : State) (h : s.link.lawful) :
    (s.report c o e d).link.lawful := by
  obtain ⟨hq, hl, hf, hp⟩ := h
  unfold State.report; split
  · dsimp only; split
    · rename_i hroom
      have hroom : s.link.queue.length < 64 := hroom
      exact ⟨by simp; omega, hl, hf, hp⟩
    · exact ⟨hq, Nat.min_le_left _ _, hf, hp⟩
  · exact ⟨hq, hl, hf, hp⟩

theorem DeskStep.report (c : Category) (o e : Nat) (d : List Byte) (s : State) : DeskStep s (s.report c o e d) := by
  have h := s.report_lawful c o e d
  obtain ⟨l, hl⟩ := State.report_only c o e d s
  rw [hl] at h ⊢
  exact ⟨h, id, id, rfl⟩

theorem DeskStep.setEntries {s : State} {es : List FaultEntry} (h : EntriesLawful s.faults.entries → EntriesLawful es) :
    DeskStep s (s.setEntries es) := ⟨id, fun hf => ⟨h hf.1, hf.2⟩, id, rfl⟩

theorem DeskStep.setFaults {s : State} {f : Supervisor} (h : s.faults.lawful → f.lawful) : DeskStep s (s.setFaults f) :=
  ⟨id, h, id, rfl⟩

theorem DeskStep.setOverflow (b : Bool) (s : State) : DeskStep s (s.setOverflow b) := DeskStep.setFaults fun h => h

/-- R159. -/
theorem DeskStep.endFault (c : FaultClass) (o : Nat) (s : State) : DeskStep s (s.endFault c o) := by
  unfold State.endFault; split
  · exact .refl s
  · split
    · refine .trans (.setEntries fun h => h.map (fun e => ?_) (fun e _ he => ?_)) (.report _ _ _ _ _)
      · split <;> exact ⟨rfl, rfl⟩
      · split <;> exact he
    · exact .refl s

/-- R157, R160: a raise without an entry makes one within the places of the list, or finds no room. -/
theorem DeskStep.enterNew (c : FaultClass) (o : Nat) (u m : Bool) (s : State) (hnone : s.faults.entryOf c o = none) :
    DeskStep s (s.enterNew c o u m) := by
  have hnew := Supervisor.entryOf_eq_none.1 hnone
  have fresh : let e := newEntry c o s.now u m
      1 ≤ e.count ∧ e.count ≤ 255 ∧ (e.alarmPending = true → e.unmasked = true ∧ e.cls.isAlarm = true) := by
    simp [newEntry]
  have made : ∀ t : State, DeskStep t
      (if m then t.report .fault o 5 [c.code, responseByte u, 1]
       else t.report .fault o 1 [c.code, responseByte u, orderByte c u]) := by
    intro t; split <;> exact .report _ _ _ _ _
  unfold State.enterNew; dsimp only; split
  · rename_i hroom
    exact .trans (.setEntries fun h => h.concat hroom hnew fresh) (made _)
  · rename_i hfull
    split
    · rename_i d hd
      have placed : DeskStep s (s.setEntries (s.faults.entries.eraseP (fun x => !x.active) ++ [newEntry c o s.now u m])) := by
        refine .setEntries fun h => (h.sublist List.eraseP_sublist).concat ?_ (fun f hf => ?_) fresh
        · have hlen := List.length_eraseP_of_mem (List.mem_of_find?_eq_some hd) (List.find?_some hd)
          have hpos := List.length_pos_of_mem (List.mem_of_find?_eq_some hd)
          have := h.1
          omega
        · exact hnew f (List.mem_of_mem_eraseP hf)
      refine .trans (.trans ?_ (made _)) (.report _ _ _ _ _)
      split
      · exact placed.trans (.setOverflow _ _)
      · exact placed
    · exact .trans (.setOverflow _ _) (.report _ _ _ _ _)

/-- R157: in a lawful list a class and an object have one entry, which is the one found. -/
theorem EntriesLawful.eq_of_entryOf {f : Supervisor} (h : EntriesLawful f.entries) {c : FaultClass} {o : Nat}
    {d e : FaultEntry} (hd : f.entryOf c o = some d) (he : e ∈ f.entries) (hc : e.cls = c) (ho : e.object = o) : e = d := by
  have hdm := List.mem_of_find?_eq_some hd
  have hdi := (FaultEntry.is_iff c o d).1 (List.find?_some hd)
  by_contra hne
  have symm : Std.Symm fun e f : FaultEntry => ¬(e.cls = f.cls ∧ e.object = f.object) :=
    ⟨fun _ _ hab hba => hab ⟨hba.1.symm, hba.2.symm⟩⟩
  refine h.2.1.forall he hdm hne ?_
  exact ⟨hc.trans hdi.1.symm, ho.trans hdi.2.symm⟩

/-- R158: a recurrence; the response of an entry with alarm pending stays unmasked (R155). -/
theorem DeskStep.enterRecurrence (c : FaultClass) (o : Nat) (e : FaultEntry) (m : Bool) (s : State)
    (he : s.faults.entryOf c o = some e) : DeskStep s (s.enterRecurrence c o e (s.faults.unmaskedFor c o) m) := by
  have keeps : e.unmasked = true → s.faults.unmaskedFor c o = true := fun hu => by
    simp [Supervisor.unmaskedFor, he, hu]
  have entered : DeskStep s (s.setEntries (s.faults.entries.map fun x =>
      if x.is c o then x.recur s.now (s.faults.unmaskedFor c o) m else x)) := by
    refine .setEntries fun h => h.map (fun x => ?_) (fun x hx hok => ?_)
    · split <;> exact ⟨rfl, rfl⟩
    · split
      · rename_i hi
        obtain ⟨hc, ho⟩ := (FaultEntry.is_iff c o x).1 hi
        obtain rfl : x = e := h.eq_of_entryOf he hx hc ho
        obtain ⟨hpos, -, ha⟩ := hok
        refine ⟨by simp [FaultEntry.recur], by simp [FaultEntry.recur], fun hp => ?_⟩
        rcases Bool.or_eq_true_iff.1 hp with hp | hp
        · exact Bool.and_eq_true_iff.1 hp
        · exact ⟨keeps (ha hp).1, (ha hp).2⟩
      · exact hok
  unfold State.enterRecurrence; dsimp only
  split <;> exact entered.trans (.report _ _ _ _ _)

theorem DeskStep.soundFor (c : FaultClass) (u : Bool) (s : State) : DeskStep s (s.soundFor c u) := by
  have alarmed : DeskStep s (if u && c.isAlarm && s.faults.overflow then s.setOverflow true else s) := by
    split
    · exact .setOverflow _ _
    · exact .refl s
  unfold State.soundFor; dsimp only
  generalize (if u && c.isAlarm && s.faults.overflow then s.setOverflow true else s) = t at alarmed
  split
  · exact alarmed.trans (.setFaults id)
  · exact alarmed

theorem DeskStep.enterRaise (c : FaultClass) (o : Nat) (m : Bool) (s : State) : DeskStep s (s.enterRaise c o m) := by
  unfold State.enterRaise; dsimp only
  split
  · rename_i e he
    exact (DeskStep.enterRecurrence c o e m s he).trans (.soundFor _ _ _)
  · rename_i hn
    exact (DeskStep.enterNew c o _ m s hn).trans (.soundFor _ _ _)

theorem DeskStep.register (r : Order) (o : Nat) (s : State) : DeskStep s (s.register r o) := by
  cases r <;> exact .setFaults id

theorem DeskStep.silence (s : State) : DeskStep s s.silence :=
  .setFaults fun h => ⟨(h.1.sublist List.filter_sublist).map (fun _ => ⟨rfl, rfl⟩)
    (fun _ _ hok => ⟨hok.1, hok.2.1, fun hp => by cases hp⟩), h.2⟩

theorem DeskStep.takeMasked (s : State) : DeskStep s s.takeMasked :=
  .setFaults fun h => ⟨h.1.sublist List.filter_sublist, h.2⟩

/-- R153, R154: no always-unmasked class, and nothing but a class, comes into the masked set. -/
theorem DeskStep.masks (m u : List Nat) (s : State) (hb : State.badClasses m u = false)
    (hm : (m.any fun c => !State.maskableCode c) = false) :
    DeskStep s (s.setFaults { s.faults with masked := State.changeSet s.faults.masked m u }) := by
  refine .setFaults fun h => ⟨h.1, fun c hc => ?_⟩
  have out : m.contains c = false := by
    by_contra hin
    have hin : c ∈ m := by simpa using hin
    have hclass : c < 14 := by
      simp only [State.badClasses, Bool.or_eq_false_iff, List.any_append] at hb
      by_contra hge
      have hge : (m.any fun c => decide (14 ≤ c)) = true :=
        List.any_eq_true.2 ⟨c, hin, decide_eq_true (Nat.le_of_not_lt hge)⟩
      rw [hb.1.1] at hge; cases hge
    have hok : State.maskableCode c = true := by
      by_contra hno
      have hno : (m.any fun c => !State.maskableCode c) = true := List.any_eq_true.2 ⟨c, hin, by simpa using hno⟩
      rw [hm] at hno; cases hno
    simp only [State.maskableCode, Bool.and_eq_true, bne_iff_ne] at hok
    rcases hc with hc | hc | hc | hc
    · exact hok.1.1 hc
    · exact hok.1.2 hc
    · exact hok.2 hc
    · omega
  rw [changeSet_getLsbD, h.2 c hc, out]; simp

/-! ### Predicates of one block -/

/-- Nothing but what no block keeps its invariant in: the clock, the queues of hand-offs, the keys, the scanner, the
plungers and the frame unit. -/
def OnlyOuter (s t : State) : Prop :=
  t.tracks = s.tracks ∧ t.seqs = s.seqs ∧ t.locks = s.locks ∧ t.sections = s.sections ∧ t.bells = s.bells ∧
  t.faults = s.faults ∧ t.store = s.store ∧ t.link = s.link

/-- What every start leaves of the circuits, the sequences, the locks, the sections and the bells (R66, R73, R88, R120,
R126). -/
def Started (s : State) : Prop :=
  s.tracks = Vector.replicate 24 {} ∧ s.seqs = Vector.replicate 16 {} ∧
  (∀ a, (s.lockn a).phase ≠ .timing ∧ (s.lockn a).remaining = none) ∧
  (∀ x, (s.sectn x).state = none ∧ (s.sectn x).drive = .off ∧ (s.sectn x).frozen = false) ∧
  ∀ x, (s.bell x).outbound.code = none ∧ (s.bell x).inbound.code = none ∧ (s.bell x).crossed = false

/-- R62: the fail order is lifted. -/
def TrackLift (s : State) (t : Nat) (y : TrackState) : Prop :=
  ∃ rec, s.trackRec t = some rec ∧ (s.track t).failedMark = true ∧
    (((s.track t).state = .failed ∧ y = { (s.track t).recover rec.clearCount.toNat with failedMark := false }) ∨
      ((s.track t).state = .outOfUse ∧ y = { s.track t with failedMark := false }))

/-- A predicate of one block, which no other block touches, and which no verdict has a part in. -/
structure Plain (P : State → Prop) : Prop where
  outer : ∀ s t, OnlyOuter s t → P s → P t
  desk : ∀ s t, OnlyOuter { s with link := t.link, faults := t.faults, store := t.store } t → DeskStep s t → P s → P t
  track : ∀ t f s, TrackTurn s t (f (s.track t)) ∨ TrackLift s t (f (s.track t)) ∨ f = TrackState.failedBy ∨
    f = TrackState.markedBy → P s → P (s.updTrack t f)
  seq : ∀ q f s, (∀ rec, s.seqRec q = some rec → rec.stepOk (s.seqn q) → rec.stepOk (f (s.seqn q))) →
    P s → P (s.updSeq q f)
  lock : ∀ a f s, (∀ rec, s.approachRec a = some rec → rec.timeOk (s.lockn a) → rec.timeOk (f (s.lockn a))) →
    P s → P (s.updLock a f)
  sect : ∀ x f s, ((s.sectn x).driveOk → (f (s.sectn x)).driveOk) → P s → P (s.updSect x f)
  started : ∀ s t, Started t → (s.link.lawful → t.link.lawful) → (s.faults.lawful → t.faults.lawful) →
    (s.store.lawful → t.store.lawful) → P s → P t

theorem OnlyOuter.refl (s : State) : OnlyOuter s s := ⟨rfl, rfl, rfl, rfl, rfl, rfl, rfl, rfl⟩

/-- An update that touches nothing but the desk. -/
theorem Plain.deskStep {P : State → Prop} (h : Plain P) {s t : State}
    (ht : t = { s with link := t.link, faults := t.faults, store := t.store }) (hd : DeskStep s t) (hs : P s) : P t :=
  h.desk s t (ht ▸ OnlyOuter.refl _) hd hs

/-- An evaluation makes reports and ends, and writes the records of levers. -/
theorem State.evaluate_keeps {P : State → Prop} (report : ∀ c o e d s, P s → P (s.report c o e d))
    (endFault : ∀ o s, P s → P (s.endFault .lockDrive o)) (lever : ∀ n f s, P s → P (s.updLever n f)) (c : LockCause)
    {s : State} (hs : P s) : P (s.evaluate c) := by
  have command : ∀ n k u, P u → P (u.setCommand c n k) := fun n k u hu => by
    unfold State.setCommand State.endIf
    exact ite_keeps hu (ite_keeps (endFault _ _ (report _ _ _ _ _ (lever _ _ _ hu))) (report _ _ _ _ _ (lever _ _ _ hu)))
  refine forEach_inv (fun n u hu => ?_) _ s hs
  exact ite_keeps (ite_keeps (command _ _ _ (lever _ _ _ hu)) (lever _ _ _ hu)) hu

namespace Plain

variable {P : State → Prop} (h : Plain P) {s : State}
include h

theorem report (c : Category) (o e : Nat) (d : List Byte) (s : State) (hs : P s) : P (s.report c o e d) := by
  refine h.deskStep ?_ (.report c o e d s) hs
  obtain ⟨l, hl⟩ := State.report_only c o e d s
  rw [hl]

theorem onlyFaults {t : State} (ht : OnlyFaults s t) (hd : DeskStep s t) (hs : P s) : P t := by
  refine h.deskStep ?_ hd hs
  obtain ⟨l, f, rfl⟩ := ht; rfl

theorem lever (n : Nat) (f : LeverState → LeverState) (s : State) (hs : P s) : P (s.updLever n f) :=
  h.outer s _ ⟨rfl, rfl, rfl, rfl, rfl, rfl, rfl, rfl⟩ hs

theorem rough : Rough (fun _ => True) P where
  report := h.report
  endFault c o s := h.onlyFaults (State.endFault_only c o s) (.endFault c o s)
  lever n f s _ _ := h.lever n f s
  track t f s ht := h.track t f s (.inl ht)
  seq := h.seq
  lock := h.lock
  sect x f s _ := h.sect x f s
  notice _ _ s := h.outer s _ ⟨rfl, rfl, rfl, rfl, rfl, rfl, rfl, rfl⟩

theorem ordering : Ordering (fun _ => True) P P where
  rough := h.rough
  firm := h.rough.firm
  weaken _ := id
  evaluate c _ hs := State.evaluate_keeps h.report (h.rough.endFault .lockDrive) h.lever c hs
  unfitted n f s _ _ _ _ _ := h.lever n f s
  enterRaise c o m s := h.onlyFaults (State.enterRaise_only c o m s) (.enterRaise c o m s)
  enterRaiseInside c o m s := h.onlyFaults (State.enterRaise_only c o m s) (.enterRaise c o m s)
  register r o s := h.onlyFaults (State.register_only r o s) (.register r o s)
  registerInside r o s := h.onlyFaults (State.register_only r o s) (.register r o s)
  supply _ s := h.outer s _ ⟨rfl, rfl, rfl, rfl, rfl, rfl, rfl, rfl⟩
  mark t s := h.track t _ s (.inr (.inr (.inr rfl)))
  markInside t s := h.track t _ s (.inr (.inr (.inr rfl)))
  failUnread t s _ := h.track t _ s (.inr (.inr (.inl rfl)))
  fail t s := h.track t _ s (.inr (.inr (.inl rfl)))
  freeze x s := h.sect x _ s id

theorem lasting : Lasting (fun _ => True) P P where
  toRaising := h.ordering.raising
  scanner _ s := h.outer s _ ⟨rfl, rfl, rfl, rfl, rfl, rfl, rfl, rfl⟩
  plungers _ s := h.outer s _ ⟨rfl, rfl, rfl, rfl, rfl, rfl, rfl, rfl⟩
  notices _ s := h.outer s _ ⟨rfl, rfl, rfl, rfl, rfl, rfl, rfl, rfl⟩
  answers _ s := h.outer s _ ⟨rfl, rfl, rfl, rfl, rfl, rfl, rfl, rfl⟩
  lockSupply _ _ s := h.outer s _ ⟨rfl, rfl, rfl, rfl, rfl, rfl, rfl, rfl⟩

end Plain

/-! ### The box reset -/

/-- R163, step 3: what the owners hand again. -/
theorem Raising.handAll {L : Nat → Prop} {Q P : State → Prop} (h : Raising L Q P) {s : State} (hs : P s) : P s.handAll := by
  have again : ∀ b c o (u : State), c.names o → P u → P (u.handAgain b c o) := fun b c o u hc hu =>
    ite_keeps (h.raise false c o u hc hu) hu
  have levers : ∀ n (u : State), P u → P (u.handLever n) := fun n u hu =>
    again _ _ _ _ (FaultClass.names_of_frame (.inr rfl)) (again _ _ _ _ (FaultClass.names_of_frame (.inl rfl))
      (again _ _ _ _ (FaultClass.names_of_frame (.inr rfl)) (again _ _ _ _ (FaultClass.names_of_frame (.inl rfl)) hu)))
  have tracks : ∀ t ∈ allTracks, ∀ u : State, P u → P (u.handTrack t) := fun t ht u hu => by
    have ht : 1 ≤ t := by simp [allTracks, List.mem_range'] at ht; omega
    exact again _ _ _ _ (FaultClass.names_track ht (by decide)) (again _ _ _ _ (FaultClass.names_track ht (by decide)) hu)
  have sections : ∀ x (u : State), P u → P (u.handSection x) := fun x u hu =>
    again _ _ _ _ (FaultClass.names_secCode x (by decide)) hu
  have bells : ∀ x (u : State), P u → P (u.handBell x) := fun x u hu =>
    again _ _ _ _ (FaultClass.names_of_frame (.inl rfl)) (again _ _ _ _ (FaultClass.names_of_frame (.inl rfl)) hu)
  exact forEach_inv bells _ _ (forEach_inv sections _ _ (forEach_inv_mem _ tracks _
    (again _ _ _ _ (FaultClass.names_of_frame (.inl rfl)) (forEach_inv levers _ s hs))))

/-- R62, R65: a circuit is lifted, with its report, or stands. -/
theorem State.liftTrack_cases {P : State → Prop} {s : State} (t : Nat)
    (lift : ∀ f, TrackLift s t (f (s.track t)) → ∀ a, P ((s.updTrack t f).trackReport t 6 a (s.track t).state)) (hs : P s) :
    P (s.liftTrack t) := by
  unfold State.liftTrack; split
  · exact hs
  · rename_i rec hrec
    dsimp only; split
    · rename_i hm hx
      exact lift (fun y => { y.recover rec.clearCount.toNat with failedMark := false }) ⟨rec, hrec, hm, .inl ⟨hx, rfl⟩⟩ _
    · rename_i hm hx
      exact lift (fun y => { y with failedMark := false }) ⟨rec, hrec, hm, .inr ⟨hx, rfl⟩⟩ _
    · exact hs

/-- What the box reset key removes, hands again and lifts (R163, R164), for a predicate that the desk's changes and the
lifts keep. -/
theorem Ordering.boxReset {L : Nat → Prop} {Q P : State → Prop} (o : Ordering L Q P)
    (faults : ∀ s t, OnlyFaults s t → DeskStep s t → P s → P t)
    (lift : ∀ t f s, TrackLift s t (f (s.track t)) → P s → P (s.updTrack t f))
    (thaw : ∀ x s, P s → Q (s.updSect x fun r => { r with frozen := false })) {s : State} (hs : P s) : P s.boxReset := by
  have raising := o.raising
  have overflow : P s.silence.restoreOverflow := by
    have silent : P s.silence := faults _ _ (State.setFaults_only _ s) (.silence s) hs
    exact ite_keeps (raising.handAll (faults _ _ (State.setFaults_only _ _) (.setFaults id) silent)) silent
  have lifts : ∀ f x t (u : State), P u → P (u.sendLifts f x t) := fun f x t u hu => by
    have restored : P (if f then u.restoreFrame else u) := ite_keeps
      (o.evaluate _ _ (o.rough.report _ _ _ _ _ (o.supply true u (o.weaken _ hu)))) hu
    refine forEach_inv (fun y v => raising.irregular y) _ _ (forEach_inv (fun n v hv => ite_keeps ?_ hv) _ _
      (forEach_inv (fun y v hv => raising.unfreeze y (fun _ => thaw y v hv) fun _ => hv) _ _ restored))
    exact State.liftTrack_cases n (fun g hg a => o.firm.report _ _ _ _ _ (lift n g v hg hv)) hv
  exact lifts _ _ _ _ (o.firm.report _ _ _ _ _ (faults _ _ (State.setFaults_only _ _) (.setFaults id) overflow))

theorem Plain.boxReset {P : State → Prop} (h : Plain P) {s : State} (hs : P s) : P s.boxReset :=
  h.ordering.boxReset (fun _ _ => h.onlyFaults) (fun t f s hf => h.track t f s (.inr (.inl hf)))
    (fun x s => h.sect x _ s id) hs

/-! ### The starts -/

/-- A fold of which each step rewrites the record of its own object, from what stands all along. -/
theorem forEach_get {α β γ : Type} [DecidableEq α] {get : State → α → β} {env : State → γ} {g : α → γ → β → β}
    {f : α → State → State} (xs : List α) (hn : xs.Nodup)
    (hget : ∀ x ∈ xs, ∀ s y, get (f x s) y = if y = x then g x (env s) (get s x) else get s y)
    (henv : ∀ x ∈ xs, ∀ s, env (f x s) = env s) :
    ∀ s y, get (forEach xs f s) y = if y ∈ xs then g y (env s) (get s y) else get s y := by
  induction xs with
  | nil => intro s y; simp
  | cons x xs ih =>
    intro s y
    obtain ⟨hx, hxs⟩ := List.nodup_cons.1 hn
    rw [forEach_cons, ih hxs (fun z hz => hget z (List.mem_cons_of_mem x hz)) (fun z hz => henv z (List.mem_cons_of_mem x hz)),
      henv x List.mem_cons_self, hget x List.mem_cons_self]
    by_cases hy : y = x
    · subst hy; simp [hx]
    · simp [hy]

theorem mem_allSections (x : SectionId) : x ∈ allSections := by cases x <;> decide

theorem mem_allLevers {n : Nat} : n ∈ allLevers ↔ leverOk n = true := by
  simp [allLevers, leverOk, List.mem_range'_1]; omega

theorem mem_allLocks {a : Nat} : a ∈ allLocks ↔ lockOk a = true := by
  simp [allLocks, lockOk, List.mem_range'_1]; omega

theorem mem_allSequences {q : Nat} : q ∈ allSequences ↔ sequenceOk q = true := by
  simp [allSequences, sequenceOk, List.mem_range'_1]; omega

theorem mem_allTracks {t : Nat} : t ∈ allTracks ↔ 1 ≤ t ∧ t ≤ 24 := by
  simp [allTracks, List.mem_range'_1]; omega

/-- What stands while one bank of records is rewritten. -/
theorem forEach_frame {α β : Type} (put : State → β → State) (hput : ∀ s a b, put (put s a) b = put s b)
    (hself : ∀ s, ∃ a, put s a = s) {f : α → State → State} (h : ∀ x s, ∃ a, f x s = put s a) (xs : List α) (s : State) :
    ∃ a, forEach xs f s = put s a := by
  refine forEach_keeps (R := fun s t => ∃ a, t = put s a) (fun s => ?_) ?_ h xs s
  · obtain ⟨a, ha⟩ := hself s; exact ⟨a, ha.symm⟩
  · rintro s t u ⟨a, rfl⟩ ⟨b, rfl⟩; exact ⟨b, hput _ _ _⟩

namespace State

theorem startLevers_eq (s : State) :
    ∃ lv, forEach allLevers startLever s = { s with frame := { s.frame with levers := lv } } :=
  forEach_frame (fun s lv => { s with frame := { s.frame with levers := lv } }) (fun _ _ _ => rfl)
    (fun s => ⟨s.frame.levers, rfl⟩) (fun _ _ => ⟨_, rfl⟩) _ s

theorem startLock_eq (a : Nat) (s : State) : ∃ lo, startLock a s = { s with locks := lo } := by
  unfold startLock; split
  · exact ⟨s.locks, rfl⟩
  · exact ⟨_, rfl⟩

theorem startLocks_eq (s : State) : ∃ lo, forEach allLocks startLock s = { s with locks := lo } :=
  forEach_frame (fun s lo => { s with locks := lo }) (fun _ _ _ => rfl) (fun s => ⟨s.locks, rfl⟩) startLock_eq _ s

theorem startBells_eq (s : State) : ∃ b, forEach allSections startBell s = { s with bells := b } :=
  forEach_frame (fun s b => { s with bells := b }) (fun _ _ _ => rfl) (fun s => ⟨s.bells, rfl⟩) (fun _ _ => ⟨_, rfl⟩) _ s

theorem startSectns_eq (s : State) : ∃ se, forEach allSections startSectn s = { s with sections := se } :=
  forEach_frame (fun s se => { s with sections := se }) (fun _ _ _ => rfl) (fun s => ⟨s.sections, rfl⟩)
    (fun _ _ => ⟨_, rfl⟩) _ s

/-- R120, R121. -/
theorem startBells_bell (s : State) (x : SectionId) :
    (forEach allSections startBell s).bell x = (s.bell x).started s.now (s.assembles x) := by
  have := forEach_get (get := bell) (env := fun s => (s.now, s.assembles))
    (g := fun x e b => b.started e.1 (e.2 x)) (f := startBell) allSections (by decide)
    (fun x _ s y => bell_updBell x y _ s) (fun x _ s => rfl) s x
  rwa [if_pos (mem_allSections x)] at this

theorem startSectns_sectn (s : State) (x : SectionId) :
    (forEach allSections startSectn s).sectn x = (s.sectn x).started := by
  have := forEach_get (get := sectn) (env := fun _ => ()) (g := fun _ _ r => r.started) (f := startSectn) allSections
    (by decide) (fun x _ s y => sectn_updSect x y _ s) (fun x _ s => rfl) s x
  rwa [if_pos (mem_allSections x)] at this

end State

theorem BellState.started_codes (now : Time) (b : Bool) (r : BellState) :
    (r.started now b).outbound.code = none ∧ (r.started now b).inbound.code = none ∧ (r.started now b).crossed = false := by
  unfold BellState.started Assembler.started
  refine ⟨?_, ?_, rfl⟩ <;> dsimp only <;> split <;> rfl

/-- Every section given up or begun, every bank of the monitor and the locks afresh. -/
theorem Started.of_starts {s : State} (ht : s.tracks = Vector.replicate 24 {}) (hq : s.seqs = Vector.replicate 16 {})
    (hl : ∀ a, (s.lockn a).phase ≠ .timing ∧ (s.lockn a).remaining = none) :
    Started (forEach allSections State.startSectn (forEach allSections State.startBell s)) := by
  obtain ⟨b, hb⟩ := State.startBells_eq s
  obtain ⟨se, hse⟩ := State.startSectns_eq (forEach allSections State.startBell s)
  refine ⟨by rw [hse, hb]; exact ht, by rw [hse, hb]; exact hq, fun a => by rw [hse, hb]; exact hl a, fun x => ?_, fun x => ?_⟩
  · rw [State.startSectns_sectn]; exact ⟨rfl, rfl, rfl⟩
  · have : ∀ u : State, u = { forEach allSections State.startBell s with sections := se } →
        u.bell x = (forEach allSections State.startBell s).bell x := by rintro u rfl; rfl
    rw [this _ hse, State.startBells_bell]
    exact BellState.started_codes _ _ _

theorem Bank.at_replicate {α : Type} [Inhabited α] {n : Nat} {v : α} (hv : v = default) (k : Nat) :
    Bank.at (Vector.replicate n v : Bank α n) k = default := by
  cases k with
  | zero => rfl
  | succ j => by_cases hj : j < n <;> simp [Bank.at, hj, hv]

/-- What a start of the records leaves of the desk and the clock. -/
theorem State.startRecords_eq (s : State) : ∃ lv tr sq lo b se, s.startRecords =
    { s with frame := { levers := lv, supplyOn := s.frame.supplyOn, lowRun := 0, lockSupply := false }
             tracks := tr, seqs := sq, locks := lo, bells := b, sections := se } := by
  unfold State.startRecords; dsimp only
  obtain ⟨lv, h1⟩ := State.startLevers_eq
    { s with tracks := Vector.replicate 24 {}, seqs := Vector.replicate 16 {}, locks := Vector.replicate 16 {} }
  rw [h1]
  obtain ⟨lo, h2⟩ := State.startLocks_eq
    { s with tracks := Vector.replicate 24 {}, seqs := Vector.replicate 16 {}, locks := Vector.replicate 16 {},
             frame := { levers := lv, supplyOn := s.frame.supplyOn, lowRun := 0, lockSupply := false } }
  rw [h2]
  obtain ⟨b, h3⟩ := State.startBells_eq
    { s with tracks := Vector.replicate 24 {}, seqs := Vector.replicate 16 {}, locks := lo,
             frame := { levers := lv, supplyOn := s.frame.supplyOn, lowRun := 0, lockSupply := false } }
  rw [h3]
  obtain ⟨se, h4⟩ := State.startSectns_eq
    { s with tracks := Vector.replicate 24 {}, seqs := Vector.replicate 16 {}, locks := lo,
             frame := { levers := lv, supplyOn := s.frame.supplyOn, lowRun := 0, lockSupply := false }, bells := b }
  exact ⟨_, _, _, _, _, _, h4⟩

theorem startRecords_started (s : State) : Started s.startRecords := by
  unfold State.startRecords; dsimp only
  refine Started.of_starts ?_ ?_ ?_
  all_goals
    obtain ⟨lv, h1⟩ := State.startLevers_eq
      { s with tracks := Vector.replicate 24 {}, seqs := Vector.replicate 16 {}, locks := Vector.replicate 16 {} }
    rw [h1]
  · obtain ⟨lo, h2⟩ := State.startLocks_eq
      { s with tracks := Vector.replicate 24 {}, seqs := Vector.replicate 16 {}, locks := Vector.replicate 16 {},
               frame := { levers := lv, supplyOn := s.frame.supplyOn, lowRun := 0, lockSupply := false } }
    rw [h2]
  · obtain ⟨lo, h2⟩ := State.startLocks_eq
      { s with tracks := Vector.replicate 24 {}, seqs := Vector.replicate 16 {}, locks := Vector.replicate 16 {},
               frame := { levers := lv, supplyOn := s.frame.supplyOn, lowRun := 0, lockSupply := false } }
    rw [h2]
  · refine forEach_inv (P := fun u => ∀ a, (u.lockn a).phase ≠ .timing ∧ (u.lockn a).remaining = none) (fun a u hu => ?_) _ _ ?_
    · unfold State.startLock; split
      · exact hu
      · intro b
        rw [State.lockn_updLock]; split
        · exact ⟨by unfold lockStart; dsimp only; split <;> simp, rfl⟩
        · exact hu b
    · intro a
      have : ∀ v : ApproachState, v = default → v.phase ≠ .timing ∧ v.remaining = none := by rintro v rfl; decide
      exact this _ (Bank.at_replicate rfl a)

/-! ### The table store -/

/-- An operation that makes reports and ends and writes records of levers, and nothing else. -/
def OnlyEnds (f : State → State) : Prop :=
  ∀ P : State → Prop, (∀ c o e d s, P s → P (s.report c o e d)) → (∀ c o s, P s → P (s.endFault c o)) →
    (∀ n g s, P s → P (s.updLever n g)) → ∀ s, P s → P (f s)

theorem OnlyEnds.endIf (b : Bool) (c : FaultClass) (o : Nat) : OnlyEnds (State.endIf b c o) := by
  intro P _ hend _ s hs
  exact ite_keeps (hend _ _ _ hs) hs

/-- R38, R67, R119, R147: the ends of the conditions held under a table. -/
theorem State.endOwners_onlyEnds : OnlyEnds State.endOwners := by
  intro P hr he hl s hs
  have ends : ∀ b c o (u : State), P u → P (u.endIf b c o) := fun b c o => OnlyEnds.endIf b c o P hr he hl
  exact ends _ _ _ _ (forEach_inv (fun x u hu => ends _ _ _ _ (ends _ _ _ _ hu)) _ _
    (forEach_inv (fun x u hu => ends _ _ _ _ hu) _ _ (forEach_inv (fun t u hu => ends _ _ _ _ (ends _ _ _ _ hu)) _ s hs)))

/-- R38: a lever that ceases to be fitted. -/
theorem State.releaseLever_onlyEnds (n : Nat) : OnlyEnds (State.releaseLever n) := by
  intro P hr he hl s hs
  have ends : ∀ b c o (u : State), P u → P (u.endIf b c o) := fun b c o => OnlyEnds.endIf b c o P hr he hl
  exact hl _ _ _ (ends _ _ _ _ (ends _ _ _ _ (ends _ _ _ _ (ends _ _ _ _ hs))))

theorem OnlyEnds.deskStep {f : State → State} (hf : OnlyEnds f) (s : State) : DeskStep s (f s) :=
  hf (DeskStep s) (fun _ _ _ _ _ h => h.trans (.report _ _ _ _ _)) (fun _ _ _ h => h.trans (.endFault _ _ _))
    (fun _ _ _ h => ⟨h.1, h.2.1, h.2.2.1, h.2.2.2⟩) s (.refl s)

/-- R39, R40: what is carried over a start. -/
theorem Raising.contactAtStart {P Q : State → Prop} {L : Nat → Prop} (h : Raising L Q P) (b : Bool) (n : Nat) {s : State}
    (hs : P s) : P (s.contactAtStart b n) := by
  have active : P (s.updLever n fun l => { l with contactActive := true }) :=
    h.firm.lever n _ s ⟨rfl, rfl, rfl, rfl, rfl⟩ (.inr ⟨rfl, rfl, rfl, rfl, rfl⟩) hs
  exact ite_keeps (ite_keeps active (h.raise false .leverContact n _ (FaultClass.names_of_frame (.inl rfl)) active)) hs

theorem Raising.carryLever {P Q : State → Prop} {L : Nat → Prop} (h : Raising L Q P) (l : LeverState) (n : Nat) {s : State}
    (hs : P s) : P (s.carryLever l n) :=
  h.contactAtStart _ _ (h.firm.lever n _ _ ⟨rfl, rfl, rfl, rfl, rfl⟩ (.inr ⟨rfl, rfl, rfl, rfl, rfl⟩)
    (h.firm.endIf _ _ _ (h.firm.endIf _ _ _ (h.firm.endIf _ _ _ (h.firm.endIf _ _ _ hs)))))

/-- The inputs read at power-on, and nothing else. -/
def InputsRead (s t : State) : Prop :=
  ∃ lv pl b se, t = { s with frame := { s.frame with levers := lv }, plungers := pl, bells := b, sections := se }

theorem InputsRead.refl (s : State) : InputsRead s s := ⟨s.frame.levers, s.plungers, s.bells, s.sections, rfl⟩

theorem InputsRead.trans {s t u : State} (h : InputsRead s t) (g : InputsRead t u) : InputsRead s u := by
  obtain ⟨_, _, _, _, rfl⟩ := h
  obtain ⟨lv, pl, b, se, rfl⟩ := g
  exact ⟨lv, pl, b, se, rfl⟩

/-- What a power-on reads. -/
theorem State.poweredWith_eq (p : PowerInputs) (s : State) : ∃ lv pl b se, s.poweredWith p =
    { pending := s.pending, store := { copy := s.store.copy }, resetKey := p.resetKey,
      commissioningKey := p.commissioningKey, link := { address := p.addressStraps, rate := p.rateStraps },
      frame := { levers := lv }, plungers := pl, bells := b, sections := se } := by
  have levers := forEach_keeps InputsRead.refl InputsRead.trans (f := leverInputs p)
    (fun _ u => ⟨_, u.plungers, u.bells, u.sections, rfl⟩) allLevers
  have plungers := forEach_keeps InputsRead.refl InputsRead.trans (f := plungerInputs p)
    (fun _ u => ⟨u.frame.levers, _, u.bells, u.sections, rfl⟩) (List.range' 1 8)
  have bells := forEach_keeps InputsRead.refl InputsRead.trans (f := bellInputs p)
    (fun _ u => ⟨u.frame.levers, u.plungers, _, u.sections, rfl⟩) allSections
  have handles := forEach_keeps InputsRead.refl InputsRead.trans (f := handleInputs p)
    (fun _ u => ⟨u.frame.levers, u.plungers, u.bells, _, rfl⟩) allSections
  exact (levers _).trans ((plungers _).trans ((bells _).trans (handles _)))

/-- R189: FAULT and PART are enabled at power-on and by a link reset. -/
theorem filtersAtPower : (0x3FD : BitVec 16).getLsbD Category.fault.number = true ∧
    (0x3FD : BitVec 16).getLsbD Category.part.number = true := by decide

/-- R153: the masked set at power-on. -/
theorem masksAtPower : MasksLawful 0x1EC5 := by
  intro c hc
  by_cases h : c < 16
  · have small : ∀ k : Fin 16, (k.val = FaultClass.leverForced.number ∨ k.val = FaultClass.lockStuckFree.number ∨
        k.val = FaultClass.store.number ∨ 14 ≤ k.val) → (0x1EC5 : BitVec 16).getLsbD k.val = false := by decide
    exact small ⟨c, h⟩ hc
  · exact BitVec.getLsbD_of_ge _ _ (Nat.le_of_not_lt h)

theorem State.poweredWith_lawful (p : PowerInputs) (s : State) :
    (s.poweredWith p).link.lawful ∧ (s.poweredWith p).faults.lawful ∧ (s.poweredWith p).store.lawful := by
  obtain ⟨fr, pl, b, se, he⟩ := s.poweredWith_eq p
  rw [he]
  exact ⟨⟨by simp, by simp, filtersAtPower.1, filtersAtPower.2⟩,
    ⟨⟨by simp, List.Pairwise.nil, by simp⟩, masksAtPower⟩, by simp, by simp⟩

namespace Plain

variable {P : State → Prop} (h : Plain P) {s : State}
include h

/-- A start of the records, from a state whose desk is in order. -/
theorem startRecords {t : State} (hl : s.link.lawful → t.link.lawful) (hf : s.faults.lawful → t.faults.lawful)
    (hst : s.store.lawful → t.store.lawful) (hs : P s) : P t.startRecords := by
  have hstart := startRecords_started t
  obtain ⟨fr, tr, sq, lo, b, se, he⟩ := t.startRecords_eq
  rw [he] at hstart ⊢
  exact h.started s _ hstart hl hf hst hs

theorem powerUp (p : PowerInputs) (hs : P s) : P (s.powerUp p) := by
  have o := h.ordering
  obtain ⟨hl, hf, hst⟩ := s.poweredWith_lawful p
  have records : ∀ t : State, DeskStep (s.poweredWith p) t → P t.startRecords := fun t ht =>
    h.startRecords (fun _ => ht.1 hl) (fun _ => ht.2.1 hf) (fun _ => ht.2.2.1 hst) hs
  unfold State.powerUp; dsimp only; split
  · rename_i t _
    refine o.evaluate _ _ (forEach_inv (fun n u => o.raising.contactAtStart _ n) _ _ ?_)
    have told := DeskStep.report .part 0 1 (1 :: be16 t.fingerprint)
      ((s.poweredWith p).setStore { (s.poweredWith p).store with active := some t, part := .proving,
                                                                 entered := (s.poweredWith p).now })
    exact h.startRecords (fun _ => told.1 hl) (fun _ => told.2.1 hf) (fun _ => told.2.2.1 hst) hs
  · split
    · exact records _ (.report _ _ _ _ _)
    · exact records _ (.trans (.enterRaise _ _ _ _) (.report _ _ _ _ _))

theorem writeComplete (t : Table) (hs : P s) : P (s.writeComplete t) := by
  have o := h.ordering
  refine o.evaluate _ _ (forEach_inv (fun n u => o.raising.carryLever _ n) _ _ ?_)
  have ended := State.endOwners_onlyEnds.deskStep s
  have told := DeskStep.report .part 0 3 (be16 t.fingerprint)
    (State.emptyRegister { s.endOwners with
        epoch := s.endOwners.epoch + 1
        store := { s.endOwners.store with active := some t, copy := .written t, buffer := none, part := .proving,
                                          entered := s.endOwners.now } })
  exact h.startRecords (fun hl => told.1 (ended.1 hl)) (fun hf => told.2.1 (ended.2.1 hf))
    (fun hst => told.2.2.1 (ended.2.2.1 hst)) hs

/-- R172: no table, every block giving up its records. -/
theorem givenUp (s2 : State) (hl : s.link.lawful → s2.link.lawful) (hf : s.faults.lawful → s2.faults.lawful)
    (hst : s.store.lawful → s2.store.lawful) (hs : P s) :
    P (forEach allSections State.startSectn (forEach allSections State.startBell ((State.emptyRegister
      { s2 with epoch := s2.epoch + 1
                store := { s2.store with active := none, copy := .spoiled, buffer := none, part := .uncommissioned,
                                         entered := s2.now }
                tracks := Vector.replicate 24 {}, seqs := Vector.replicate 16 {}, locks := Vector.replicate 16 {}
                frame := { s2.frame with lowRun := 0, lockSupply := false } }).partReport 4 []))) := by
  generalize hs3 : State.emptyRegister _ = s3
  have desk := DeskStep.report .part 0 4 [] s3
  obtain ⟨l, hlink⟩ := State.report_only .part 0 4 [] s3
  have hstart : Started (forEach allSections State.startSectn (forEach allSections State.startBell (s3.partReport 4 []))) := by
    have hs4 : s3.partReport 4 [] = { s3 with link := l } := hlink
    rw [hs4, ← hs3]
    refine Started.of_starts rfl rfl fun a => ?_
    have : ∀ v : ApproachState, v = default → v.phase ≠ .timing ∧ v.remaining = none := by rintro v rfl; decide
    exact this _ (Bank.at_replicate rfl a)
  obtain ⟨b, hb⟩ := (s3.partReport 4 []).startBells_eq
  obtain ⟨se, hse⟩ := (forEach allSections State.startBell (s3.partReport 4 [])).startSectns_eq
  obtain ⟨desk1, desk2, desk3, -⟩ := desk
  rw [hse, hb] at hstart ⊢
  subst hs3
  exact h.started s _ hstart (fun h1 => desk1 (hl h1)) (fun h2 => desk2 (hf h2)) (fun h3 => desk3 (hst h3)) hs

theorem writeFail (hs : P s) : P s.writeFail := by
  have codes : ∀ (x : SectionId) (u : State), DeskStep u (u.discardCodes x) := fun x u => by
    have one : ∀ d (v : State), DeskStep v (v.discardCode x d) := fun d v => by
      unfold State.discardCode; split
      · exact .report _ _ _ _ _
      · exact .refl v
    exact (one _ u).trans (one _ _)
  obtain ⟨hl, hf, hst, -⟩ := (((DeskStep.enterRaise .store 0 true s).trans
    (forEach_keeps DeskStep.refl DeskStep.trans codes allSections _)).trans (State.endOwners_onlyEnds.deskStep _)).trans
      (forEach_keeps DeskStep.refl DeskStep.trans (fun n u => (State.releaseLever_onlyEnds n).deskStep u) allLevers _)
  exact h.givenUp _ hl hf hst hs

/-- A predicate of one block that the events of the bells keep is kept by every command. -/
theorem standing (rings : ∀ i s, ofBells i = true → P s → Gives P (exec i s)) : Stepping P P where
  toLasting := h.lasting
  rings := rings
  link _ _ hl := h.deskStep rfl ⟨hl, id, id, rfl⟩
  staging _ _ _ hr hl := h.deskStep rfl ⟨id, id, fun hst => ⟨hr.elim id fun he => he ▸ hst.1, hl⟩, rfl⟩
  part _ _ _ _ _ := h.deskStep rfl ⟨id, id, id, rfl⟩
  keys _ _ s := h.outer s _ ⟨rfl, rfl, rfl, rfl, rfl, rfl, rfl, rfl⟩
  takeMasked s := h.onlyFaults (State.setFaults_only _ s) (.takeMasked s)
  masks m u s hb hm := h.onlyFaults (State.setFaults_only _ s) (.masks m u s hb hm)
  shortAlarm _ s := h.onlyFaults (State.setFaults_only _ s) (.setFaults id)
  boxReset _ := h.boxReset
  powerUp p _ := h.powerUp p
  writeComplete t _ := h.writeComplete t
  writeFail _ := h.writeFail
  pending _ s := h.outer s _ ⟨rfl, rfl, rfl, rfl, rfl, rfl, rfl, rfl⟩
  now _ s := h.outer s _ ⟨rfl, rfl, rfl, rfl, rfl, rfl, rfl, rfl⟩

/-- A predicate of one block that no update of the bells touches. -/
theorem standing_of_bells (bells : ∀ x f s, P s → P (s.updBell x f)) : Stepping P P :=
  h.standing fun i _ => (h.lasting.ringing bells).rings i

end Plain

/-! ### O60: the desk -/

/-- R153, 8.4: a predicate of the desk alone, which every lawful change of the desk keeps. -/
theorem Plain.of_desk {P : State → Prop} (h : ∀ s t, (s.link.lawful → t.link.lawful) → (s.faults.lawful → t.faults.lawful) →
    (s.store.lawful → t.store.lawful) → P s → P t) : Plain P where
  outer s t ho := by
    obtain ⟨-, -, -, -, -, hf, hs, hl⟩ := ho
    exact h s t (fun g => hl ▸ g) (fun g => hf ▸ g) (fun g => hs ▸ g)
  desk s t _ hd := h s t hd.1 hd.2.1 hd.2.2.1
  track _ _ s _ := h s _ id id id
  seq _ _ s _ := h s _ id id id
  lock _ _ s _ := h s _ id id id
  sect _ _ s _ := h s _ id id id
  started s t _ := h s t

/-- Settles O60: the desk is written by reports, raises, ends and the requests that change it, each within its
bounds (`DeskStep`). -/
theorem listsAreKept : Obligations.ListsAreKept := by
  have lists : Stepping (fun s => s.faults.lawful) fun s => s.faults.lawful :=
    (Plain.of_desk fun _ _ _ hf _ => hf).standing_of_bells fun _ _ _ => id
  have desk : Stepping (fun s => s.link.lawful ∧ s.store.lawful) fun s => s.link.lawful ∧ s.store.lawful :=
    (Plain.of_desk fun _ _ hl _ hs hk => ⟨hl hk.1, hs hk.2⟩).standing_of_bells fun _ _ _ => id
  exact ⟨fun s t hlist hmasks ht => lists.step (s := s) ⟨hlist, hmasks⟩ ht,
    fun s t hlink hstaging ht => desk.step (s := s) ⟨hlink, hstaging⟩ ht⟩

/-! ### What reports and ends leave -/

namespace State

section

variable (c : Category) (o e : Nat) (d : List Byte) (s : State)

@[simp] theorem report_pending : (s.report c o e d).pending = s.pending := by
  obtain ⟨l, hl⟩ := s.report_only c o e d; rw [hl]

@[simp] theorem report_now : (s.report c o e d).now = s.now := by
  obtain ⟨l, hl⟩ := s.report_only c o e d; rw [hl]

@[simp] theorem report_epoch : (s.report c o e d).epoch = s.epoch := by
  obtain ⟨l, hl⟩ := s.report_only c o e d; rw [hl]

@[simp] theorem report_plungers : (s.report c o e d).plungers = s.plungers := by
  obtain ⟨l, hl⟩ := s.report_only c o e d; rw [hl]

@[simp] theorem report_resetKey : (s.report c o e d).resetKey = s.resetKey := by
  obtain ⟨l, hl⟩ := s.report_only c o e d; rw [hl]

@[simp] theorem report_commissioningKey : (s.report c o e d).commissioningKey = s.commissioningKey := by
  obtain ⟨l, hl⟩ := s.report_only c o e d; rw [hl]

@[simp] theorem report_frame : (s.report c o e d).frame = s.frame := by
  obtain ⟨l, hl⟩ := s.report_only c o e d; rw [hl]

@[simp] theorem report_scanner : (s.report c o e d).scanner = s.scanner := by
  obtain ⟨l, hl⟩ := s.report_only c o e d; rw [hl]

@[simp] theorem report_tracks : (s.report c o e d).tracks = s.tracks := by
  obtain ⟨l, hl⟩ := s.report_only c o e d; rw [hl]

@[simp] theorem report_seqs : (s.report c o e d).seqs = s.seqs := by
  obtain ⟨l, hl⟩ := s.report_only c o e d; rw [hl]

@[simp] theorem report_notices : (s.report c o e d).notices = s.notices := by
  obtain ⟨l, hl⟩ := s.report_only c o e d; rw [hl]

@[simp] theorem report_answers : (s.report c o e d).answers = s.answers := by
  obtain ⟨l, hl⟩ := s.report_only c o e d; rw [hl]

@[simp] theorem report_locks : (s.report c o e d).locks = s.locks := by
  obtain ⟨l, hl⟩ := s.report_only c o e d; rw [hl]

@[simp] theorem report_bells : (s.report c o e d).bells = s.bells := by
  obtain ⟨l, hl⟩ := s.report_only c o e d; rw [hl]

@[simp] theorem report_sections : (s.report c o e d).sections = s.sections := by
  obtain ⟨l, hl⟩ := s.report_only c o e d; rw [hl]

@[simp] theorem report_faults : (s.report c o e d).faults = s.faults := by
  obtain ⟨l, hl⟩ := s.report_only c o e d; rw [hl]

@[simp] theorem report_store : (s.report c o e d).store = s.store := by
  obtain ⟨l, hl⟩ := s.report_only c o e d; rw [hl]

@[simp] theorem report_lever (n : Nat) : (s.report c o e d).lever n = s.lever n := by
  obtain ⟨l, hl⟩ := s.report_only c o e d; rw [hl]; rfl

@[simp] theorem report_track (n : Nat) : (s.report c o e d).track n = s.track n := by
  obtain ⟨l, hl⟩ := s.report_only c o e d; rw [hl]; rfl

@[simp] theorem report_seqn (n : Nat) : (s.report c o e d).seqn n = s.seqn n := by
  obtain ⟨l, hl⟩ := s.report_only c o e d; rw [hl]; rfl

@[simp] theorem report_lockn (n : Nat) : (s.report c o e d).lockn n = s.lockn n := by
  obtain ⟨l, hl⟩ := s.report_only c o e d; rw [hl]; rfl

@[simp] theorem report_bell (n : SectionId) : (s.report c o e d).bell n = s.bell n := by
  obtain ⟨l, hl⟩ := s.report_only c o e d; rw [hl]; rfl

@[simp] theorem report_sectn (n : SectionId) : (s.report c o e d).sectn n = s.sectn n := by
  obtain ⟨l, hl⟩ := s.report_only c o e d; rw [hl]; rfl

end

section

variable (b : Bool) (c : FaultClass) (o : Nat) (s : State)

@[simp] theorem endIf_pending : (s.endIf b c o).pending = s.pending := by
  obtain ⟨l, g, h⟩ := s.endIf_only b c o; rw [h]

@[simp] theorem endIf_now : (s.endIf b c o).now = s.now := by
  obtain ⟨l, g, h⟩ := s.endIf_only b c o; rw [h]

@[simp] theorem endIf_epoch : (s.endIf b c o).epoch = s.epoch := by
  obtain ⟨l, g, h⟩ := s.endIf_only b c o; rw [h]

@[simp] theorem endIf_plungers : (s.endIf b c o).plungers = s.plungers := by
  obtain ⟨l, g, h⟩ := s.endIf_only b c o; rw [h]

@[simp] theorem endIf_resetKey : (s.endIf b c o).resetKey = s.resetKey := by
  obtain ⟨l, g, h⟩ := s.endIf_only b c o; rw [h]

@[simp] theorem endIf_commissioningKey : (s.endIf b c o).commissioningKey = s.commissioningKey := by
  obtain ⟨l, g, h⟩ := s.endIf_only b c o; rw [h]

@[simp] theorem endIf_frame : (s.endIf b c o).frame = s.frame := by
  obtain ⟨l, g, h⟩ := s.endIf_only b c o; rw [h]

@[simp] theorem endIf_scanner : (s.endIf b c o).scanner = s.scanner := by
  obtain ⟨l, g, h⟩ := s.endIf_only b c o; rw [h]

@[simp] theorem endIf_tracks : (s.endIf b c o).tracks = s.tracks := by
  obtain ⟨l, g, h⟩ := s.endIf_only b c o; rw [h]

@[simp] theorem endIf_seqs : (s.endIf b c o).seqs = s.seqs := by
  obtain ⟨l, g, h⟩ := s.endIf_only b c o; rw [h]

@[simp] theorem endIf_notices : (s.endIf b c o).notices = s.notices := by
  obtain ⟨l, g, h⟩ := s.endIf_only b c o; rw [h]

@[simp] theorem endIf_answers : (s.endIf b c o).answers = s.answers := by
  obtain ⟨l, g, h⟩ := s.endIf_only b c o; rw [h]

@[simp] theorem endIf_locks : (s.endIf b c o).locks = s.locks := by
  obtain ⟨l, g, h⟩ := s.endIf_only b c o; rw [h]

@[simp] theorem endIf_bells : (s.endIf b c o).bells = s.bells := by
  obtain ⟨l, g, h⟩ := s.endIf_only b c o; rw [h]

@[simp] theorem endIf_sections : (s.endIf b c o).sections = s.sections := by
  obtain ⟨l, g, h⟩ := s.endIf_only b c o; rw [h]

@[simp] theorem endIf_store : (s.endIf b c o).store = s.store := by
  obtain ⟨l, g, h⟩ := s.endIf_only b c o; rw [h]

@[simp] theorem endIf_lever (n : Nat) : (s.endIf b c o).lever n = s.lever n := by
  obtain ⟨l, g, h⟩ := s.endIf_only b c o; rw [h]; rfl

@[simp] theorem endIf_track (n : Nat) : (s.endIf b c o).track n = s.track n := by
  obtain ⟨l, g, h⟩ := s.endIf_only b c o; rw [h]; rfl

@[simp] theorem endIf_seqn (n : Nat) : (s.endIf b c o).seqn n = s.seqn n := by
  obtain ⟨l, g, h⟩ := s.endIf_only b c o; rw [h]; rfl

@[simp] theorem endIf_lockn (n : Nat) : (s.endIf b c o).lockn n = s.lockn n := by
  obtain ⟨l, g, h⟩ := s.endIf_only b c o; rw [h]; rfl

@[simp] theorem endIf_bell (n : SectionId) : (s.endIf b c o).bell n = s.bell n := by
  obtain ⟨l, g, h⟩ := s.endIf_only b c o; rw [h]; rfl

@[simp] theorem endIf_sectn (n : SectionId) : (s.endIf b c o).sectn n = s.sectn n := by
  obtain ⟨l, g, h⟩ := s.endIf_only b c o; rw [h]; rfl

end

end State

/-! ### O58 and O59: the blocks of the field -/

/-- What a circuit's record has to keep for `State.tracksBounded`. -/
def TrackRec.bounded (rec : TrackRec) (x : TrackState) : Prop :=
  x.acc ≤ rec.clearCount.toNat ∧ x.tally ≤ 255 ∧ x.overRun ≤ 3

/-- What a circuit's record has to keep for `State.clearCircuits`. -/
def TrackRec.clearOk (rec : TrackRec) (x : TrackState) : Prop := x.state = .clear → rec.clearCount.toNat < x.acc + 4

/-- An update of one circuit keeps what it keeps of the record of that circuit. -/
theorem tracks_updTrack {K : TrackRec → TrackState → Prop} {s : State} {t : Nat} {f : TrackState → TrackState}
    (hf : ∀ rec, s.trackRec t = some rec → K rec (s.track t) → K rec (f (s.track t)))
    (h : ∀ t rec, s.trackRec t = some rec → K rec (s.track t)) :
    ∀ m rec, (s.updTrack t f).trackRec m = some rec → K rec ((s.updTrack t f).track m) := by
  intro m rec hm
  rw [State.track_updTrack]; split
  · rename_i hmt
    obtain rfl := hmt.1
    exact hf rec hm (h m rec hm)
  · exact h m rec hm

/-- A predicate of each circuit with its record, which holds of a circuit that starts, is one of the track unit alone. -/
theorem Plain.of_tracks {K : TrackRec → TrackState → Prop} (start : ∀ rec, K rec {})
    (turn : ∀ s t y rec, s.trackRec t = some rec → TrackTurn s t y ∨ TrackLift s t y ∨ y = (s.track t).failedBy ∨
      y = (s.track t).markedBy → K rec (s.track t) → K rec y) :
    Plain fun s => ∀ t rec, s.trackRec t = some rec → K rec (s.track t) where
  outer s t ho h := by
    obtain ⟨ht, -, -, -, -, -, hst, -⟩ := ho
    intro n rec hrec
    have hs : s.trackRec n = some rec := by rw [← hrec]; unfold State.trackRec State.table; rw [hst]
    have hn : t.track n = s.track n := by unfold State.track; rw [ht]
    exact hn ▸ h n rec hs
  desk s t ho hd h := by
    obtain ⟨ht, -, -, -, -, -, -, -⟩ := ho
    intro n rec hrec
    have hs : s.trackRec n = some rec := by rw [← hrec]; unfold State.trackRec State.table; rw [hd.2.2.2]
    have hn : t.track n = s.track n := by unfold State.track; rw [ht]
    exact hn ▸ h n rec hs
  track t f s ht h := tracks_updTrack (fun rec hrec => turn s t _ rec hrec
    (ht.imp_right (Or.imp_right (Or.imp (congrFun · _) (congrFun · _))))) h
  seq _ _ _ _ h := h
  lock _ _ _ _ h := h
  sect _ _ _ _ h := h
  started s t hst _ _ _ _ := by
    intro n rec _
    have hn : t.track n = {} := by unfold State.track; rw [hst.1]; exact Bank.at_replicate rfl n
    exact hn ▸ start rec

theorem TrackRec.bounded_turn (s : State) (t : Nat) (y : TrackState) (rec : TrackRec) (hrec : s.trackRec t = some rec)
    (hy : TrackTurn s t y ∨ TrackLift s t y ∨ y = (s.track t).failedBy ∨ y = (s.track t).markedBy)
    (h : rec.bounded (s.track t)) : rec.bounded y := by
  obtain ⟨ha, hm, hr⟩ := h
  have recovers : (s.track t).recover rec.clearCount.toNat |> rec.bounded :=
    ⟨(Nat.min_le_left _ _).trans ha, hm, hr⟩
  have same : ∀ {rec'}, s.trackRec t = some rec' → rec' = rec := fun h' => Option.some.inj (h'.symm.trans hrec)
  rcases hy with ⟨rec', hrec', hy⟩ | ⟨rec', hrec', -, hy⟩ | rfl | rfl
  · obtain rfl := same hrec'
    rcases hy with ⟨r, rfl⟩ | rfl | ⟨-, -, rfl⟩ | ⟨-, -, rfl⟩
    · refine ⟨TrackState.sample_acc_le_clearCount rec' r ha, ?_, ?_⟩
      · rw [TrackState.sample_tally]; exact nextTally_le _ hm
      · show (if _ then min 3 _ else 0) ≤ 3
        split
        · exact Nat.min_le_left _ _
        · exact Nat.zero_le _
    · exact ⟨ha, hm, hr⟩
    · exact ⟨ha, hm, hr⟩
    · exact recovers
  · obtain rfl := same hrec'
    rcases hy with ⟨-, rfl⟩ | ⟨-, rfl⟩
    · exact recovers
    · exact ⟨ha, hm, hr⟩
  · exact ⟨ha, hm, hr⟩
  · exact ⟨ha, hm, hr⟩

/-- R55, R56: after a sample a circuit is CLEAR only with its accumulator above C − 4. -/
theorem TrackState.sample_clearOk (rec : TrackRec) (r : Sample) (x : TrackState) (h : (x.sample rec r).state = .clear) :
    rec.clearCount.toNat < (x.sample rec r).acc + 4 := by
  by_cases ho : x.Occupies rec r
  · rw [(TrackState.sample_of_occupies ho).1] at h; cases h
  · rw [TrackState.sample_acc_of_not_occupies ho]
    unfold TrackState.Occupies at ho
    cases hx : x.state with
    | clear => simp only [hx, true_and] at ho; omega
    | occupied =>
      have full : x.accAfter rec r = rec.clearCount.toNat := by
        by_contra hne
        simp only [TrackState.accAfter] at hne
        simp [TrackState.sample, hx, hne] at h
      omega
    | _ => simp [TrackState.sample, hx] at h

theorem TrackRec.clearOk_turn (s : State) (t : Nat) (y : TrackState) (rec : TrackRec) (hrec : s.trackRec t = some rec)
    (hy : TrackTurn s t y ∨ TrackLift s t y ∨ y = (s.track t).failedBy ∨ y = (s.track t).markedBy)
    (h : rec.clearOk (s.track t)) : rec.clearOk y := by
  have same : ∀ {rec'}, s.trackRec t = some rec' → rec' = rec := fun h' => Option.some.inj (h'.symm.trans hrec)
  rcases hy with ⟨rec', hrec', hy⟩ | ⟨rec', hrec', -, hy⟩ | rfl | rfl
  · obtain rfl := same hrec'
    rcases hy with ⟨r, rfl⟩ | rfl | ⟨-, -, rfl⟩ | ⟨-, -, rfl⟩
    · exact TrackState.sample_clearOk rec' r _
    all_goals exact fun hc => by cases hc
  · rcases hy with ⟨-, rfl⟩ | ⟨ho, rfl⟩
    · exact fun hc => by cases hc
    · exact fun hc => by rw [show (s.track t).state = .clear from hc] at ho; cases ho
  · exact fun hc => by cases hc
  · exact h

/-- The steps and the remaining times, of the monitor and of the approach lock unit. -/
theorem Plain.stepsAndTimes : Plain fun s => s.stepsLawful ∧ s.timingLawful where
  outer s t ho h := by
    obtain ⟨-, hq, hl, -, -, -, hst, -⟩ := ho
    unfold State.stepsLawful State.timingLawful State.seqRec State.approachRec State.table State.seqn State.lockn at *
    rw [hq, hl, hst]; exact h
  desk s t ho hd h := by
    obtain ⟨-, hq, hl, -, -, -, -, -⟩ := ho
    unfold State.stepsLawful State.timingLawful State.seqRec State.approachRec State.table State.seqn State.lockn at *
    rw [hq, hl, hd.2.2.2]; exact h
  track _ _ _ _ h := h
  seq q f s hf h := by
    refine ⟨fun m rec hm => ?_, h.2⟩
    rw [State.seqn_updSeq]; split
    · rename_i hmq
      obtain rfl := hmq.1
      exact hf rec hm (h.1 m rec hm)
    · exact h.1 m rec hm
  lock a f s hf h := by
    refine ⟨h.1, fun m rec hm => ?_⟩
    rw [State.lockn_updLock]; split
    · rename_i hma
      obtain rfl := hma.1
      exact hf rec hm (h.2 m rec hm)
    · exact h.2 m rec hm
  sect _ _ _ _ h := h
  started s t hst _ _ _ _ := by
    obtain ⟨-, hq, hl, -, -⟩ := hst
    refine ⟨fun q rec _ => ?_, fun a rec _ => ?_⟩
    · have hn : t.seqn q = {} := by unfold State.seqn; rw [hq]; exact Bank.at_replicate rfl q
      rw [hn]; exact ⟨Nat.zero_le _, by simp⟩
    · obtain ⟨hp, hr⟩ := hl a
      rw [hr]; exact ⟨by simp [hp], by simp⟩

/-- Settles O59: of a circuit, a sequence or a lock only its own block writes, a sample, a step or a countdown at a
time. -/
theorem circuitsAndLocksAreKept : Obligations.CircuitsAndLocksAreKept := by
  have bounded := (Plain.of_tracks (K := TrackRec.bounded) (fun _ => ⟨Nat.zero_le _, Nat.zero_le _, Nat.zero_le _⟩)
    TrackRec.bounded_turn).standing_of_bells fun _ _ _ => id
  have clear := (Plain.of_tracks (K := TrackRec.clearOk) (fun _ h => by cases h) TrackRec.clearOk_turn).standing_of_bells
    fun _ _ _ => id
  have steps := Plain.stepsAndTimes.standing_of_bells fun _ _ _ => id
  exact ⟨fun s t h => bounded.step (s := s) h, fun s t h => clear.step (s := s) h,
    fun s t hs ht => steps.step (s := s) ⟨hs, ht⟩⟩

/-- R129: the drives, of the block unit alone. -/
theorem Plain.drives : Plain State.drivesLawful where
  outer s t ho h := by
    obtain ⟨-, -, -, hse, -, -, -, -⟩ := ho
    unfold State.drivesLawful State.sectn at *
    rw [hse]; exact h
  desk s t ho _ h := by
    obtain ⟨-, -, -, hse, -, -, -, -⟩ := ho
    unfold State.drivesLawful State.sectn at *
    rw [hse]; exact h
  track _ _ _ _ h := h
  seq _ _ _ _ h := h
  lock _ _ _ _ h := h
  sect x f s hf h := by
    intro y
    rw [State.sectn_updSect]; split
    · exact hf (h x)
    · exact h y
  started s t hst _ _ _ _ := by
    obtain ⟨-, -, -, hse, -⟩ := hst
    intro x
    rw [(hse x).1, (hse x).2.1]; rfl

/-! ### O58: the bells -/

theorem State.bell_setAssembler_of_ne {x y : SectionId} (hy : y ≠ x) (d : Direction) (f : Assembler → Assembler)
    (s : State) : (s.setAssembler x d f).bell y = s.bell y := by
  unfold State.setAssembler; rw [State.bell_updBell, if_neg hy]

@[simp] theorem State.bell_setAssembler_same (x : SectionId) (d : Direction) (f : Assembler → Assembler) (s : State) :
    (s.setAssembler x d f).bell x = (s.bell x).setSide d (f ((s.bell x).side d)) := by
  unfold State.setAssembler; rw [State.bell_updBell_same]

theorem State.bellsLawful_iff (s : State) : s.bellsLawful ↔ ∀ x, (s.bell x).lawful := Iff.rfl

/-- R107, R111: the codes, of the bell unit alone. -/
theorem Plain.codes : Plain State.bellsLawful where
  outer s t ho h := by
    obtain ⟨-, -, -, -, hb, -, -, -⟩ := ho
    unfold State.bellsLawful State.bell at *
    rw [hb]; exact h
  desk s t ho _ h := by
    obtain ⟨-, -, -, -, hb, -, -, -⟩ := ho
    unfold State.bellsLawful State.bell at *
    rw [hb]; exact h
  track _ _ _ _ h := h
  seq _ _ _ _ h := h
  lock _ _ _ _ h := h
  sect _ _ _ _ h := h
  started s t hst _ _ _ _ := by
    obtain ⟨-, -, -, -, hb⟩ := hst
    intro x
    obtain ⟨ho, hi, -⟩ := hb x
    rw [ho, hi]; simp

/-- An update of one section's bells that leaves them lawful where the others are. -/
theorem State.bellsLawful_updBell {x : SectionId} {f : BellState → BellState} {s : State}
    (hx : (f (s.bell x)).lawful) (hs : ∀ y, y ≠ x → (s.bell y).lawful) : (s.updBell x f).bellsLawful := by
  intro y
  rw [State.bell_updBell]; split
  · exact hx
  · exact hs y (by assumption)

/-- R107: the press begins a code or joins the one in progress; no other section's bells change. -/
theorem State.bell_beginOrJoin_of_ne {x y : SectionId} (hy : y ≠ x) (d : Direction) (r : Option Time) (s : State) :
    (s.beginOrJoin x d r).bell y = s.bell y := by
  unfold State.beginOrJoin; split
  · rw [State.bell_setAssembler_of_ne hy]
  · unfold State.bellReport; rw [State.report_bell, State.bell_setAssembler_of_ne hy]

/-- R107: the code that a press begins or joins is a lawful one where those in progress are. -/
theorem State.bell_beginOrJoin_same {x : SectionId} {d : Direction} {s : State} (hs : (s.bell x).lawful) (r : Option Time) :
    ∃ c : Code, c.lawful ∧
      (s.beginOrJoin x d r).bell x = (s.bell x).setSide d { (s.bell x).side d with code := some c } := by
  obtain ⟨-, -, hout, hin⟩ := hs
  unfold State.beginOrJoin; split
  · rename_i c hc
    have lawful : c.lawful := by
      cases d
      · exact hout c hc
      · exact hin c hc
    refine ⟨_, ?_, State.bell_setAssembler_same _ _ _ _⟩
    cases r
    · exact lawful
    · exact Code.released_lawful _ c lawful
  · refine ⟨{ groups := [], malformed := false, release := r }, ⟨by simp, by simp, by simp⟩, ?_⟩
    unfold State.bellReport; rw [State.report_bell, State.bell_setAssembler_same]

/-- R111: a code begun with none in the other direction, in a section that is not crossed. -/
theorem BellState.lawful_beginCode {b : BellState} {d : Direction} {c : Code} (h : b.lawful) (uncrossed : b.crossed = false)
    (alone : (b.side (otherDir d)).code = none) (hc : c.lawful) :
    (b.setSide d { b.side d with code := some c }).lawful := by
  obtain ⟨-, -, hout, hin⟩ := h
  cases d
  · exact ⟨.inr alone, fun h => (by rw [show b.crossed = true from h] at uncrossed; cases uncrossed),
      fun k hk => Option.some.inj hk ▸ hc, hin⟩
  · exact ⟨.inl alone, fun h => (by rw [show b.crossed = true from h] at uncrossed; cases uncrossed),
      hout, fun k hk => Option.some.inj hk ▸ hc⟩

/-- R111: a crossing leaves the section no code, whatever it had. -/
theorem State.crossBells_bellsLawful {s : State} {x : SectionId} (others : ∀ y, y ≠ x → (s.bell y).lawful) :
    (s.crossBells x).bellsLawful := by
  refine Plain.codes.lasting.crossBells x ?_
  generalize hg : (fun b : BellState => ({ b with
    outbound := { b.outbound with code := none }, inbound := { b.inbound with code := none }
    crossed := true, silentSince := none } : BellState)) = g
  have none : (g (s.bell x)).lawful := by
    subst hg; exact ⟨.inl rfl, fun _ => ⟨rfl, rfl⟩, fun _ h => (by cases h), fun _ h => (by cases h)⟩
  have crossed : (s.updBell x g).bellsLawful := State.bellsLawful_updBell none others
  refine State.bellsLawful_updBell ?_ fun y _ => crossed y
  obtain ⟨ho, hi, hc⟩ := BellState.after_same s.now ((s.updBell x g).bell x)
  exact BellState.lawful_of_stays (.of_eq (congrArg _ ho)) (.of_eq (congrArg _ hi)) (fun h => hc ▸ h) (crossed x)

/-- R107, R111: a code that begins while the other direction has one crosses the bells, and both are discarded. -/
theorem State.qualify_bellsLawful {s : State} (x : SectionId) (d : Direction) (due : s.qualifyDue x d = true)
    (hs : s.bellsLawful) : (s.qualify x d).bellsLawful := by
  have uncrossed : (s.bell x).crossed = false := by
    unfold State.qualifyDue at due; simpa using (Bool.and_eq_true_iff.1 due).1
  unfold State.qualify; dsimp only
  generalize hg : (fun y : Assembler => ({ y with press := y.press.map fun p =>
    { p with qualified := true, gap := p.start - ((y.code.bind (·.release)).getD p.start) } } : Assembler)) = g
  have code : ∀ a, (g a).code = a.code := fun a => by subst hg; rfl
  have pressed : (s.setAssembler x d g).bellsLawful := by
    refine State.bellsLawful_updBell (BellState.lawful_setSide d (.of_eq (code _)) (hs x)) fun y _ => hs y
  split
  · refine State.crossBells_bellsLawful fun y hy => ?_
    rw [State.bell_beginOrJoin_of_ne hy]; exact pressed y
  · rename_i alone
    intro y
    by_cases hy : y = x
    · subst hy
      obtain ⟨c, hc, he⟩ := State.bell_beginOrJoin_same (d := d) (pressed y) (((s.bell y).side d).press.bind (·.release))
      rw [he]
      refine BellState.lawful_beginCode (pressed y) ?_ ?_ hc
      · rw [State.bell_setAssembler_same]; cases d <;> exact uncrossed
      · rw [State.bell_setAssembler_same]; cases d <;> exact Option.not_isSome_iff_eq_none.1 alone
    · rw [State.bell_beginOrJoin_of_ne hy]; exact pressed y

/-- Settles O58: the drive of a section is set with its state, and a code ends, is discarded or grows within its
bounds; the one press that begins a second code crosses the bells. -/
theorem sectionsAreKept : Obligations.SectionsAreKept := by
  have drives := Plain.drives.standing_of_bells fun _ _ _ h => h
  have rings : Ringing (fun _ => True) State.bellsLawful State.bellsLawful :=
    { Plain.codes.lasting with
      bells := fun x f s hf hs => State.bellsLawful_updBell (hf (hs x)) fun y _ => hs y
      qualify := fun x d s => State.qualify_bellsLawful x d }
  have codes := Plain.codes.standing fun i s => rings.rings i
  exact ⟨fun s t => drives.step, fun s t => codes.step⟩

/-! ### O56: conditions, verdicts and lock commands -/

/-- What the conditions of 1.2 and the choice of a list read is the same in two states. -/
structure State.SameConditions (s t : State) : Prop where
  active : t.store.active = s.store.active
  lever : ∀ n, s.leverFitted n = true →
    (t.lever n).position = (s.lever n).position ∧ (t.lever n).lastProved = (s.lever n).lastProved
  track : ∀ n, (t.track n).state = .clear ↔ (s.track n).state = .clear
  seq : ∀ q, (t.seqn q).latch = (s.seqn q).latch
  lock : ∀ a, (t.lockn a).phase = .free ↔ (s.lockn a).phase = .free
  sect : ∀ x, (t.sectn x).state = (s.sectn x).state ∧ (t.sectn x).releaseUsed = (s.sectn x).releaseUsed ∧
    (t.sectn x).obstruction = (s.sectn x).obstruction ∧ (t.sectn x).frozen = (s.sectn x).frozen
  plungers : t.plungers = s.plungers

/-- And the verdicts and the commands held are the same. -/
structure State.SameLocking (s t : State) : Prop extends State.SameConditions s t where
  verdict : ∀ n, s.leverFitted n = true →
    (t.lever n).verdict = (s.lever n).verdict ∧ (t.lever n).blocking = (s.lever n).blocking
  command : ∀ n, (t.lever n).command = (s.lever n).command

/-- An update outside the blocks that conditions read, but for the levers. -/
theorem State.SameConditions.of_banks {s t : State} (active : t.store.active = s.store.active)
    (levers : ∀ n, (t.lever n).position = (s.lever n).position ∧ (t.lever n).lastProved = (s.lever n).lastProved)
    (tracks : t.tracks = s.tracks) (seqs : t.seqs = s.seqs) (locks : t.locks = s.locks)
    (sections : t.sections = s.sections) (plungers : t.plungers = s.plungers) : s.SameConditions t := by
  have ht : ∀ n, t.track n = s.track n := fun n => by unfold State.track; rw [tracks]
  have hq : ∀ n, t.seqn n = s.seqn n := fun n => by unfold State.seqn; rw [seqs]
  have ha : ∀ n, t.lockn n = s.lockn n := fun n => by unfold State.lockn; rw [locks]
  have hx : ∀ n, t.sectn n = s.sectn n := fun n => by unfold State.sectn; rw [sections]
  exact ⟨active, fun n _ => levers n, fun n => by rw [ht], fun n => by rw [hq],
    fun n => by rw [ha], fun x => by rw [hx]; exact ⟨rfl, rfl, rfl, rfl⟩, plungers⟩

/-- An update outside the blocks that conditions read. -/
theorem State.SameLocking.of_banks {s t : State} (active : t.store.active = s.store.active)
    (levers : t.frame.levers = s.frame.levers) (tracks : t.tracks = s.tracks) (seqs : t.seqs = s.seqs)
    (locks : t.locks = s.locks) (sections : t.sections = s.sections) (plungers : t.plungers = s.plungers) :
    s.SameLocking t := by
  have hl : ∀ n, t.lever n = s.lever n := fun n => by unfold State.lever; rw [levers]
  exact { State.SameConditions.of_banks active (fun n => by rw [hl]; exact ⟨rfl, rfl⟩) tracks seqs locks sections plungers with
    verdict := fun n _ => by rw [hl]; exact ⟨rfl, rfl⟩
    command := fun n => by rw [hl] }

theorem State.SameLocking.refl (s : State) : s.SameLocking s := .of_banks rfl rfl rfl rfl rfl rfl rfl

theorem State.SameLocking.of_onlyFaults {s t : State} (h : OnlyFaults s t) : s.SameLocking t := by
  obtain ⟨l, f, rfl⟩ := h
  exact .of_banks rfl rfl rfl rfl rfl rfl rfl

namespace State

/-! The tables and the records of the objects. -/

theorem table_congr {s t : State} (h : t.store.active = s.store.active) : t.table = s.table := by
  unfold State.table; rw [h]

theorem leverRec_congr {s t : State} (h : t.store.active = s.store.active) (n : Nat) : t.leverRec n = s.leverRec n := by
  unfold State.leverRec; rw [table_congr h]

theorem leverFitted_congr {s t : State} (h : t.store.active = s.store.active) (n : Nat) :
    t.leverFitted n = s.leverFitted n := by unfold State.leverFitted; rw [leverRec_congr h]

theorem hasLock_congr {s t : State} (h : t.store.active = s.store.active) (n : Nat) : t.hasLock n = s.hasLock n := by
  unfold State.hasLock; rw [leverRec_congr h]

/-- R5 to R8: a condition reads nothing else. -/
theorem SameConditions.conditionHolds {s t : State} (h : s.SameConditions t) (k : ConditionKind) (x : Nat) :
    t.conditionHolds k x = s.conditionHolds k x := by
  have tab := table_congr h.active
  have clear : ∀ n, ((t.track n).state == .clear) = ((s.track n).state == .clear) := fun n => by
    rw [Bool.eq_iff_iff]; simpa using h.track n
  have free : ∀ a, ((t.lockn a).phase == .free) = ((s.lockn a).phase == .free) := fun a => by
    rw [Bool.eq_iff_iff]; simpa using h.lock a
  have position : ∀ p, (t.leverFitted x && (t.lever x).position == p) = (s.leverFitted x && (s.lever x).position == p) := by
    intro p
    rw [leverFitted_congr h.active]
    cases hf : s.leverFitted x with
    | false => rfl
    | true => rw [(h.lever x hf).1]
  cases k with
  | leverNormal => exact position _
  | leverReverse => exact position _
  | trackClear => unfold State.conditionHolds State.trackFitted State.trackRec; dsimp only; rw [tab, clear]
  | trackOccupied => unfold State.conditionHolds State.trackFitted State.trackRec; dsimp only; rw [tab, clear]
  | sectionRelease =>
    unfold State.conditionHolds State.sectionFitted State.sectionRec; dsimp only; rw [tab]
    split
    · rfl
    · rename_i y _
      obtain ⟨h1, h2, h3, h4⟩ := h.sect y
      rw [h1, h2, h3, h4]
  | sectionBlocked =>
    unfold State.conditionHolds State.sectionFitted State.sectionRec; dsimp only; rw [tab]
    split
    · rfl
    · rename_i y _
      obtain ⟨h1, -, -, h4⟩ := h.sect y
      rw [h1, h4]
  | approachFree => unfold State.conditionHolds State.approachFitted State.approachRec; dsimp only; rw [tab, free]
  | passage => unfold State.conditionHolds State.seqFitted State.seqRec; dsimp only; rw [tab, h.seq]
  | plunger => unfold State.conditionHolds; dsimp only; rw [h.plungers]

theorem firstUnsatisfied_congr {s t : State} (h : ∀ k x, t.conditionHolds k x = s.conditionHolds k x) (ts : List Term) :
    ∀ i, t.firstUnsatisfied i ts = s.firstUnsatisfied i ts := by
  have code : ∀ a b, t.codeHolds a b = s.codeHolds a b := fun a b => by
    unfold State.codeHolds; split
    · rfl
    · exact h _ _
  induction ts with
  | nil => exact fun _ => rfl
  | cons u us ih =>
    intro i
    unfold State.firstUnsatisfied
    rw [ih]
    unfold State.termSatisfied State.whenApplies
    rw [code, code]

theorem SameConditions.verdictOf {s t : State} (h : s.SameConditions t) (n : Nat) : t.verdictOf n = s.verdictOf n := by
  unfold State.verdictOf
  rw [leverRec_congr h.active]
  split
  · rfl
  · rename_i r hr
    have same : (t.lever n).governing = (s.lever n).governing := by
      obtain ⟨hp, hl⟩ := h.lever n (by unfold State.leverFitted; rw [hr]; rfl)
      unfold LeverState.governing; rw [hp, hl]
    rw [same]
    simp only [firstUnsatisfied_congr h.conditionHolds]

theorem SameConditions.wantsFree {s t : State} (h : s.SameConditions t) (running : t.isRunning = s.isRunning)
    (supply : t.frame.supplyOn = s.frame.supplyOn) (n : Nat) : t.wantsFree n = s.wantsFree n := by
  unfold State.wantsFree; rw [running, supply, hasLock_congr h.active, h.verdictOf]

theorem SameLocking.verdictsFresh {s t : State} (h : s.SameLocking t) (hs : s.verdictsFresh) : t.verdictsFresh := by
  intro n hn hf
  rw [leverFitted_congr h.active] at hf
  obtain ⟨hv, hb⟩ := h.verdict n hf
  rw [h.verdictOf, hv, hb]
  exact hs n hn hf

theorem SameLocking.locksLawful {s t : State} (h : s.SameLocking t) (running : t.isRunning = s.isRunning)
    (supply : t.frame.supplyOn = s.frame.supplyOn) (hs : s.locksLawful) : t.locksLawful := by
  intro n hn
  rw [h.command, h.wantsFree running supply]
  exact hs n hn

end State

/-! ### An evaluation, lever by lever -/

/-- R30: a lever's record after a lock command. -/
def LeverState.commanded (c : LockCommand) (now : Time) (l : LeverState) : LeverState :=
  if l.command = c then l
  else { l with command := c, commandTime := now, window := some now, driveActive := l.driveActive && c == .free }

/-- R12: a lever's record with its verdict. -/
def LeverState.judged (v : Bool × Option Nat) (l : LeverState) : LeverState := { l with verdict := v.1, blocking := v.2 }

/-- R12, R30: a lever's record after an evaluation: its verdict and, with a lock, its command. -/
def LeverState.refreshed (v : Bool × Option Nat) (locked wants : Bool) (now : Time) (l : LeverState) : LeverState :=
  if locked then (l.judged v).commanded (if wants then .free else .held) now else l.judged v

theorem LeverState.commanded_same (k : LockCommand) (now : Time) (l : LeverState) :
    ∃ c a d e, l.commanded k now = { l with command := c, commandTime := a, window := d, driveActive := e } := by
  unfold commanded; split
  · exact ⟨l.command, l.commandTime, l.window, l.driveActive, rfl⟩
  · exact ⟨_, _, _, _, rfl⟩

theorem LeverState.commanded_command (c : LockCommand) (now : Time) (l : LeverState) :
    (l.commanded c now).command = c := by
  unfold LeverState.commanded; split
  · assumption
  · rfl

/-- An evaluation leaves of a lever all but its verdict and what its lock command brings. -/
theorem LeverState.refreshed_same (v : Bool × Option Nat) (k w : Bool) (now : Time) (l : LeverState) :
    ∃ c a d e, l.refreshed v k w now = { l with verdict := v.1, blocking := v.2, command := c, commandTime := a, window := d,
                                                driveActive := e } := by
  unfold refreshed; split
  · exact LeverState.commanded_same _ _ (l.judged v)
  · exact ⟨l.command, l.commandTime, l.window, l.driveActive, rfl⟩

namespace State

/-- A lever's record after an evaluation, by the conditions as they stand. -/
def refreshedLever (s : State) (n : Nat) : LeverState :=
  if s.leverFitted n then (s.lever n).refreshed (s.verdictOf n) (s.hasLock n) (s.wantsFree n) s.now else s.lever n

theorem setCommand_lever {n : Nat} (hn : leverOk n = true) (cause : LockCause) (c : LockCommand) (s : State) (m : Nat) :
    (s.setCommand cause n c).lever m = if m = n then (s.lever n).commanded c s.now else s.lever m := by
  have hn : 1 ≤ n ∧ n ≤ 48 := by simpa [leverOk] using hn
  unfold State.setCommand LeverState.commanded; split
  · split
    · subst m; rfl
    · rfl
  · simp [State.lever_updLever, hn]

theorem judge_lever {n : Nat} (hn : leverOk n = true) (v : Bool × Option Nat) (s : State) (m : Nat) :
    (s.updLever n (LeverState.judged v)).lever m = if m = n then (s.lever n).judged v else s.lever m := by
  have hn : 1 ≤ n ∧ n ≤ 48 := by simpa [leverOk] using hn
  rw [State.lever_updLever]; simp [hn]

/-- The verdict and the command of a lever are no condition of another. -/
theorem SameConditions.of_lever {s t : State} (h : OnlyEval s t) {n : Nat} {l : LeverState}
    (ht : ∀ m, t.lever m = if m = n then l else s.lever m) (position : l.position = (s.lever n).position)
    (proved : l.lastProved = (s.lever n).lastProved) : s.SameConditions t := by
  have lever : ∀ m, (t.lever m).position = (s.lever m).position ∧ (t.lever m).lastProved = (s.lever m).lastProved := by
    intro m; rw [ht]; split
    · subst m; exact ⟨position, proved⟩
    · exact ⟨rfl, rfl⟩
  obtain ⟨_, _, _, rfl⟩ := h
  exact .of_banks rfl lever rfl rfl rfl rfl rfl

theorem judge_same {n : Nat} (hn : leverOk n = true) (v : Bool × Option Nat) (s : State) :
    s.SameConditions (s.updLever n (LeverState.judged v)) :=
  .of_lever (State.updLever_only _ _ _) (judge_lever hn v s) rfl rfl

theorem refreshLever_lever {n : Nat} (hn : leverOk n = true) (cause : LockCause) (s : State) (m : Nat) :
    (s.refreshLever cause n).lever m = if m = n then s.refreshedLever n else s.lever m := by
  have same := judge_same hn (s.verdictOf n) s
  unfold State.refreshLever refreshedLever LeverState.refreshed; split
  · change State.lever (if (s.updLever n (LeverState.judged (s.verdictOf n))).hasLock n = true then
      (s.updLever n (LeverState.judged (s.verdictOf n))).setCommand cause n
        (if (s.updLever n (LeverState.judged (s.verdictOf n))).wantsFree n = true then .free else .held)
      else s.updLever n (LeverState.judged (s.verdictOf n))) m = _
    rw [hasLock_congr same.active, same.wantsFree rfl rfl]
    split
    · rw [setCommand_lever hn, judge_lever hn, judge_lever hn, if_pos rfl]
      split <;> rfl
    · exact judge_lever hn _ s m
  · split
    · subst m; rfl
    · rfl

/-- An evaluation's step leaves the conditions, and so what the next steps judge. -/
theorem refreshLever_same {n : Nat} (hn : leverOk n = true) (cause : LockCause) (s : State) :
    s.SameConditions (s.refreshLever cause n) := by
  refine .of_lever (State.refreshLever_only _ _ _) (refreshLever_lever hn cause s) ?_ ?_ <;>
  · unfold refreshedLever; split
    · obtain ⟨_, _, _, _, h⟩ := LeverState.refreshed_same (s.verdictOf n) (s.hasLock n) (s.wantsFree n) s.now (s.lever n)
      rw [h]
    · rfl

/-- No lock command reaches the frame supply. -/
@[simp] theorem refreshLever_supplyOn (cause : LockCause) (n : Nat) (s : State) :
    (s.refreshLever cause n).frame.supplyOn = s.frame.supplyOn := by
  have command : ∀ k (u : State), (u.setCommand cause n k).frame.supplyOn = u.frame.supplyOn := fun k u => by
    unfold State.setCommand; split
    · rfl
    · rw [State.endIf_frame, State.report_frame]; rfl
  unfold State.refreshLever; split
  · dsimp only; split
    · rw [command]; rfl
    · rfl
  · rfl

@[simp] theorem evaluate_supplyOn (cause : LockCause) (s : State) :
    (s.evaluate cause).frame.supplyOn = s.frame.supplyOn := by
  unfold State.evaluate
  exact forEach_inv (P := fun u => u.frame.supplyOn = s.frame.supplyOn)
    (fun n u hu => (refreshLever_supplyOn cause n u).trans hu) allLevers s rfl

/-- R13: after an evaluation every lever has the verdict and the command that the conditions give it. -/
theorem evaluate_lever (cause : LockCause) (s : State) (n : Nat) :
    (s.evaluate cause).lever n = if leverOk n = true then s.refreshedLever n else s.lever n := by
  have fold := forEach_get (get := State.lever)
    (env := fun s => (s.leverFitted, s.verdictOf, s.hasLock, s.wantsFree, s.now))
    (g := fun n e l => if e.1 n then l.refreshed (e.2.1 n) (e.2.2.1 n) (e.2.2.2.1 n) e.2.2.2.2 else l)
    (f := State.refreshLever cause) allLevers (by decide)
    (fun n hn s m => refreshLever_lever (mem_allLevers.1 hn) cause s m)
    (fun n hn s => by
      have same := refreshLever_same (mem_allLevers.1 hn) cause s
      have wants : (s.refreshLever cause n).wantsFree = s.wantsFree := by
        refine funext (same.wantsFree ?_ ?_)
        · obtain ⟨_, _, _, h⟩ := s.refreshLever_only cause n; rw [h]; rfl
        · exact refreshLever_supplyOn cause n s
      have now : (s.refreshLever cause n).now = s.now := by
        obtain ⟨_, _, _, h⟩ := s.refreshLever_only cause n; rw [h]
      rw [wants, now, funext (leverFitted_congr same.active), funext same.verdictOf, funext (hasLock_congr same.active)])
    s n
  rw [State.evaluate, fold]
  simp only [mem_allLevers]
  rfl

/-- An evaluation leaves the conditions it reads. -/
theorem evaluate_same (cause : LockCause) (s : State) : s.SameConditions (s.evaluate cause) := by
  have lever : ∀ m, ((s.evaluate cause).lever m).position = (s.lever m).position ∧
      ((s.evaluate cause).lever m).lastProved = (s.lever m).lastProved := fun m => by
    rw [evaluate_lever]; split
    · unfold refreshedLever; split
      · obtain ⟨_, _, _, _, h⟩ := LeverState.refreshed_same (s.verdictOf m) (s.hasLock m) (s.wantsFree m) s.now (s.lever m)
        rw [h]; exact ⟨rfl, rfl⟩
      · exact ⟨rfl, rfl⟩
    · exact ⟨rfl, rfl⟩
  obtain ⟨_, _, _, h⟩ := s.evaluate_only cause
  rw [h] at lever ⊢
  exact .of_banks rfl lever rfl rfl rfl rfl rfl

theorem refreshed_verdict (s : State) {n : Nat} (hf : s.leverFitted n = true) :
    ((s.refreshedLever n).verdict, (s.refreshedLever n).blocking) = s.verdictOf n := by
  unfold refreshedLever; rw [if_pos hf]
  obtain ⟨_, _, _, _, h⟩ := LeverState.refreshed_same (s.verdictOf n) (s.hasLock n) (s.wantsFree n) s.now (s.lever n)
  rw [h]

/-- R13: an evaluation leaves every verdict fresh, whatever it finds. -/
theorem evaluate_verdictsFresh (cause : LockCause) (s : State) : (s.evaluate cause).verdictsFresh := by
  intro n hn hf
  have same := evaluate_same cause s
  rw [leverFitted_congr same.active] at hf
  rw [same.verdictOf, evaluate_lever, if_pos hn]
  exact s.refreshed_verdict hf

theorem evaluate_wantsFree (cause : LockCause) (s : State) (n : Nat) :
    (s.evaluate cause).wantsFree n = s.wantsFree n := by
  refine (evaluate_same cause s).wantsFree ?_ (evaluate_supplyOn cause s) n
  obtain ⟨_, _, _, h⟩ := s.evaluate_only cause; rw [h]; rfl

/-- R29: an evaluation commands every lock as the rule says. -/
theorem evaluate_command (cause : LockCause) {s : State} {n : Nat} (hn : leverOk n = true) (hk : s.hasLock n = true) :
    ((s.evaluate cause).lever n).command = .free ↔ s.wantsFree n = true := by
  have hf : s.leverFitted n = true := by
    unfold State.hasLock at hk; unfold State.leverFitted
    cases hr : s.leverRec n with
    | none => rw [hr] at hk; cases hk
    | some _ => rfl
  rw [evaluate_lever, if_pos hn]
  unfold refreshedLever LeverState.refreshed
  rw [if_pos hf, if_pos hk, LeverState.commanded_command]
  split <;> simp_all

/-- The levers without a lock stand at HELD. -/
def unlockedHeld (s : State) : Prop :=
  ∀ n, leverOk n = true → s.hasLock n = false → (s.lever n).command = .held

theorem unlockedHeld_of_locksLawful {s : State} (h : s.locksLawful) : s.unlockedHeld := by
  intro n hn hk
  cases hc : (s.lever n).command with
  | held => rfl
  | free => have hw := (h n hn).1 hc; unfold State.wantsFree at hw; simp [hk] at hw

/-- R29, R30: an evaluation leaves every lock as the rule says, where the levers without one stand at HELD. -/
theorem evaluate_locksLawful (cause : LockCause) {s : State} (h : s.unlockedHeld) : (s.evaluate cause).locksLawful := by
  intro n hn
  rw [evaluate_wantsFree]
  cases hk : s.hasLock n with
  | true => exact evaluate_command cause hn hk
  | false =>
    have held : ((s.evaluate cause).lever n).command = .held := by
      rw [evaluate_lever, if_pos hn]
      unfold refreshedLever LeverState.refreshed
      rw [hk]; split <;> exact h n hn hk
    have wants : s.wantsFree n = false := by unfold State.wantsFree; simp [hk]
    simp [held, wants]

end State

/-! ### The levers and locks under every update -/

namespace State.SameLocking

variable {s : State}

theorem updLever {n : Nat} {f : LeverState → LeverState} (h : (s.lever n).SameVerdict (f (s.lever n))) :
    s.SameLocking (s.updLever n f) := by
  obtain ⟨hp, hl, hv, hb, hc⟩ := h
  have lever : ∀ m, (s.lever m).SameVerdict ((s.updLever n f).lever m) := fun m => by
    rw [State.lever_updLever]; split
    · rename_i hm; obtain ⟨rfl, -⟩ := hm; exact ⟨hp, hl, hv, hb, hc⟩
    · exact ⟨rfl, rfl, rfl, rfl, rfl⟩
  exact { SameConditions.of_banks (s := s) (t := s.updLever n f) rfl (fun m => ⟨(lever m).1, (lever m).2.1⟩) rfl rfl rfl rfl
      rfl with
    verdict := fun m _ => ⟨(lever m).2.2.1, (lever m).2.2.2.1⟩
    command := fun m => (lever m).2.2.2.2 }

/-- R5: a lever that is not fitted stands in no condition and has no verdict. -/
theorem updUnfitted {n : Nat} {f : LeverState → LeverState} (hf : s.leverFitted n = false)
    (hc : (f (s.lever n)).command = (s.lever n).command) : s.SameLocking (s.updLever n f) := by
  have other : ∀ m, s.leverFitted m = true → (s.updLever n f).lever m = s.lever m := fun m hm => by
    rw [State.lever_updLever, if_neg]
    rintro ⟨rfl, -⟩; rw [hf] at hm; cases hm
  exact { State.SameLocking.refl s with
    lever := fun m hm => by rw [other m hm]; exact ⟨rfl, rfl⟩
    verdict := fun m hm => by rw [other m hm]; exact ⟨rfl, rfl⟩
    command := fun m => by
      rw [State.lever_updLever]; split
      · rename_i hm; obtain ⟨rfl, -⟩ := hm; exact hc
      · rfl }

theorem updTrack {t : Nat} {f : TrackState → TrackState}
    (h : (f (s.track t)).state = .clear ↔ (s.track t).state = .clear) : s.SameLocking (s.updTrack t f) :=
  { State.SameLocking.refl s with
    track := fun m => by
      rw [State.track_updTrack]; split
      · rename_i hm; obtain ⟨rfl, -⟩ := hm; exact h
      · rfl }

theorem updSeq {q : Nat} {f : SequenceState → SequenceState} (h : (f (s.seqn q)).latch = (s.seqn q).latch) :
    s.SameLocking (s.updSeq q f) :=
  { State.SameLocking.refl s with
    seq := fun m => by
      rw [State.seqn_updSeq]; split
      · rename_i hm; obtain ⟨rfl, -⟩ := hm; exact h
      · rfl }

theorem updLock {a : Nat} {f : ApproachState → ApproachState}
    (h : (f (s.lockn a)).phase = .free ↔ (s.lockn a).phase = .free) : s.SameLocking (s.updLock a f) :=
  { State.SameLocking.refl s with
    lock := fun m => by
      rw [State.lockn_updLock]; split
      · rename_i hm; obtain ⟨rfl, -⟩ := hm; exact h
      · rfl }

theorem updSect {x : SectionId} {f : SectionState → SectionState} (h : (s.sectn x).SameState (f (s.sectn x))) :
    s.SameLocking (s.updSect x f) :=
  { State.SameLocking.refl s with
    sect := fun y => by
      rw [State.sectn_updSect]; split
      · subst y
        obtain ⟨h1, h2, h3, h4, -⟩ := h
        exact ⟨h1, h2, h3, h4⟩
      · exact ⟨rfl, rfl, rfl, rfl⟩ }

end State.SameLocking

/-- A predicate of the verdicts and the lock commands: what an evaluation makes of `Q`, and every update keeps that
leaves the conditions, the verdicts and the commands. -/
structure Locking (Q P : State → Prop) : Prop where
  same : ∀ s t : State, s.SameLocking t → t.isRunning = s.isRunning → t.frame.supplyOn = s.frame.supplyOn → P s → P t
  rough : ∀ s t : State, t.store.active = s.store.active → (∀ n, (t.lever n).command = (s.lever n).command) → Q s → Q t
  weaken : ∀ s, P s → Q s
  evaluate : ∀ c s, Q s → P (s.evaluate c)

namespace Locking

variable {Q P : State → Prop} (h : Locking Q P)
include h

theorem onlyFaults {s t : State} (ht : OnlyFaults s t) (hs : P s) : P t :=
  h.same s t (.of_onlyFaults ht) (by obtain ⟨l, f, rfl⟩ := ht; rfl) (by obtain ⟨l, f, rfl⟩ := ht; rfl) hs

theorem onlyFaultsInside {s t : State} (ht : OnlyFaults s t) (hs : Q s) : Q t :=
  h.rough s t (by obtain ⟨l, f, rfl⟩ := ht; rfl) (fun n => by obtain ⟨l, f, rfl⟩ := ht; rfl) hs

theorem roughly : Rough (fun _ => True) Q where
  report c o e d s := h.onlyFaultsInside (State.report_only c o e d s).faults
  endFault c o s := h.onlyFaultsInside (State.endFault_only c o s)
  lever n f s hc _ := h.rough s _ rfl fun m => by
    rw [State.lever_updLever]; split
    · rename_i hm; obtain ⟨rfl, -⟩ := hm; exact hc
    · rfl
  track _ _ s _ := h.rough s _ rfl fun _ => rfl
  seq _ _ s _ := h.rough s _ rfl fun _ => rfl
  lock _ _ s _ := h.rough s _ rfl fun _ => rfl
  sect _ _ s _ _ := h.rough s _ rfl fun _ => rfl
  notice _ _ s := h.rough s _ rfl fun _ => rfl

theorem firmly : Firm (fun _ => True) P where
  report c o e d s := h.onlyFaults (State.report_only c o e d s).faults
  endFault c o s := h.onlyFaults (State.endFault_only c o s)
  lever _ _ s hv _ := h.same s _ (.updLever hv) rfl rfl
  track _ _ s _ hc := h.same s _ (.updTrack hc) rfl rfl
  seq _ _ s _ hl := h.same s _ (.updSeq hl) rfl rfl
  lock _ _ s _ hp := h.same s _ (.updLock hp) rfl rfl
  sect _ _ s hx := h.same s _ (.updSect hx) rfl rfl
  notice _ _ s := h.same s _ (.of_banks rfl rfl rfl rfl rfl rfl rfl) rfl rfl

theorem ordering : Ordering (fun _ => True) Q P where
  rough := h.roughly
  firm := h.firmly
  weaken := h.weaken
  evaluate := h.evaluate
  unfitted _ _ s _ hf _ _ hc := h.same s _ (.updUnfitted hf hc) rfl rfl
  enterRaise c o m s := h.onlyFaults (State.enterRaise_only c o m s)
  enterRaiseInside c o m s := h.onlyFaultsInside (State.enterRaise_only c o m s)
  register r o s := h.onlyFaults (State.register_only r o s)
  registerInside r o s := h.onlyFaultsInside (State.register_only r o s)
  supply _ s := h.rough s _ rfl fun _ => rfl
  mark _ s := h.same s _ (.updTrack Iff.rfl) rfl rfl
  markInside _ s := h.rough s _ rfl fun _ => rfl
  failUnread _ s hc := h.same s _ (.updTrack (by simp [TrackState.failedBy, hc])) rfl rfl
  fail _ s := h.rough s _ rfl fun _ => rfl
  freeze _ s := h.rough s _ rfl fun _ => rfl

theorem lasting : Lasting (fun _ => True) Q P where
  toRaising := h.ordering.raising
  scanner _ s := h.same s _ (.of_banks rfl rfl rfl rfl rfl rfl rfl) rfl rfl
  plungers _ s := h.rough s _ rfl fun _ => rfl
  notices _ s := h.same s _ (.of_banks rfl rfl rfl rfl rfl rfl rfl) rfl rfl
  answers _ s := h.same s _ (.of_banks rfl rfl rfl rfl rfl rfl rfl) rfl rfl
  lockSupply _ _ s := h.same s _ (.of_banks rfl rfl rfl rfl rfl rfl rfl) rfl rfl

end Locking

/-- R13: the verdicts, whatever a step finds. -/
theorem Locking.verdicts : Locking (fun _ => True) State.verdictsFresh where
  same _ _ h _ _ := h.verdictsFresh
  rough _ _ _ _ := id
  weaken _ _ := trivial
  evaluate c s _ := s.evaluate_verdictsFresh c

/-- R13, R29: the verdicts and the locks. -/
theorem Locking.locks : Locking State.unlockedHeld fun s => s.verdictsFresh ∧ s.locksLawful where
  same _ _ h running supply hs := ⟨h.verdictsFresh hs.1, h.locksLawful running supply hs.2⟩
  rough s t active command hs n hn hk := by
    rw [State.hasLock_congr active] at hk
    rw [command]; exact hs n hn hk
  weaken _ hs := State.unlockedHeld_of_locksLawful hs.2
  evaluate c s hs := ⟨s.evaluate_verdictsFresh c, State.evaluate_locksLawful c hs⟩

/-! ### The starts, block by block (R39, R40, R66, R73, R88, R120, R126) -/

namespace State

theorem startLevers_lever (s : State) {n : Nat} (hn : leverOk n = true) :
    (forEach allLevers startLever s).lever n = (s.lever n).started s.now (s.hasLock n) := by
  have := forEach_get (get := State.lever) (env := fun s => (s.now, s.hasLock)) (g := fun n e l => l.started e.1 (e.2 n))
    (f := startLever) allLevers (by decide) (fun n hn s m => by
      have hb : 1 ≤ n ∧ n ≤ 48 := by simpa [leverOk] using mem_allLevers.1 hn
      unfold State.startLever; rw [State.lever_updLever]; simp [hb]) (fun x _ s => rfl) s n
  rwa [if_pos (mem_allLevers.2 hn)] at this

theorem startLocks_lever (n : Nat) (s : State) : (forEach allLocks startLock s).lever n = s.lever n := by
  obtain ⟨_, h⟩ := s.startLocks_eq; rw [h]; rfl

theorem startBells_lever (n : Nat) (s : State) : (forEach allSections startBell s).lever n = s.lever n := by
  obtain ⟨_, h⟩ := s.startBells_eq; rw [h]; rfl

theorem startSectns_lever (n : Nat) (s : State) : (forEach allSections startSectn s).lever n = s.lever n := by
  obtain ⟨_, h⟩ := s.startSectns_eq; rw [h]; rfl

theorem startRecords_lever (s : State) {n : Nat} (hn : leverOk n = true) :
    s.startRecords.lever n = (s.lever n).started s.now (s.hasLock n) := by
  unfold State.startRecords; dsimp only
  rw [startSectns_lever, startBells_lever, startLocks_lever]
  have levers := startLevers_lever
    { s with tracks := Vector.replicate 24 {}, seqs := Vector.replicate 16 {}, locks := Vector.replicate 16 {} } hn
  generalize forEach allLevers startLever _ = u at levers ⊢
  exact levers

/-- R38: the levers after a store write that fails. -/
theorem releaseLevers_lever (s : State) {n : Nat} (hn : leverOk n = true) :
    (forEach allLevers releaseLever s).lever n = (s.lever n).released := by
  have := forEach_get (get := State.lever) (env := fun _ => ()) (g := fun _ _ l => l.released)
    (f := releaseLever) allLevers (by decide) (fun n hn s m => by
      have hb : 1 ≤ n ∧ n ≤ 48 := by simpa [leverOk] using mem_allLevers.1 hn
      unfold State.releaseLever State.endLever; rw [State.lever_updLever]; simp [hb]) (fun x _ s => rfl) s n
  rwa [if_pos (mem_allLevers.2 hn)] at this

/-- R39: at a start every lock stands at HELD. -/
theorem startRecords_held (s : State) {n : Nat} (hn : leverOk n = true) : (s.startRecords.lever n).command = .held := by
  rw [startRecords_lever s hn]; rfl

end State

/-! ### O56 -/

/-- Locks that all stand at HELD, in a part that is not RUNNING, are as the rule says. -/
theorem State.locksLawful_of_held {s : State} (running : s.isRunning = false)
    (held : ∀ n, leverOk n = true → (s.lever n).command = .held) : s.locksLawful := by
  intro n hn
  have wants : s.wantsFree n = false := by unfold State.wantsFree; simp [running]
  simp [held n hn, wants]

/-- With no table there is no verdict to be held. -/
theorem State.verdictsFresh_of_noTable {s : State} (h : s.store.active = none) : s.verdictsFresh := by
  intro n _ hf
  have : s.leverRec n = none := by unfold State.leverRec State.table; rw [h]; rfl
  unfold State.leverFitted at hf
  rw [this] at hf; cases hf

namespace Locking

variable {s : State}

theorem powerUp (p : PowerInputs) (s : State) : (s.powerUp p).verdictsFresh ∧ (s.powerUp p).locksLawful := by
  have o := Locking.locks.ordering
  have blank : ∀ t : State, OnlyOrders (s.poweredWith p) t → t.startRecords.verdictsFresh ∧ t.startRecords.locksLawful := by
    intro t ht
    have none : t.startRecords.store = (s.poweredWith p).store := by
      obtain ⟨_, _, _, _, _, _, h⟩ := t.startRecords_eq
      obtain ⟨_, _, _, _, _, _, rfl⟩ := ht
      rw [h]
    obtain ⟨_, _, _, _, hp⟩ := s.poweredWith_eq p
    refine ⟨State.verdictsFresh_of_noTable (by rw [none, hp]), State.locksLawful_of_held ?_ fun n hn => t.startRecords_held hn⟩
    unfold State.isRunning; rw [none, hp]; rfl
  unfold State.powerUp; dsimp only; split
  · exact o.evaluate _ _ (forEach_inv (fun n u => o.inner.raising.contactAtStart _ n) _ _
      fun n hn _ => State.startRecords_held _ hn)
  · split
    · exact blank _ (State.report_only _ _ _ _ _).orders
    · exact blank _ ((State.raiseAndEnd_only _ _ _).trans (State.report_only _ _ _ _ _).orders)

theorem writeComplete (t : Table) (s : State) : (s.writeComplete t).verdictsFresh ∧ (s.writeComplete t).locksLawful := by
  have o := Locking.locks.ordering
  exact o.evaluate _ _ (forEach_inv (fun n u => o.inner.raising.carryLever _ n) _ _
    fun n hn _ => State.startRecords_held _ hn)

theorem writeFail (s : State) : s.writeFail.verdictsFresh ∧ s.writeFail.locksLawful := by
  unfold State.writeFail; dsimp only
  have released := fun n hn => State.releaseLevers_lever
    (State.endOwners (forEach allSections State.discardCodes (s.raiseAndEnd .store 0))) (n := n) hn
  generalize forEach allLevers State.releaseLever _ = s2 at released ⊢
  generalize hs3 : State.emptyRegister _ = s3
  have none : s3.store.active = none := by rw [← hs3]; rfl
  have running : s3.isRunning = false := by rw [← hs3]; rfl
  have held : ∀ n, leverOk n = true → (s3.lever n).command = .held := fun n hn => by
    have h2 : (s2.lever n).command = .held := by rw [released n hn]; rfl
    rw [← hs3]; exact h2
  obtain ⟨b, hb⟩ := State.startBells_eq (s3.partReport 4 [])
  obtain ⟨se, hse⟩ := State.startSectns_eq (forEach allSections State.startBell (s3.partReport 4 []))
  obtain ⟨l, hl⟩ := State.report_only .part 0 4 [] s3
  rw [hse, hb, show s3.partReport 4 [] = _ from hl]
  exact ⟨State.verdictsFresh_of_noTable none, State.locksLawful_of_held running held⟩

/-- Every command keeps the verdicts and the locks. -/
theorem standing : Stepping State.unlockedHeld fun s => s.verdictsFresh ∧ s.locksLawful := by
  have h := Locking.locks
  have same : ∀ {s t : State}, s.SameLocking t → t.isRunning = s.isRunning → t.frame.supplyOn = s.frame.supplyOn →
      s.verdictsFresh ∧ s.locksLawful → t.verdictsFresh ∧ t.locksLawful := fun a b c => h.same _ _ a b c
  exact {
    h.lasting with
    rings := fun i _ => (h.lasting.ringing fun _ _ _ => same (.of_banks rfl rfl rfl rfl rfl rfl rfl) rfl rfl).rings i
    link := fun _ _ _ => same (.of_banks rfl rfl rfl rfl rfl rfl rfl) rfl rfl
    staging := fun _ _ _ _ _ => same (.of_banks rfl rfl rfl rfl rfl rfl rfl) rfl rfl
    part := fun _ _ _ _ s hs => h.rough s _ rfl (fun _ => rfl) (h.weaken s hs)
    keys := fun _ _ _ => same (.of_banks rfl rfl rfl rfl rfl rfl rfl) rfl rfl
    takeMasked := fun _ => same (.of_banks rfl rfl rfl rfl rfl rfl rfl) rfl rfl
    masks := fun _ _ _ _ _ => same (.of_banks rfl rfl rfl rfl rfl rfl rfl) rfl rfl
    shortAlarm := fun _ _ => same (.of_banks rfl rfl rfl rfl rfl rfl rfl) rfl rfl
    boxReset := fun s => h.ordering.boxReset (fun _ _ hf _ => h.onlyFaults hf)
      (fun t f s hl => same (.updTrack (by
        obtain ⟨rec, -, -, ⟨ho, hf⟩ | ⟨ho, hf⟩⟩ := hl
        · rw [hf, ho]; simp [TrackState.recover]
        · rw [hf])) rfl rfl)
      (fun _ s hs => h.rough s _ rfl (fun _ => rfl) (h.weaken s hs))
    powerUp := fun p s _ => Locking.powerUp p s
    writeComplete := fun t s _ => Locking.writeComplete t s
    writeFail := fun s _ => Locking.writeFail s
    pending := fun _ _ => same (.of_banks rfl rfl rfl rfl rfl rfl rfl) rfl rfl
    now := fun _ _ => same (.of_banks rfl rfl rfl rfl rfl rfl rfl) rfl rfl }

end Locking

/-- Settles O56: an evaluation makes every verdict fresh and every lock what the rule says, and follows every change of
a condition; all else leaves the conditions, the verdicts and the commands. -/
theorem lockingIsKept : Obligations.LockingIsKept := fun _ _ hv hl => Locking.standing.step ⟨hv, hl⟩

/-! ### What a raise makes of the supervisor (R157, R158, R160, R162) -/

/-- The list after a raise, without the sounds it brings: a recurrence, a new entry, a displacement, an overflow. -/
def Supervisor.entered (c : FaultClass) (o : Nat) (now : Time) (u m : Bool) (f : Supervisor) : Supervisor :=
  match f.entryOf c o with
  | some _ => { f with entries := f.entries.map fun x => if x.is c o then x.recur now u m else x }
  | none =>
    if f.entries.length < 16 then { f with entries := f.entries ++ [newEntry c o now u m] }
    else
      match f.entries.find? (fun x => !x.active) with
      | some d =>
        { f with
          entries := f.entries.eraseP (fun x => !x.active) ++ [newEntry c o now u m]
          overflow := d.alarmPending || f.overflow
          overflowAlarm := f.overflowAlarm || d.alarmPending }
      | none => { f with overflow := true }

/-- R162: the alarm that the overflow flag carries, and the short alarm of a masked HELD_RING. -/
def Supervisor.sounded (c : FaultClass) (now : Time) (u : Bool) (f : Supervisor) : Supervisor :=
  { f with
    overflowAlarm := f.overflowAlarm || (u && c.isAlarm && f.overflow)
    shortAlarm := if c = .heldRing ∧ u = false then some (now + 5000) else f.shortAlarm }

namespace State

theorem soundFor_faults (c : FaultClass) (u : Bool) (s : State) : (s.soundFor c u).faults = s.faults.sounded c s.now u := by
  have alarmed : (if u && c.isAlarm && s.faults.overflow then s.setOverflow true else s) =
      s.setFaults { s.faults with overflowAlarm := s.faults.overflowAlarm || (u && c.isAlarm && s.faults.overflow) } := by
    cases hc : u && c.isAlarm && s.faults.overflow with
    | false => rw [Bool.or_false]; rfl
    | true =>
      have ho : s.faults.overflow = true := (Bool.and_eq_true_iff.1 hc).2
      unfold State.setOverflow; rw [if_pos rfl, ← ho]
  unfold State.soundFor; dsimp only; rw [alarmed]
  unfold Supervisor.sounded
  cases hs : c == .heldRing && !u with
  | true =>
    rw [if_pos rfl, if_pos (by simpa using hs)]; rfl
  | false =>
    rw [if_neg Bool.false_ne_true, if_neg (by simpa using hs)]; rfl

theorem enterNew_faults (c : FaultClass) (o : Nat) (u m : Bool) (s : State) (h : s.faults.entryOf c o = none) :
    (s.enterNew c o u m).faults = s.faults.entered c o s.now u m := by
  have made : ∀ t : State, (if m then t.report .fault o 5 [c.code, responseByte u, 1]
       else t.report .fault o 1 [c.code, responseByte u, orderByte c u]).faults = t.faults := fun t => by
    split <;> exact State.report_faults _ _ _ _ _
  unfold State.enterNew Supervisor.entered; rw [h]; dsimp only
  split
  · rename_i hroom
    have hroom : s.faults.entries.length < 16 := hroom
    rw [made, if_pos hroom]; rfl
  · rename_i hfull
    have hfull : ¬s.faults.entries.length < 16 := hfull
    rw [if_neg hfull]
    cases hd : s.faults.entries.find? (fun x => !x.active) with
    | none => simp [State.setOverflow, State.setFaults]
    | some d =>
      simp only [State.report_faults, made]
      cases hp : d.alarmPending <;> simp [State.setOverflow, State.setEntries, State.setFaults]

theorem enterRecurrence_faults (c : FaultClass) (o : Nat) (e : FaultEntry) (u m : Bool) (s : State)
    (h : s.faults.entryOf c o = some e) : (s.enterRecurrence c o e u m).faults = s.faults.entered c o s.now u m := by
  unfold State.enterRecurrence Supervisor.entered; rw [h]; dsimp only
  split <;> rw [State.report_faults] <;> rfl

/-- R155 to R160, R162: what a raise leaves of the supervisor. -/
theorem enterRaise_faults (c : FaultClass) (o : Nat) (m : Bool) (s : State) :
    (s.enterRaise c o m).faults =
      (s.faults.entered c o s.now (s.faults.unmaskedFor c o) m).sounded c s.now (s.faults.unmaskedFor c o) := by
  unfold State.enterRaise; dsimp only
  rw [soundFor_faults]
  split
  · rename_i e he
    obtain ⟨_, _, h⟩ := State.enterRecurrence_only c o e (s.faults.unmaskedFor c o) m s
    rw [State.enterRecurrence_faults c o e _ m s he, h]
  · rename_i hn
    obtain ⟨_, _, h⟩ := State.enterNew_only c o (s.faults.unmaskedFor c o) m s
    rw [State.enterNew_faults c o _ m s hn, h]

end State

namespace Supervisor

variable (c : FaultClass) (o : Nat) (now : Time) (u m : Bool) (f : Supervisor)

@[simp] theorem sounded_entries : (f.sounded c now u).entries = f.entries := rfl
@[simp] theorem sounded_overflow : (f.sounded c now u).overflow = f.overflow := rfl

/-- R157 to R160: a raise brings no entry of another class into the list. -/
theorem entered_classes : ∀ e ∈ (f.entered c o now u m).entries, e.cls = c ∨ ∃ d ∈ f.entries, d.cls = e.cls := by
  intro e he
  unfold entered at he
  split at he
  · obtain ⟨d, hd, rfl⟩ := List.mem_map.1 he
    refine .inr ⟨d, hd, ?_⟩
    split <;> rfl
  · have new : ∀ {es : List FaultEntry}, (∀ x ∈ es, x ∈ f.entries) → e ∈ es ++ [newEntry c o now u m] →
        e.cls = c ∨ ∃ d ∈ f.entries, d.cls = e.cls := fun hes he => by
      rcases List.mem_append.1 he with he | he
      · exact .inr ⟨e, hes e he, rfl⟩
      · exact .inl (by rw [List.mem_singleton.1 he]; rfl)
    split at he
    · exact new (fun _ => id) he
    · split at he
      · exact new (fun _ => List.mem_of_mem_eraseP) he
      · exact .inr ⟨e, he, rfl⟩

/-- A raise into the list moves no order. -/
theorem entered_register : (f.entered c o now u m).frameCut = f.frameCut ∧
    (f.entered c o now u m).frozenSet = f.frozenSet ∧ (f.entered c o now u m).failedSet = f.failedSet := by
  unfold entered
  split
  · exact ⟨rfl, rfl, rfl⟩
  · split
    · exact ⟨rfl, rfl, rfl⟩
    · split <;> exact ⟨rfl, rfl, rfl⟩

end Supervisor

/-! ### O57: the orders and the register -/

/-- The orders in force: the frame cut, the sections frozen, the circuits failed. -/
structure OrderSet where
  cut : Bool
  frozen : SectionId → Bool
  failed : Nat → Bool

/-- R156: the register says these orders. -/
def Supervisor.registers (k : OrderSet) (f : Supervisor) : Prop :=
  f.frameCut = k.cut ∧ (∀ x, f.frozenSet.getLsbD (secCode x).toNat = k.frozen x) ∧
  ∀ t, 1 ≤ t → t ≤ 24 → f.failedSet.getLsbD (t - 1) = k.failed t

/-- R61: a circuit that carries the fail order or does not, in a state that may. -/
def TrackState.ordered (b : Bool) (x : TrackState) : Prop :=
  x.failedMark = b ∧ (x.state = .failed → b = true) ∧ (b = true → x.state = .failed ∨ x.state = .outOfUse)

/-- R36, R61, R144: the owners hold these orders. -/
def State.holdsOrders (o : OrderSet) (s : State) : Prop :=
  (s.frame.supplyOn = !o.cut) ∧ (∀ x, (s.sectn x).frozen = o.frozen x) ∧
  ∀ t, 1 ≤ t → t ≤ 24 → s.trackFitted t = true → (s.track t).ordered (o.failed t)

/-- What the register says, what the owners hold, and no frame supply under a stuck or forced lock. -/
def State.ordersStand (k o : OrderSet) (s : State) : Prop :=
  s.supplyLawful ∧ s.faults.registers k ∧ s.holdsOrders o

/-- The orders of a register. -/
def Supervisor.orders (f : Supervisor) : OrderSet where
  cut := f.frameCut
  frozen x := f.frozenSet.getLsbD (secCode x).toNat
  failed t := f.failedSet.getLsbD (t - 1)

theorem Supervisor.registers_orders (f : Supervisor) : f.registers f.orders := ⟨rfl, fun _ => rfl, fun _ _ _ => rfl⟩

theorem TrackState.ordered_iff (b : Bool) (x : TrackState) : x.ordered b ↔
    x.failedMark = b ∧ (x.state = .failed → x.failedMark = true) ∧
      (x.failedMark = true → x.state = .failed ∨ x.state = .outOfUse) := by
  unfold TrackState.ordered
  constructor <;> (rintro ⟨rfl, h⟩; exact ⟨rfl, h⟩)

/-- R55, R61: a sample moves neither the mark nor a circuit that is FAILED or OUT_OF_USE. -/
theorem TrackState.sample_ordered {b : Bool} {x : TrackState} (rec : TrackRec) (r : Sample) (h : x.ordered b) :
    (x.sample rec r).ordered b := by
  obtain ⟨hmark, hfail, hstate⟩ := h
  refine ⟨hmark, fun hs => hfail ?_, fun hb => ?_⟩
  · cases hx : x.state with
    | failed => rfl
    | clear => revert hs; simp only [TrackState.sample, hx]; split <;> simp
    | occupied => revert hs; simp only [TrackState.sample, hx]; simp; split <;> simp
    | outOfUse => simp [TrackState.sample, hx] at hs
  · rcases hstate hb with hx | hx
    · exact .inl (by simp [TrackState.sample, hx])
    · exact .inr (by simp [TrackState.sample, hx])

theorem State.ordersStand_of_lawful {s : State} (hs : s.supplyLawful) (hr : s.registerLawful) :
    s.ordersStand s.faults.orders s.faults.orders := by
  obtain ⟨hc, hz, hm⟩ := hr
  exact ⟨hs, s.faults.registers_orders, by rw [show s.faults.orders.cut = s.faults.frameCut from rfl, hc]; simp, hz,
    fun t h1 h24 hf => (TrackState.ordered_iff _ _).2 (hm t h1 h24 hf)⟩

theorem State.registerLawful_of_ordersStand {o : OrderSet} {s : State} (h : s.ordersStand o o) : s.registerLawful := by
  obtain ⟨-, ⟨kc, kz, km⟩, oc, oz, om⟩ := h
  refine ⟨by rw [kc, oc]; simp, fun x => by rw [oz, kz], fun t h1 h24 hf => ?_⟩
  have := (TrackState.ordered_iff _ _).1 (om t h1 h24 hf)
  rwa [← km t h1 h24] at this

/-- R36, R156: what every state keeps of the orders, that the register says what the owners hold. -/
def State.ordersLawful (s : State) : Prop := s.supplyLawful ∧ s.registerLawful

theorem State.ordersLawful_iff {s : State} : s.ordersLawful ↔ ∃ o, s.ordersStand o o :=
  ⟨fun h => ⟨_, State.ordersStand_of_lawful h.1 h.2⟩, fun ⟨_, h⟩ => ⟨h.1, State.registerLawful_of_ordersStand h⟩⟩

/-! #### What the list and the owners make of the orders that stand -/

/-- The list names no class it did not name, and the register and the owners stand. -/
structure ClassesKept (s t : State) : Prop where
  classes : ∀ e ∈ t.faults.entries, ∃ d ∈ s.faults.entries, d.cls = e.cls
  registers : ∀ k, s.faults.registers k → t.faults.registers k

theorem ClassesKept.refl (s : State) : ClassesKept s s := ⟨fun e he => ⟨e, he, rfl⟩, fun _ => id⟩

theorem ClassesKept.of_faults {s t : State} (h : t.faults = s.faults) : ClassesKept s t :=
  ⟨fun e he => ⟨e, h ▸ he, rfl⟩, fun _ hk => h ▸ hk⟩

namespace State

/-- An update of the desk alone that keeps the classes of the list. -/
theorem ordersStand_of_desk {s t : State} {k o : OrderSet} (ht : OnlyFaults s t) (hc : ClassesKept s t)
    (h : s.ordersStand k o) : t.ordersStand k o := by
  obtain ⟨hs, hk, ho⟩ := h
  refine ⟨fun e he hcls => ?_, hc.registers k hk, ?_⟩
  · obtain ⟨d, hd, hde⟩ := hc.classes e he
    have off := hs d hd (hde ▸ hcls)
    obtain ⟨_, _, rfl⟩ := ht
    exact off
  · obtain ⟨_, _, rfl⟩ := ht
    exact ho

theorem report_kept (c : Category) (o e : Nat) (d : List Byte) (s : State) : ClassesKept s (s.report c o e d) :=
  .of_faults (s.report_faults c o e d)

/-- R159: an end renames no entry. -/
theorem endFault_kept (c : FaultClass) (o : Nat) (s : State) : ClassesKept s (s.endFault c o) := by
  unfold State.endFault; split
  · exact .refl s
  · split
    · refine ⟨fun e he => ?_, fun k hk => by rw [State.report_faults]; exact hk⟩
      rw [State.report_faults] at he
      obtain ⟨d, hd, rfl⟩ := List.mem_map.1 he
      refine ⟨d, hd, ?_⟩
      split <;> rfl
    · exact .refl s

/-- The updates inside a step, for the orders that stand: none of them moves an order. -/
theorem ordersStand_rough (k o : OrderSet) : Rough (fun _ => True) (State.ordersStand k o) where
  report c ob e d s := ordersStand_of_desk (State.report_only c ob e d s).faults (report_kept c ob e d s)
  endFault c ob s := ordersStand_of_desk (State.endFault_only c ob s) (endFault_kept c ob s)
  lever _ _ _ _ _ h := h
  track t f s ht h := by
    obtain ⟨hs, hk, hc, hz, hm⟩ := h
    refine ⟨hs, hk, hc, hz, fun n h1 h24 hf => ?_⟩
    rw [State.track_updTrack]; split
    · rename_i hn
      obtain ⟨rfl, -⟩ := hn
      obtain ⟨hmark, hfail, hstate⟩ := hm n h1 h24 hf
      obtain ⟨rec, -, ⟨r, hy⟩ | hy | ⟨hout, hmk, hy⟩ | ⟨hout, hmk, hy⟩⟩ := ht <;> rw [hy]
      · exact TrackState.sample_ordered rec r ⟨hmark, hfail, hstate⟩
      · exact ⟨hmark, by simp, fun _ => .inr rfl⟩
      · exact ⟨hmark, fun _ => hmark ▸ hmk, fun _ => .inl rfl⟩
      · rw [hmk] at hmark
        exact ⟨by rw [← hmark]; exact hmk, by simp [TrackState.recover], fun hb => by rw [← hmark] at hb; cases hb⟩
    · exact hm n h1 h24 hf
  seq _ _ _ _ h := h
  lock _ _ _ _ h := h
  sect x f s hf _ h := by
    obtain ⟨hs, hk, hc, hz, hm⟩ := h
    refine ⟨hs, hk, hc, fun y => ?_, hm⟩
    rw [State.sectn_updSect]; split
    · subst y; rw [hf]; exact hz x
    · exact hz y
  notice _ _ _ h := h

theorem ordersStand_settling (k o : OrderSet) : Settling (fun _ => True) (State.ordersStand k o) (State.ordersStand k o) where
  rough := ordersStand_rough k o
  firm := (ordersStand_rough k o).firm
  weaken _ := id
  evaluate c _ hs := State.evaluate_keeps (ordersStand_rough k o).report ((ordersStand_rough k o).endFault .lockDrive)
    (fun _ _ _ h => h) c hs
  unfitted _ _ _ _ _ _ _ _ h := h

end State

/-! #### A raise and its order (R155, R156) -/

/-- One more order in force. -/
def OrderSet.add : Order → Nat → OrderSet → OrderSet
  | .frameCut, _, k => { k with cut := true }
  | .fail, obj, k => { k with failed := fun t => k.failed t || t == obj }
  | .freeze, obj, k => { k with frozen := fun x => k.frozen x || (secCode x).toNat == obj }

theorem bit_or_shift {w : Nat} (v : BitVec w) (k j : Nat) (hj : j < w) :
    (v ||| 1#w <<< k).getLsbD j = (v.getLsbD j || j == k) := by
  rw [BitVec.getLsbD_or, BitVec.getLsbD_shiftLeft, BitVec.getLsbD_one]
  have same : (!decide (j < k) && (decide (0 < w) && decide (j - k = 0))) = (j == k) := by
    rw [Bool.eq_iff_iff]; simp; omega
  rw [decide_eq_true hj, Bool.true_and, same]

namespace State

/-- R156: the register takes the order. -/
theorem registers_register {r : Order} {obj : Nat} {s : State} {k : OrderSet} (hr : r = .fail → 1 ≤ obj)
    (h : s.faults.registers k) : (s.register r obj).faults.registers (k.add r obj) := by
  obtain ⟨hc, hz, hm⟩ := h
  cases r with
  | frameCut => exact ⟨rfl, hz, hm⟩
  | fail =>
    refine ⟨hc, hz, fun t h1 h24 => ?_⟩
    change (s.faults.failedSet ||| 1#24 <<< (obj - 1)).getLsbD (t - 1) = (k.failed t || t == obj)
    have same : (t - 1 == obj - 1) = (t == obj) := by
      have := hr rfl; rw [Bool.eq_iff_iff, beq_iff_eq, beq_iff_eq]; omega
    rw [bit_or_shift _ _ _ (by omega), hm t h1 h24, same]
  | freeze =>
    refine ⟨hc, fun x => ?_, hm⟩
    change (s.faults.frozenSet ||| 1#4 <<< obj).getLsbD (secCode x).toNat = (k.frozen x || (secCode x).toNat == obj)
    rw [bit_or_shift _ _ _ (by cases x <;> decide), hz]

/-- R61: a circuit takes the fail order. -/
theorem ordersStand_addFail {k o : OrderSet} {s : State} {t : Nat} {f : TrackState → TrackState}
    (hf : 1 ≤ t → t ≤ 24 → s.trackFitted t = true → (f (s.track t)).ordered true) (h : s.ordersStand k o) :
    (s.updTrack t f).ordersStand k (o.add .fail t) := by
  obtain ⟨hs, hk, hc, hz, hm⟩ := h
  refine ⟨hs, hk, hc, hz, fun n h1 h24 hn => ?_⟩
  change TrackState.ordered (o.failed n || n == t) _
  rw [State.track_updTrack]; split
  · rename_i hnt
    obtain ⟨rfl, -⟩ := hnt
    simpa using hf h1 h24 hn
  · rename_i hnt
    have other : (n == t) = false := by
      rw [beq_eq_false_iff_ne]; exact fun he => hnt ⟨he, he ▸ h1, he ▸ h24⟩
    rw [other, Bool.or_false]; exact hm n h1 h24 hn

/-- R61: the fail order leaves the circuit failed, or with the mark. -/
theorem ordersStand_failTrack {k o : OrderSet} {s : State} (t : Nat) (h : s.ordersStand k o) :
    (s.failTrack t).ordersStand k (o.add .fail t) := by
  have settling := ordersStand_settling k (o.add .fail t)
  have failed := ordersStand_addFail (t := t) (f := TrackState.failedBy) (fun _ _ _ => ⟨rfl, fun _ => rfl, fun _ => .inl rfl⟩) h
  unfold State.failTrack; dsimp only; split
  · rename_i hx
    obtain ⟨hs, hk, hc, hz, hm⟩ := h
    refine ⟨hs, hk, hc, hz, fun n h1 h24 hn => ?_⟩
    change TrackState.ordered (o.failed n || n == t) _
    by_cases hnt : n = t
    · subst hnt
      obtain ⟨hmark, hfail, hstate⟩ := hm n h1 h24 hn
      have b := hfail hx
      rw [b] at hmark ⊢
      exact ⟨hmark, fun _ => rfl, fun _ => .inl hx⟩
    · rw [beq_eq_false_iff_ne.2 hnt, Bool.or_false]; exact hm n h1 h24 hn
  · rename_i hx
    exact settling.firm.report _ _ _ _ _ (ordersStand_addFail (fun _ _ _ => ⟨rfl, fun _ => rfl, fun _ => .inr hx⟩) h)
  · exact settling.firm.entryHanded _ _ (settling.evaluate _ _ (settling.firm.report _ _ _ _ _ failed))
  · exact settling.firm.entryHanded _ _ (settling.firm.report _ _ _ _ _ failed)

/-- R144: the freeze order leaves the section frozen. -/
theorem ordersStand_freezeSection {k o : OrderSet} {s : State} (x : SectionId) (h : s.ordersStand k o) :
    (s.freezeSection x).ordersStand k (o.add .freeze (secCode x).toNat) := by
  have settling := ordersStand_settling k (o.add .freeze (secCode x).toNat)
  have code : ∀ y, ((secCode y).toNat == (secCode x).toNat) = decide (y = x) := fun y => by cases x <;> cases y <;> decide
  obtain ⟨hs, hk, hc, hz, hm⟩ := h
  unfold State.freezeSection; split
  · rename_i hf
    refine ⟨hs, hk, hc, fun y => ?_, hm⟩
    change _ = (o.frozen y || (secCode y).toNat == (secCode x).toNat)
    rw [code]
    by_cases hy : y = x
    · subst hy; simp [hf]
    · simp [hy, hz y]
  · refine settling.evaluate _ _ (settling.firm.report _ _ _ _ _ ⟨hs, hk, hc, fun y => ?_, hm⟩)
    change _ = (o.frozen y || (secCode y).toNat == (secCode x).toNat)
    rw [code, State.sectn_updSect]
    by_cases hy : y = x
    · simp [hy]
    · simp [hy, hz y]

/-- R36: the cut leaves the frame supply off. -/
theorem ordersStand_cutFrame {k o : OrderSet} {s : State} (hk : s.faults.registers k) (ho : s.holdsOrders o) :
    s.cutFrame.ordersStand k (o.add .frameCut 0) := by
  have settling := ordersStand_settling k (o.add .frameCut 0)
  obtain ⟨hc, hz, hm⟩ := ho
  unfold State.cutFrame; split
  · exact settling.firm.report _ _ _ _ _ (settling.evaluate _ _ ⟨fun _ _ _ => rfl, hk, rfl, hz, hm⟩)
  · rename_i hoff
    have off : s.frame.supplyOn = false := by simpa using hoff
    exact ⟨fun _ _ _ => off, hk, by rw [off]; rfl, hz, hm⟩

/-- R155: the classes that are never masked. -/
theorem unmaskedFor_of_frameCut {c : FaultClass} (h : c.order = some .frameCut) (f : Supervisor) (o : Nat) :
    f.unmaskedFor c o = true := by
  cases c <;> simp [FaultClass.order] at h <;> rfl

/-- R155, R156: a raise leaves the owners of orders as the register says. -/
theorem ordersLawful_raiseWith {s : State} (m : Bool) {c : FaultClass} {obj : Nat} (names : c.names obj)
    (h : s.ordersLawful) : (s.raiseWith m c obj).ordersLawful := by
  obtain ⟨o, hs, hk, ho⟩ := State.ordersLawful_iff.1 h
  generalize hu : s.faults.unmaskedFor c obj = u
  have entered : (s.enterRaise c obj m).faults.registers o ∧ (s.enterRaise c obj m).holdsOrders o ∧
      (c.order ≠ some .frameCut → (s.enterRaise c obj m).supplyLawful) := by
    obtain ⟨_, f, he⟩ := State.enterRaise_only c obj m s
    have faults := State.enterRaise_faults c obj m s
    obtain ⟨rc, rz, rm⟩ := s.faults.entered_register c obj s.now (s.faults.unmaskedFor c obj) m
    refine ⟨?_, by rw [he]; exact ho, fun hc e hmem hcls => ?_⟩
    · obtain ⟨kc, kz, km⟩ := hk
      rw [faults]
      exact ⟨rc.trans kc, fun x => by rw [← kz, ← rz]; rfl, fun t h1 h24 => by rw [← km t h1 h24, ← rm]; rfl⟩
    · rw [faults] at hmem
      have off : s.frame.supplyOn = false := by
        rcases Supervisor.entered_classes _ _ _ _ _ _ e hmem with hec | ⟨d, hd, hde⟩
        · rw [hec] at hcls
          rcases hcls with rfl | rfl <;> exact (hc rfl).elim
        · exact hs d hd (hde ▸ hcls)
      rw [he]; exact off
  obtain ⟨ek, eo, es⟩ := entered
  unfold State.raiseWith; dsimp only
  split
  · rename_i hc
    exact State.ordersLawful_iff.2 ⟨o, es (by simp [hc]), ek, eo⟩
  · rename_i r hc
    split
    · refine State.ordersLawful_iff.2 ⟨o.add r obj, ?_⟩
      have rk := registers_register (r := r) (obj := obj) (fun hr => names.1 (hr ▸ hc)) ek
      cases r with
      | frameCut => exact ordersStand_cutFrame rk eo
      | fail => exact ordersStand_failTrack obj ⟨es (by simp [hc]), rk, eo⟩
      | freeze =>
        obtain ⟨x, rfl⟩ := names.2 hc
        have : secOfCode (secCode x).toNat = some x := by cases x <;> rfl
        simp only [State.deliver, this]
        exact ordersStand_freezeSection x ⟨es (by simp [hc]), rk, eo⟩
    · rename_i hu
      refine State.ordersLawful_iff.2 ⟨o, es (fun hcut => ?_), ek, eo⟩
      rw [unmaskedFor_of_frameCut hcut] at hu; simp at hu

end State

/-! #### The events of the field -/

/-- The orders less those lifted. -/
def OrderSet.less (o : OrderSet) (cut : Bool) (z : SectionId → Bool) (m : Nat → Bool) : OrderSet where
  cut := o.cut && !cut
  frozen x := o.frozen x && !z x
  failed t := o.failed t && !m t

namespace State

/-- What every update keeps of the orders that stand, it keeps of orders that are lawful. -/
theorem ordersLawful_of_stand {s t : State} (h : ∀ o, s.ordersStand o o → t.ordersStand o o) (hs : s.ordersLawful) :
    t.ordersLawful := by
  obtain ⟨o, ho⟩ := State.ordersLawful_iff.1 hs
  exact State.ordersLawful_iff.2 ⟨o, h o ho⟩

theorem ordersLawful_rough : Rough (fun _ => True) State.ordersLawful where
  report c ob e d s := ordersLawful_of_stand fun o => (ordersStand_rough o o).report c ob e d s
  endFault c ob s := ordersLawful_of_stand fun o => (ordersStand_rough o o).endFault c ob s
  lever n f s hc hn := ordersLawful_of_stand fun o => (ordersStand_rough o o).lever n f s hc hn
  track t f s ht := ordersLawful_of_stand fun o => (ordersStand_rough o o).track t f s ht
  seq q f s hq := ordersLawful_of_stand fun o => (ordersStand_rough o o).seq q f s hq
  lock a f s ha := ordersLawful_of_stand fun o => (ordersStand_rough o o).lock a f s ha
  sect x f s hf hd := ordersLawful_of_stand fun o => (ordersStand_rough o o).sect x f s hf hd
  notice c q s := ordersLawful_of_stand fun o => (ordersStand_rough o o).notice c q s

theorem ordersLawful_lasting : Lasting (fun _ => True) State.ordersLawful State.ordersLawful where
  rough := ordersLawful_rough
  firm := ordersLawful_rough.firm
  weaken _ := id
  evaluate c s := ordersLawful_of_stand fun o => (ordersStand_settling o o).evaluate c s
  unfitted _ _ _ _ _ _ _ _ h := h
  raise m _ _ _ hc := ordersLawful_raiseWith m hc
  raiseInside m _ _ _ hc := ordersLawful_raiseWith m hc
  scanner _ _ h := h
  plungers _ _ h := h
  notices _ _ h := h
  answers _ _ h := h
  lockSupply _ _ _ h := h

/-! #### The box reset key (R163, R164) -/

/-- A fold that does to each object of its list what leaves one more of them done. -/
theorem forEach_done {α : Type} [DecidableEq α] {I : (α → Bool) → State → Prop} {f : α → State → State} (xs : List α)
    (h : ∀ x ∈ xs, ∀ d s, I d s → I (fun y => d y || decide (y = x)) (f x s)) :
    ∀ d s, I d s → I (fun y => d y || decide (y ∈ xs)) (forEach xs f s) := by
  induction xs with
  | nil => intro d s hs; simpa using hs
  | cons x xs ih =>
    intro d s hs
    have := ih (fun y hy => h y (List.mem_cons_of_mem x hy)) _ _ (h x List.mem_cons_self d s hs)
    have same : (fun y => (d y || decide (y = x)) || decide (y ∈ xs)) = fun y => d y || decide (y ∈ x :: xs) := by
      funext y; rw [Bool.or_assoc]; simp
    rwa [same] at this

/-- The owners hold the same orders of what there is. -/
theorem ordersStand_congr {k o p : OrderSet} {s : State} (h : s.ordersStand k o) (hc : p.cut = o.cut)
    (hz : ∀ x, p.frozen x = o.frozen x) (hm : ∀ t, 1 ≤ t → t ≤ 24 → p.failed t = o.failed t) : s.ordersStand k p := by
  obtain ⟨hs, hk, oc, oz, om⟩ := h
  exact ⟨hs, hk, by rw [hc]; exact oc, fun x => by rw [hz]; exact oz x, fun t h1 h24 => by rw [hm t h1 h24]; exact om t h1 h24⟩

/-- R164: the orders lifted are taken out of the register. -/
theorem registers_clearRegister {o : OrderSet} {s : State} (frame : Bool) (secs : BitVec 4) (trks : BitVec 24)
    (h : s.faults.registers o) : (s.clearRegister frame secs trks).faults.registers
      (o.less frame (fun x => secs.getLsbD (secCode x).toNat) fun t => trks.getLsbD (t - 1)) := by
  obtain ⟨hc, hz, hm⟩ := h
  refine ⟨?_, fun x => ?_, fun t h1 h24 => ?_⟩
  · change (s.faults.frameCut && !frame) = (o.cut && !frame); rw [hc]
  · have hx : (secCode x).toNat < 4 := by cases x <;> decide
    change (s.faults.frozenSet &&& ~~~secs).getLsbD _ = (o.frozen x && !secs.getLsbD _)
    rw [BitVec.getLsbD_and, BitVec.getLsbD_not, hz, decide_eq_true hx, Bool.true_and]
  · have ht : t - 1 < 24 := by omega
    change (s.faults.failedSet &&& ~~~trks).getLsbD _ = (o.failed t && !trks.getLsbD _)
    rw [BitVec.getLsbD_and, BitVec.getLsbD_not, hm t h1 h24, decide_eq_true ht, Bool.true_and]

/-- R36, R164: the frame supply is restored where no entry of LEVER_FORCED or LOCK_STUCK_FREE stands. -/
theorem ordersStand_restoreFrame {k o : OrderSet} {s : State}
    (none : ∀ e ∈ s.faults.entries, ¬(e.cls = .leverForced ∨ e.cls = .lockStuckFree)) (h : s.ordersStand k o) :
    s.restoreFrame.ordersStand k { o with cut := false } := by
  obtain ⟨-, hk, -, hz, hm⟩ := h
  have settling := ordersStand_settling k { o with cut := false }
  exact settling.evaluate _ _ (settling.firm.report _ _ _ _ _ ⟨fun e he hcls => (none e he hcls).elim, hk, rfl, hz, hm⟩)

/-- R145: an unfreeze leaves the section not frozen, and every other order. -/
theorem ordersStand_unfreeze {k o : OrderSet} {s : State} (x : SectionId) (h : s.ordersStand k o) :
    (s.unfreeze x).ordersStand k { o with frozen := fun y => o.frozen y && !decide (y = x) } := by
  obtain ⟨hs, hk, hc, hz, hm⟩ := h
  refine (ordersStand_settling k _).unfreeze x (fun _ => ⟨hs, hk, hc, fun y => ?_, hm⟩)
    fun hf => ⟨hs, hk, hc, fun y => ?_, hm⟩
  · rw [State.sectn_updSect]; split
    · rename_i hy; simp [hy]
    · rename_i hy; simp [hy, hz y]
  · by_cases hy : y = x
    · subst hy; simp [hf]
    · simp [hy, hz y]

/-- R62: a lift leaves the circuit without the order, and every other order. -/
theorem ordersStand_liftTrack {k o : OrderSet} {s : State} (t : Nat) (h : s.ordersStand k o) :
    (s.liftTrack t).ordersStand k { o with failed := fun n => o.failed n && !decide (n = t) } := by
  have settling := ordersStand_settling k { o with failed := fun n => o.failed n && !decide (n = t) }
  obtain ⟨hs, hk, hc, hz, hm⟩ := h
  have lifted : ∀ f : TrackState → TrackState, (f (s.track t)).ordered false →
      (s.updTrack t f).ordersStand k { o with failed := fun n => o.failed n && !decide (n = t) } := fun f hf => by
    refine ⟨hs, hk, hc, hz, fun n h1 h24 hn => ?_⟩
    rw [State.track_updTrack]; split
    · rename_i hnt; obtain ⟨rfl, -⟩ := hnt; simpa using hf
    · rename_i hnt
      have other : n ≠ t := fun he => hnt ⟨he, he ▸ h1, he ▸ h24⟩
      simpa [other] using hm n h1 h24 hn
  unfold State.liftTrack; split
  · rename_i hrec
    refine ⟨hs, hk, hc, hz, fun n h1 h24 hn => ?_⟩
    have other : n ≠ t := fun he => by
      unfold State.trackFitted at hn; rw [he, hrec] at hn; cases hn
    simpa [other] using hm n h1 h24 hn
  · dsimp only; split
    · exact settling.firm.report _ _ _ _ _ (lifted _ ⟨rfl, by simp [TrackState.recover], by simp⟩)
    · rename_i hx
      exact settling.firm.report _ _ _ _ _ (lifted _ ⟨rfl, by simp [hx], by simp⟩)
    · rename_i hfail hout
      refine ⟨hs, hk, hc, hz, fun n h1 h24 hn => ?_⟩
      have here := hm n h1 h24 hn
      by_cases hnt : n = t
      · subst hnt
        obtain ⟨hmark, hf, hstate⟩ := here
        have unmarked : o.failed n = false := by
          by_contra hb
          have hb : o.failed n = true := by simpa using hb
          rcases hstate hb with hx | hx
          · exact hfail (hmark.trans hb) hx
          · exact hout (hmark.trans hb) hx
        rw [unmarked] at hmark hf hstate
        change TrackState.ordered (o.failed n && _) _
        rw [unmarked]
        exact ⟨hmark, hf, hstate⟩
      · simpa [hnt] using here

/-- R164: every order that the register no longer holds is lifted. -/
theorem ordersLawful_sendLifts {o : OrderSet} {s : State} (frame : Bool) (secs : BitVec 4) (trks : BitVec 24)
    (none : frame = true → ∀ e ∈ s.faults.entries, ¬(e.cls = .leverForced ∨ e.cls = .lockStuckFree))
    (h : s.ordersStand (o.less frame (fun x => secs.getLsbD (secCode x).toNat) fun t => trks.getLsbD (t - 1)) o) :
    (s.sendLifts frame secs trks).ordersLawful := by
  generalize hk : o.less frame (fun x => secs.getLsbD (secCode x).toNat) (fun t => trks.getLsbD (t - 1)) = k at h
  have restored : (if frame then s.restoreFrame else s).ordersStand k (o.less frame (fun _ => false) fun _ => false) := by
    cases frame with
    | false =>
      exact ordersStand_congr h (Bool.and_true _) (fun _ => Bool.and_true _) (fun _ _ _ => Bool.and_true _)
    | true =>
      exact ordersStand_congr (ordersStand_restoreFrame (none rfl) h) (Bool.and_false _) (fun _ => Bool.and_true _)
        (fun _ _ _ => Bool.and_true _)
  refine forEach_inv (fun x u => ordersLawful_lasting.irregular x) _ _ (State.ordersLawful_iff.2 ⟨k, ?_⟩)
  have thawed := forEach_done (I := fun d u => u.ordersStand k (o.less frame d fun _ => false)) (f := State.unfreeze)
    (allSections.filter fun x => secs.getLsbD (secCode x).toNat) (fun x _ d u hu =>
      ordersStand_congr (ordersStand_unfreeze x hu) rfl (fun y => by simp [OrderSet.less, Bool.and_assoc]) fun _ _ _ => rfl)
    _ _ restored
  generalize forEach _ State.unfreeze _ = u at thawed ⊢
  have lifted := forEach_done (I := fun d u => u.ordersStand k
      (o.less frame (fun x => secs.getLsbD (secCode x).toNat) fun t => trks.getLsbD (t - 1) && d t))
    (f := fun n u => if trks.getLsbD (n - 1) then u.liftTrack n else u) allTracks (fun n _ d u hu => by
      dsimp only
      split
      · rename_i hb
        refine ordersStand_congr (ordersStand_liftTrack n hu) rfl (fun _ => rfl) fun t _ _ => ?_
        by_cases htn : t = n
        · subst htn; simp [OrderSet.less, hb]
        · simp [OrderSet.less, htn]
      · rename_i hb
        refine ordersStand_congr hu rfl (fun _ => rfl) fun t _ _ => ?_
        by_cases htn : t = n
        · subst htn; simp [OrderSet.less, hb]
        · simp [OrderSet.less, htn]) (fun _ => false) u
    (ordersStand_congr thawed rfl (fun x => by simp [OrderSet.less, mem_allSections]) fun t _ _ => by simp [OrderSet.less])
  refine ordersStand_congr lifted (by rw [← hk]; rfl) (fun x => by rw [← hk]; rfl) fun t h1 h24 => ?_
  rw [← hk]; simp [OrderSet.less, mem_allTracks, h1, h24]

/-- R163, R164: the box reset key leaves the owners as the register says. -/
theorem ordersLawful_boxReset {s : State} (hs : s.ordersLawful) : s.boxReset.ordersLawful := by
  have overflow : s.silence.restoreOverflow.ordersLawful := by
    have silent : s.silence.ordersLawful := by
      refine ordersLawful_of_stand (fun o ho => ?_) hs
      refine ordersStand_of_desk (State.setFaults_only _ s) ⟨fun e he => ?_, fun _ hk => hk⟩ ho
      obtain ⟨d, hd, rfl⟩ := List.mem_map.1 he
      exact ⟨d, (List.mem_filter.1 hd).1, rfl⟩
    refine ite_keeps (ordersLawful_lasting.handAll (ordersLawful_of_stand (fun o ho => ?_) silent)) silent
    exact ordersStand_of_desk (State.setFaults_only _ _) ⟨fun e he => ⟨e, he, rfl⟩, fun _ hk => hk⟩ ho
  unfold State.boxReset; dsimp only
  generalize s.silence.restoreOverflow = u at overflow
  obtain ⟨o, hsup, hk, ho⟩ := State.ordersLawful_iff.1 overflow
  refine ordersLawful_sendLifts (o := o) _ _ _ (fun hframe => ?_) ?_
  · rw [State.report_faults]
    intro e he hcls
    have standing : u.standing (fun e => e.cls == .leverForced || e.cls == .lockStuckFree) = true :=
      List.any_eq_true.2 ⟨e, he, by simpa using hcls⟩
    have := (Bool.and_eq_true_iff.1 hframe).2
    rw [standing] at this; cases this
  · refine (ordersStand_settling _ o).firm.report _ _ _ _ _ ⟨hsup, registers_clearRegister _ _ _ hk, ho⟩

end State

/-! #### The starts (R166, R168, R171, R172) -/

namespace State

/-- A start touches no order of the frame supply. -/
@[simp] theorem startRecords_supplyOn (s : State) : s.startRecords.frame.supplyOn = s.frame.supplyOn := by
  obtain ⟨_, _, _, _, _, _, h⟩ := s.startRecords_eq; rw [h]

@[simp] theorem startRecords_faults (s : State) : s.startRecords.faults = s.faults := by
  obtain ⟨_, _, _, _, _, _, h⟩ := s.startRecords_eq; rw [h]

/-- What starts afresh, with an empty register but for the frame, is lawful. -/
theorem ordersLawful_of_started {s : State} (h : Started s) (hs : s.supplyLawful)
    (hc : s.faults.frameCut = !s.frame.supplyOn) (hz : s.faults.frozenSet = 0) (hm : s.faults.failedSet = 0) :
    s.ordersLawful := by
  obtain ⟨ht, -, -, hx, -⟩ := h
  refine ⟨hs, hc, fun x => ?_, fun t _ _ _ => ?_⟩
  · rw [(hx x).2.2, hz]; simp
  · have : s.track t = default := by unfold State.track; rw [ht]; exact Bank.at_replicate rfl t
    rw [this, hm]
    exact ⟨by simp; rfl, by decide, by decide⟩

/-- The start of the records, after a desk that keeps the frame supply off as it must. -/
theorem ordersLawful_startRecords {s : State} (hs : s.supplyLawful) (hc : s.faults.frameCut = !s.frame.supplyOn)
    (hz : s.faults.frozenSet = 0) (hm : s.faults.failedSet = 0) : s.startRecords.ordersLawful :=
  ordersLawful_of_started (startRecords_started s)
    (fun e he hcls => by rw [startRecords_faults] at he; rw [startRecords_supplyOn]; exact hs e he hcls)
    (by rw [startRecords_faults, startRecords_supplyOn]; exact hc) (by rw [startRecords_faults]; exact hz)
    (by rw [startRecords_faults]; exact hm)

/-- STORE sends no order: a raise of it leaves the register, and the list with its class alone more (R156). -/
theorem raiseStore_register (s : State) : (s.raiseAndEnd .store 0).frame = s.frame ∧
    (s.raiseAndEnd .store 0).faults.frameCut = s.faults.frameCut ∧
    (s.raiseAndEnd .store 0).faults.frozenSet = s.faults.frozenSet ∧
    (s.raiseAndEnd .store 0).faults.failedSet = s.faults.failedSet ∧
    ∀ e ∈ (s.raiseAndEnd .store 0).faults.entries, e.cls = .store ∨ ∃ d ∈ s.faults.entries, d.cls = e.cls := by
  have order : s.raiseAndEnd .store 0 = s.enterRaise .store 0 true := rfl
  obtain ⟨hc, hz, hm⟩ := s.faults.entered_register .store 0 s.now (s.faults.unmaskedFor .store 0) true
  rw [order, State.enterRaise_faults]
  refine ⟨?_, hc, hz, hm, Supervisor.entered_classes _ _ _ _ _ _⟩
  obtain ⟨_, _, h⟩ := State.enterRaise_only .store 0 true s
  rw [h]

/-- The frame supply is on, and no order in force, at power-on (R36, R166). -/
theorem powered_orders {p : PowerInputs} {s t : State} (hs : t.frame.supplyOn = (s.poweredWith p).frame.supplyOn)
    (hc : t.faults.frameCut = (s.poweredWith p).faults.frameCut) (hz : t.faults.frozenSet = (s.poweredWith p).faults.frozenSet)
    (hm : t.faults.failedSet = (s.poweredWith p).faults.failedSet)
    (he : ∀ e ∈ t.faults.entries, e.cls = .store ∨ ∃ d ∈ (s.poweredWith p).faults.entries, d.cls = e.cls) :
    t.startRecords.ordersLawful := by
  obtain ⟨lv, pl, b, se, hp⟩ := s.poweredWith_eq p
  rw [hp] at hc hs hz hm he
  refine ordersLawful_startRecords (fun e hmem hcls => ?_) (by rw [hc, hs]; rfl) hz hm
  rcases he e hmem with hec | ⟨d, hd, -⟩
  · rw [hec] at hcls; simp at hcls
  · cases hd

/-- R168. -/
theorem ordersLawful_powerUp (p : PowerInputs) (s : State) : (s.powerUp p).ordersLawful := by
  have h := ordersLawful_lasting
  have told : ∀ (u : State) r d, u.frame = (s.poweredWith p).frame → u.faults = (s.poweredWith p).faults →
      (u.partReport r d).startRecords.ordersLawful := fun u r d hf hd => by
    unfold State.partReport
    refine powered_orders (p := p) (s := s) ?_ ?_ ?_ ?_ ?_ <;> simp only [State.report_frame, State.report_faults, hf, hd]
    exact fun e he => .inr ⟨e, he, rfl⟩
  unfold State.powerUp; dsimp only; split
  · exact h.evaluate _ _ (forEach_inv (fun n u => h.contactAtStart _ n) _ _ (told _ _ _ rfl rfl))
  · split
    · exact told _ _ _ rfl rfl
    · obtain ⟨hf, hc, hz, hm, he⟩ := (s.poweredWith p).raiseStore_register
      unfold State.powerWithFault State.partReport
      refine powered_orders (p := p) (s := s) ?_ ?_ ?_ ?_ ?_ <;> simp only [State.report_frame, State.report_faults]
      · rw [hf]
      · exact hc
      · exact hz
      · exact hm
      · exact he

theorem ordersLawful_endOwners {s : State} (hs : s.ordersLawful) : s.endOwners.ordersLawful :=
  State.endOwners_onlyEnds _ ordersLawful_rough.report ordersLawful_rough.endFault (fun _ _ _ h => h) s hs

/-- R171. -/
theorem ordersLawful_writeComplete (t : Table) {s : State} (hs : s.ordersLawful) : (s.writeComplete t).ordersLawful := by
  have h := ordersLawful_lasting
  obtain ⟨hsup, hc, -, -⟩ := ordersLawful_endOwners hs
  refine h.evaluate _ _ (forEach_inv (fun n u => h.carryLever _ n) _ _ (ordersLawful_startRecords ?_ ?_ ?_ ?_))
  · intro e he hcls
    unfold State.partReport at he ⊢; rw [State.report_faults] at he; rw [State.report_frame]
    exact hsup e he hcls
  · unfold State.partReport; rw [State.report_faults, State.report_frame]; exact hc
  · unfold State.partReport; rw [State.report_faults]; rfl
  · unfold State.partReport; rw [State.report_faults]; rfl

/-- R172. -/
theorem ordersLawful_writeFail {s : State} (hs : s.ordersLawful) : s.writeFail.ordersLawful := by
  have discards : ∀ d x (u : State), u.ordersLawful → (u.discardCode x d).ordersLawful := fun d x u hu => by
    unfold State.discardCode; split
    · exact ordersLawful_rough.report _ _ _ _ _ hu
    · exact hu
  have ended : (forEach allLevers releaseLever (State.endOwners (forEach allSections discardCodes
      (s.raiseAndEnd .store 0)))).ordersLawful :=
    forEach_inv (fun n u hu => State.releaseLever_onlyEnds n _ ordersLawful_rough.report ordersLawful_rough.endFault
      (fun _ _ _ h => h) u hu) _ _ (ordersLawful_endOwners (forEach_inv (fun x u hu => discards _ x _ (discards _ x u hu)) _ _
      (ordersLawful_raiseWith true (FaultClass.names_of_frame (.inl rfl)) hs)))
  unfold State.writeFail; dsimp only
  generalize forEach allLevers releaseLever _ = u at ended ⊢
  obtain ⟨hsup, hc, -, -⟩ := ended
  generalize hv : State.emptyRegister _ = v
  have started := Started.of_starts (s := v.partReport 4 []) (by unfold State.partReport; rw [State.report_tracks, ← hv]; rfl)
    (by unfold State.partReport; rw [State.report_seqs, ← hv]; rfl) (fun a => by
      unfold State.partReport; rw [State.report_lockn, ← hv]
      have : ∀ l : ApproachState, l = default → l.phase ≠ .timing ∧ l.remaining = none := by rintro l rfl; decide
      exact this _ (Bank.at_replicate rfl a))
  obtain ⟨b, hb⟩ := State.startBells_eq (v.partReport 4 [])
  obtain ⟨se, hse⟩ := State.startSectns_eq (forEach allSections startBell (v.partReport 4 []))
  have faults : (forEach allSections startSectn (forEach allSections startBell (v.partReport 4 []))).faults = v.faults := by
    rw [hse, hb]; exact State.report_faults _ _ _ _ _
  have frame : (forEach allSections startSectn (forEach allSections startBell (v.partReport 4 []))).frame = v.frame := by
    rw [hse, hb]; exact State.report_frame _ _ _ _ _
  refine ordersLawful_of_started started (fun e he hcls => ?_) ?_ ?_ ?_
  · rw [faults, ← hv] at he; rw [frame, ← hv]; exact hsup e he hcls
  · rw [faults, frame, ← hv]; exact hc
  · rw [faults, ← hv]; rfl
  · rw [faults, ← hv]; rfl

/-- Every command keeps the owners of orders as the register says. -/
theorem ordersLawful_standing : Stepping State.ordersLawful State.ordersLawful where
  toLasting := ordersLawful_lasting
  rings i _ := (ordersLawful_lasting.ringing fun _ _ _ h => h).rings i
  link _ _ _ h := h
  staging _ _ _ _ _ h := h
  part _ _ _ _ _ h := h
  keys _ _ _ h := h
  takeMasked s := ordersLawful_of_stand fun _ => ordersStand_of_desk (State.setFaults_only _ s)
    ⟨fun e he => ⟨e, (List.mem_filter.1 he).1, rfl⟩, fun _ hk => hk⟩
  masks _ _ _ _ _ h := h
  shortAlarm _ _ h := h
  boxReset _ := ordersLawful_boxReset
  powerUp p s _ := ordersLawful_powerUp p s
  writeComplete t _ := ordersLawful_writeComplete t
  writeFail _ := ordersLawful_writeFail
  pending _ _ h := h
  now _ _ h := h

end State

/-- Settles O57: a raise registers its order as its owner takes it, the box reset key lifts what the register gives up,
and a start leaves no order in force but the frame cut. -/
theorem ordersAreKept : Obligations.OrdersAreKept := fun _ _ hs hr => State.ordersLawful_standing.step ⟨hs, hr⟩

/-! ### O1, O2, O3: the queue -/

/-- Settles O1. -/
theorem stepRunsTheFront : Obligations.StepRunsTheFront := fun _ _ s h => by
  unfold step; rw [h]

/-- The queue of commands is `q`. -/
def State.queueIs (q : List Instr) (s : State) : Prop := s.pending = q

/-- The queue of commands is the sender's: no update inside a command writes it. -/
theorem pendingStands (q : List Instr) : Standing (State.queueIs q) (State.queueIs q) := by
  have rough : Rough (fun _ => True) (State.queueIs q) :=
    { report := fun _ _ _ _ _ h => (State.report_pending _ _ _ _ _).trans h
      endFault := fun c o s h => by obtain ⟨_, _, he⟩ := State.endFault_only c o s; rw [he]; exact h
      lever := fun _ _ _ _ _ h => h
      track := fun _ _ _ _ h => h
      seq := fun _ _ _ _ h => h
      lock := fun _ _ _ _ h => h
      sect := fun _ _ _ _ _ h => h
      notice := fun _ _ _ h => h }
  have ordering : Ordering (fun _ => True) (State.queueIs q) (State.queueIs q) :=
    { rough := rough
      firm := rough.firm
      weaken := fun _ => id
      evaluate := fun c s h => by obtain ⟨_, _, _, he⟩ := State.evaluate_only c s; rw [he]; exact h
      unfitted := fun _ _ _ _ _ _ _ _ h => h
      enterRaise := fun c o m s h => by obtain ⟨_, _, he⟩ := State.enterRaise_only c o m s; rw [he]; exact h
      enterRaiseInside := fun c o m s h => by obtain ⟨_, _, he⟩ := State.enterRaise_only c o m s; rw [he]; exact h
      register := fun r o s h => by obtain ⟨_, _, he⟩ := State.register_only r o s; rw [he]; exact h
      registerInside := fun r o s h => by obtain ⟨_, _, he⟩ := State.register_only r o s; rw [he]; exact h
      supply := fun _ _ h => h
      mark := fun _ _ h => h
      markInside := fun _ _ h => h
      failUnread := fun _ _ _ h => h
      fail := fun _ _ h => h
      freeze := fun _ _ h => h }
  have lasting : Lasting (fun _ => True) (State.queueIs q) (State.queueIs q) :=
    { ordering.raising with
      scanner := fun _ _ h => h
      plungers := fun _ _ h => h
      notices := fun _ _ h => h
      answers := fun _ _ h => h
      lockSupply := fun _ _ _ h => h }
  have starts : ∀ s : State, s.queueIs q → s.startRecords.queueIs q := fun s h => by
    obtain ⟨_, _, _, _, _, _, he⟩ := s.startRecords_eq; rw [he]; exact h
  have ends : ∀ {f : State → State}, OnlyEnds f → ∀ s : State, s.queueIs q → (f s).queueIs q := fun hf s h =>
    hf _ rough.report rough.endFault (fun _ _ _ h => h) s h
  exact
    { lasting with
      rings := fun i _ => (lasting.ringing fun _ _ _ h => h).rings i
      link := fun _ _ _ h => h
      staging := fun _ _ _ _ _ h => h
      part := fun _ _ _ _ _ h => h
      keys := fun _ _ _ h => h
      takeMasked := fun _ h => h
      masks := fun _ _ _ _ _ h => h
      shortAlarm := fun _ _ h => h
      boxReset := fun s => ordering.boxReset
        (fun _ _ ho _ h => by obtain ⟨_, _, rfl⟩ := ho; exact h) (fun _ _ _ _ h => h) fun _ _ h => h
      powerUp := fun p s h => by
        have powered : (s.poweredWith p).queueIs q := by
          obtain ⟨_, _, _, _, he⟩ := s.poweredWith_eq p; rw [he]; exact h
        unfold State.powerUp; dsimp only; split
        · exact ordering.evaluate _ _ (forEach_inv (fun n u => lasting.contactAtStart _ n) _ _
            (starts _ (rough.report _ _ _ _ _ powered)))
        · split
          · exact starts _ (rough.report _ _ _ _ _ powered)
          · exact starts _ (rough.report _ _ _ _ _ (ordering.enterRaise _ _ _ _ powered))
      writeComplete := fun t s h => ordering.evaluate _ _ (forEach_inv (fun n u => lasting.carryLever _ n) _ _
        (starts _ (rough.report _ _ _ _ _ (ends State.endOwners_onlyEnds s h))))
      writeFail := fun s h => by
        have discards : ∀ d x (u : State), u.queueIs q → (u.discardCode x d).queueIs q := fun d x u hu => by
          unfold State.discardCode; split
          · exact rough.report _ _ _ _ _ hu
          · exact hu
        have released : (forEach allLevers State.releaseLever (State.endOwners
            (forEach allSections State.discardCodes (s.raiseAndEnd .store 0)))).queueIs q := forEach_inv (fun n u => ends (State.releaseLever_onlyEnds n) u) allLevers _
          (ends State.endOwners_onlyEnds _ (forEach_inv (fun x u hu => discards .inbound x _ (discards .outbound x u hu)) allSections
            _ (ordering.enterRaise .store 0 true s h)))
        unfold State.writeFail; dsimp only
        generalize forEach allLevers State.releaseLever _ = u at released ⊢
        generalize hv : State.partReport 4 [] _ = v
        have reported : v.pending = q := by rw [← hv]; exact (State.report_pending _ _ _ _ _).trans released
        obtain ⟨_, hb⟩ := v.startBells_eq
        obtain ⟨_, hx⟩ := State.startSectns_eq (forEach allSections State.startBell v)
        rw [hx, hb]; exact reported }

/-- The commands that exist at the part complete: a named stop is for an object that is none, or a kind that is known. -/
theorem exec_completes (i : Instr) (s : State) (h : i.wellFormed = true) : ∃ t, exec i s = .next t := by
  have object : ∀ {b : Bool} {u : State}, b = true → ∃ t, onObject b u = .next t := fun hb => ⟨_, if_pos hb⟩
  cases i with
  | leverContactChange | transitLimit | lockReadbackChange | readbackWindowClose | plungerChange | stepTimeout
  | consumptionNotification | approachConsumptionAnswer | approachCountdownStep | approachExpiry => exact object h
  | unknownRequestKind k f =>
    have unknown : ¬(RequestKind.ofCode k.toNat).isSome = true := by
      have := (Bool.and_eq_true_iff.1 h).1
      cases hk : RequestKind.ofCode k.toNat <;> simp_all
    exact ⟨_, if_neg unknown⟩
  | _ => exact ⟨_, rfl⟩

/-- Settles O2: every command completes, and what it completes in has the queue it found. -/
theorem everyCommandCompletes : Obligations.EveryCommandCompletes := fun i s h => by
  obtain ⟨t, ht⟩ := exec_completes i s h
  exact ⟨t, ht, (pendingStands s.pending).exec i rfl t ht⟩

/-- Settles O3. -/
theorem modelConventions : Obligations.ModelConventions := by
  refine ⟨fun s h => ⟨fun i hi => ?_, fun hn => ?_⟩, fun s => ?_⟩
  · unfold step idle; rw [h, hi]
  · unfold step idle; rw [h, hn]
  · have none : ∀ {b : Bool} {u : State}, b = false → onObject b u = .fault .noSuchObject := fun hb => by
      unfold onObject; rw [hb]; rfl
    exact ⟨fun n hn => ⟨fun _ _ => none hn, none hn, fun _ => none hn, none hn⟩, fun _ _ hk => none hk,
      fun q hq => ⟨none hq, fun _ => none (by rw [hq, Bool.and_false])⟩, fun _ _ hc => none (by rw [hc, Bool.false_and]),
      fun a ha => ⟨none ha, none ha, none ha⟩, fun k f hk => if_pos hk⟩

/-! ### O6 to O9: requests, refusals, replies and reports -/

namespace State

theorem refuse_eq_answered (k : RequestKind) (o : ReplyOutcome) (s : State) : s.refuse k.code o = s.answered k o [] := rfl

/-- R183: a request whose body has not the length its kind requires. -/
theorem request_of_not_fits {s : State} {f : List Byte} {lenOk : Bool} (k : RequestKind) (owner : State → State)
    (hr : s.receives f = true) (hl : lenOk = false) : s.request k f lenOk owner = s.answered k .badField [] :=
  (if_pos hr).trans (if_neg (by simp [hl]))

/-- R180: a part that answers none takes no addressed request. -/
theorem request_of_not_receives {s : State} {f : List Byte} (k : RequestKind) (lenOk : Bool) (owner : State → State)
    (hr : s.receives f = false) : s.request k f lenOk owner = s := if_neg (by simp [hr])

theorem unlessBusy_of_storing {s : State} (k : RequestKind) (owner : State → State) (h : s.store.part = .storing) :
    unlessBusy k owner s = s.answered k .busy [] := if_pos (by simp [State.isStoring, h])

theorem unlessBusy_of_not_storing {s : State} (k : RequestKind) (owner : State → State) (h : s.store.part ≠ .storing) :
    unlessBusy k owner s = owner s := if_neg (by simp [State.isStoring, h])

/-- 10.5: two lists, each behind its count. -/
theorem twoLists_eq_some {f : List Byte} {m u : List Nat} : twoLists f = some (m, u) ↔
    ∃ a b : List Byte, a.length ≤ 255 ∧ b.length ≤ 255 ∧ f = byte a.length :: (a ++ byte b.length :: b) ∧
      m = a.map (·.toNat) ∧ u = b.map (·.toNat) := by
  have byteNat : ∀ n, n ≤ 255 → (byte n).toNat = n := fun n hn => by
    unfold byte; rw [BitVec.toNat_ofNat]; exact Nat.mod_eq_of_lt (by omega)
  constructor
  · intro h
    unfold twoLists at h
    split at h
    · cases h
    · rename_i c rest
      split at h
      · rename_i hlt
        split at h
        · cases h
        · rename_i d tail hdrop
          split at h
          · rename_i htail
            obtain ⟨rfl, rfl⟩ := Prod.mk.inj (Option.some.inj h)
            refine ⟨rest.take c.toNat, tail, ?_, ?_, ?_, rfl, rfl⟩
            · rw [List.length_take]; have := c.isLt; omega
            · rw [htail]; have := d.isLt; omega
            · have hc : byte (rest.take c.toNat).length = c := by
                apply BitVec.eq_of_toNat_eq
                rw [byteNat _ (by rw [List.length_take]; have := c.isLt; omega), List.length_take]; omega
              have hd : byte tail.length = d := by
                apply BitVec.eq_of_toNat_eq
                rw [byteNat _ (by rw [htail]; have := d.isLt; omega), htail]
              rw [hc, hd, ← hdrop, List.take_append_drop]
          · cases h
      · cases h
  · rintro ⟨a, b, ha, hb, rfl, rfl, rfl⟩
    simp [twoLists, byteNat _ ha, byteNat _ hb]

theorem twoLists_isSome {f : List Byte} : (twoLists f).isSome = true ↔
    ∃ a b : List Byte, a.length ≤ 255 ∧ b.length ≤ 255 ∧ f = byte a.length :: (a ++ byte b.length :: b) := by
  constructor
  · intro h
    obtain ⟨⟨m, u⟩, hp⟩ := Option.isSome_iff_exists.1 h
    obtain ⟨a, b, ha, hb, hf, -⟩ := twoLists_eq_some.1 hp
    exact ⟨a, b, ha, hb, hf⟩
  · rintro ⟨a, b, ha, hb, hf⟩
    exact Option.isSome_iff_exists.2 ⟨_, twoLists_eq_some.2 ⟨a, b, ha, hb, hf, rfl, rfl⟩⟩

end State

theorem RequestKind.ofCode_code (k : RequestKind) : RequestKind.ofCode k.code.toNat = some k := by cases k <;> rfl

/-- R183, 10.5: a request is known by its kind byte. -/
theorem commandOf_of_ofCode {kind : Byte} {k : RequestKind} (h : RequestKind.ofCode kind.toNat = some k) (f : List Byte)
    (key : Bool) : commandOf kind f key = commandOf k.code f key := by
  unfold commandOf; rw [h]; cases k <;> rfl

/-- The kinds that are answered in STORING too, and COMMISSION, which makes its own test (R170, R177). -/
def RequestKind.answersInStoring : RequestKind → Bool
  | .identify | .poll | .readRaw | .linkReset | .commission => true
  | _ => false

/-- R183: every addressed request is tested for its length, and then goes to an owner, which refuses it BUSY in STORING
but for a few kinds. -/
theorem exec_commandOf (k : RequestKind) (f : List Byte) (key : Bool) : ∃ (lenOk : Bool) (owner : State → State),
    (lenOk = true ↔ k.fits f) ∧ (∀ s, exec (commandOf k.code f key) s = .next (s.request k f lenOk owner)) ∧
    (k.answersInStoring = false → lenOk = true → ∃ o, owner = State.unlessBusy k o) := by
  have empty : f.isEmpty = true ↔ f.length = 0 := by rw [List.isEmpty_iff, List.length_eq_zero_iff]
  have one : (f.length == 1) = true ↔ f.length = 1 := beq_iff_eq
  have lists := State.twoLists_isSome (f := f)
  cases k with
  | identify => exact ⟨_, _, empty, fun _ => rfl, fun h => by cases h⟩
  | linkReset => exact ⟨_, _, empty, fun _ => rfl, fun h => by cases h⟩
  | readApproach | readSequences | readFaults | takeFaults | loadBegin | loadAbandon | loadStatus =>
    exact ⟨_, _, empty, fun _ => rfl, fun _ _ => ⟨_, rfl⟩⟩
  | poll | readRaw => exact ⟨_, _, one, fun _ => rfl, fun h => by cases h⟩
  | readLevers | readTracks | readSection | trackOutOfUse | trackInUse =>
    exact ⟨_, _, one, fun _ => rfl, fun _ _ => ⟨_, rfl⟩⟩
  | readTable =>
    match f with
    | [a, b] => exact ⟨true, _, by simp [RequestKind.fits], fun _ => rfl, fun _ _ => ⟨_, rfl⟩⟩
    | [] | [_] | _ :: _ :: _ :: _ => exact ⟨false, id, by simp [RequestKind.fits], fun _ => rfl, fun _ h => by cases h⟩
  | commission =>
    match f with
    | [a, b] => exact ⟨true, _, by simp [RequestKind.fits], fun _ => rfl, fun h => by cases h⟩
    | [] | [_] | _ :: _ :: _ :: _ => exact ⟨false, id, by simp [RequestKind.fits], fun _ => rfl, fun h => by cases h⟩
  | loadRecord =>
    match f with
    | _ :: _ => exact ⟨true, _, by simp [RequestKind.fits], fun _ => rfl, fun _ _ => ⟨_, rfl⟩⟩
    | [] => exact ⟨false, id, by simp [RequestKind.fits], fun _ => rfl, fun _ h => by cases h⟩
  | setMasks =>
    change ∃ l o, _ ∧ (∀ s, execSetMasks f s = _) ∧ _
    unfold execSetMasks
    cases hp : State.twoLists f with
    | none => rw [hp] at lists; exact ⟨false, id, lists, fun _ => rfl, fun _ h => by cases h⟩
    | some p => rw [hp] at lists; exact ⟨true, _, lists, fun _ => rfl, fun _ _ => ⟨_, rfl⟩⟩
  | setReporting =>
    change ∃ l o, _ ∧ (∀ s, execSetReporting f s = _) ∧ _
    unfold execSetReporting
    cases hp : State.twoLists f with
    | none => rw [hp] at lists; exact ⟨false, id, lists, fun _ => rfl, fun _ h => by cases h⟩
    | some p => rw [hp] at lists; exact ⟨true, _, lists, fun _ => rfl, fun _ _ => ⟨_, rfl⟩⟩

/-- Settles O6. -/
theorem unansweredFrames : Obligations.UnansweredFrames := by
  refine ⟨fun _ _ => ⟨rfl, rfl⟩, fun s kind f key h => ?_⟩
  have deaf : s.receives f = false := by unfold State.receives; simp [h]
  cases hk : RequestKind.ofCode kind.toNat with
  | none =>
    have : commandOf kind f key = .unknownRequestKind kind f := by unfold commandOf; rw [hk]
    rw [this]
    change execUnknownRequestKind kind f s = _
    unfold execUnknownRequestKind
    rw [hk, deaf]; rfl
  | some k =>
    obtain ⟨l, o, -, he, -⟩ := exec_commandOf k f key
    rw [commandOf_of_ofCode hk, he, State.request_of_not_receives k l o deaf]

/-- Settles O7. -/
theorem replyTransmission : Obligations.ReplyTransmission := fun s => by
  refine ⟨fun h => ?_, fun body rest h => ?_⟩
  · change execReplyTransmission s = _
    unfold execReplyTransmission; rw [h]
  · change execReplyTransmission s = _
    unfold execReplyTransmission; rw [h]; rfl

/-- Settles O8: the length test comes first, then the part state. -/
theorem requestTests : Obligations.RequestTests := by
  refine ⟨fun s kind f key hr hk => ?_, fun s k f key hr hf => ?_, fun s k f key hr hf hs h1 h2 h3 h4 h5 => ?_⟩
  · have command : commandOf kind f key = .unknownRequestKind kind f := by unfold commandOf; rw [hk]
    refine ⟨command, ?_⟩
    rw [command]
    change execUnknownRequestKind kind f s = _
    unfold execUnknownRequestKind
    rw [hk, hr]; rfl
  · obtain ⟨l, o, hl, he, -⟩ := exec_commandOf k f key
    rw [he, State.request_of_not_fits k o hr (by simpa using mt hl.1 hf)]
  · obtain ⟨l, o, hl, he, hb⟩ := exec_commandOf k f key
    have busy : k.answersInStoring = false := by cases k <;> simp_all [RequestKind.answersInStoring]
    obtain ⟨owner, rfl⟩ := hb busy (hl.2 hf)
    rw [he, State.request_of_fits k _ hr (hl.2 hf), State.unlessBusy_of_storing k owner hs]

/-! ### O9, O11, O13, O17, O18, O20: the requests that change what they name -/

namespace State

/-- A request with one byte of field goes to its owner with that byte. -/
theorem byteRequest_eq {s : State} {b : Byte} (k : RequestKind) (owner : Nat → State → State)
    (hr : s.receives [b] = true) : s.byteRequest k [b] owner = owner b.toNat s :=
  State.request_of_fits k _ hr rfl

/-- A request without fields, outside STORING, goes to its owner. -/
theorem plainRequest_eq {s : State} (k : RequestKind) (owner : State → State) (hr : s.receives [] = true)
    (hs : s.store.part ≠ .storing) : s.plainRequest k [] owner = owner s :=
  (State.request_of_fits k _ hr rfl).trans (State.unlessBusy_of_not_storing k owner hs)

/-- R187: the three outcomes of a report. -/
theorem report_disabled {c : Category} (o e : Nat) (d : List Byte) {s : State}
    (h : s.link.filters.getLsbD c.number = false) : s.report c o e d = s :=
  if_neg (by unfold State.reports; rw [h]; exact Bool.false_ne_true)

theorem report_queued {c : Category} (o e : Nat) (d : List Byte) {s : State} (h : s.link.filters.getLsbD c.number = true)
    (room : s.link.queue.length < 64) : s.report c o e d =
      { s with link := { s.link with
          nextSeq := s.link.nextSeq + 1
          queue := s.link.queue ++ [{ seq := s.link.nextSeq, time := s.now, category := c, object := o, event := e,
                                      detail := d }] } } := (if_pos h).trans (if_pos room)

theorem report_lost {c : Category} (o e : Nat) (d : List Byte) {s : State} (h : s.link.filters.getLsbD c.number = true)
    (full : 64 ≤ s.link.queue.length) : s.report c o e d =
      { s with link := { s.link with nextSeq := s.link.nextSeq + 1, lost := min 65535 (s.link.lost + 1) } } :=
  (if_pos h).trans (if_neg (Nat.not_lt.2 full))

/-- R191: a detail in 13 bytes, the unused ones 0. -/
theorem detailBytes_eq (d : List Byte) : detailBytes d = (List.range 13).map fun k => d.getD k 0 := by
  unfold detailBytes
  refine List.ext_getElem (by simp) fun k h1 h2 => ?_
  have hk : k < 13 := by simpa using h2
  rw [List.getElem_take, List.getElem_map, List.getElem_range, List.getElem_append]
  by_cases hd : k < d.length
  · simp [hd, List.getD]
  · rw [dif_neg hd, List.getElem_replicate, List.getD_eq_default _ _ (Nat.le_of_not_lt hd)]

end State

/-- Settles O9. -/
theorem reportsAndPolls : Obligations.ReportsAndPolls := by
  refine ⟨fun s c o e d => ⟨State.report_disabled o e d, State.report_queued o e d, State.report_lost o e d⟩, ?_⟩
  intro s b hr layout
  have bytes : layout = State.reportBytes := by
    funext r
    have category : byte r.category.number = (match r.category with
        | .lever => 0 | .lock => 1 | .track => 2 | .seq => 3 | .approach => 4
        | .sec => 5 | .bell => 6 | .handle => 7 | .fault => 8 | .part => 9 : Byte) := by cases r.category <;> rfl
    unfold State.reportBytes
    rw [category, State.detailBytes_eq, List.append_assoc]; rfl
  have poll : exec (.poll [b]) s = .next (s.poll b.toNat) := congrArg _ (State.byteRequest_eq .poll State.poll hr)
  refine ⟨fun r => by simp [layout, be16, be32], fun h1 h8 => ?_, fun h => ?_⟩
  · rw [poll, bytes]
    unfold State.poll
    rw [if_pos ⟨h1, h8⟩, State.accept_eq_answered]
    have left : s.link.queue.length - min b.toNat s.link.queue.length = s.link.queue.length - b.toNat := by omega
    unfold State.pollData; dsimp only
    rw [List.length_take, left]; rfl
  · rw [poll]
    unfold State.poll
    rw [if_neg (by omega), State.refuse_eq_answered]

/-- R154, R189: a number of a list, as its byte. -/
theorem contains_map_toNat (l : List Byte) {c : Nat} (hc : c < 256) : (l.map (·.toNat)).contains c = true ↔ byte c ∈ l := by
  have hb : (byte c).toNat = c := by unfold byte; rw [BitVec.toNat_ofNat]; exact Nat.mod_eq_of_lt hc
  rw [List.contains_iff_mem, List.mem_map]
  constructor
  · rintro ⟨b, hb', rfl⟩
    have : byte b.toNat = b := BitVec.eq_of_toNat_eq hb
    rwa [this]
  · exact fun h => ⟨_, h, hb⟩

/-- A set of codes with those of one list put in and those of another taken out, none standing in both. -/
theorem changeSet_bit (v : BitVec 16) (on off : List Byte) (apart : ¬∃ c ∈ on, c ∈ off) {c : Nat} (hc : c < 16) :
    (State.changeSet v (on.map (·.toNat)) (off.map (·.toNat))).getLsbD c =
      if byte c ∈ on then true else if byte c ∈ off then false else v.getLsbD c := by
  have h := changeSet_getLsbD v (on.map (·.toNat)) (off.map (·.toNat)) c
  rw [h]
  have hon := contains_map_toNat on (c := c) (by omega)
  have hoff := contains_map_toNat off (c := c) (by omega)
  by_cases h1 : byte c ∈ on
  · have h2 : byte c ∉ off := fun h2 => apart ⟨_, h1, h2⟩
    have c1 := hon.2 h1
    have c2 : (off.map (·.toNat)).contains c = false := by simpa using mt hoff.1 h2
    rw [c1, c2, if_pos h1]; simp [hc]
  · have c1 : (on.map (·.toNat)).contains c = false := by simpa using mt hon.1 h1
    rw [c1, if_neg h1]
    by_cases h2 : byte c ∈ off
    · rw [hoff.2 h2, if_pos h2]; simp
    · have c2 : (off.map (·.toNat)).contains c = false := by simpa using mt hoff.1 h2
      rw [c2, if_neg h2]; simp [hc]

/-- The two lists of a request, with their counts. -/
theorem twoLists_bytes {a b : List Byte} {s : State} (h : s.receives (byte a.length :: (a ++ byte b.length :: b)) = true) :
    State.twoLists (byte a.length :: (a ++ byte b.length :: b)) = some (a.map (·.toNat), b.map (·.toNat)) := by
  have short : (byte a.length :: (a ++ byte b.length :: b)).length + 1 ≤ 250 := by
    have := (Bool.and_eq_true_iff.1 h).1
    unfold fieldsOk at this
    exact of_decide_eq_true this
  simp only [List.length_cons, List.length_append] at short
  exact State.twoLists_eq_some.2 ⟨a, b, by omega, by omega, rfl, rfl, rfl⟩

/-- A value of two lists that is out of range, or one that stands in both. -/
theorem lists_any_ge (a b : List Byte) (n : Nat) :
    ((a.map (·.toNat) ++ b.map (·.toNat)).any fun c => decide (n ≤ c)) = true ↔ ∃ c ∈ a ++ b, n ≤ c.toNat := by
  rw [← List.map_append, List.any_map, List.any_eq_true]
  exact exists_congr fun c => and_congr_right fun _ => decide_eq_true_iff

theorem lists_any_both (a b : List Byte) :
    ((a.map (·.toNat)).any (b.map (·.toNat)).contains) = true ↔ ∃ c ∈ a, c ∈ b := by
  rw [List.any_map, List.any_eq_true]
  refine exists_congr fun c => and_congr_right fun _ => ?_
  have hb : byte c.toNat = c := BitVec.eq_of_toNat_eq (by
    unfold byte; rw [BitVec.toNat_ofNat]; exact Nat.mod_eq_of_lt c.isLt)
  have := contains_map_toNat b (c := c.toNat) c.isLt
  rw [hb] at this
  exact this

/-- Settles O11. -/
theorem setReporting : Obligations.SetReporting := by
  intro s on off f hr hs
  have taken : exec (.setReporting f) s = .next (s.setReporting (on.map (·.toNat)) (off.map (·.toNat))) := by
    change execSetReporting f s = _
    unfold execSetReporting
    rw [twoLists_bytes hr]
    exact congrArg _ ((State.request_of_fits _ _ hr rfl).trans (State.unlessBusy_of_not_storing _ _ hs))
  have bad : State.badCategories (on.map (·.toNat)) (off.map (·.toNat)) = true ↔
      (∃ c ∈ on ++ off, 10 ≤ c.toNat) ∨ (∃ c ∈ on, c ∈ off) ∨ (8 : Byte) ∈ off ∨ (9 : Byte) ∈ off := by
    unfold State.badCategories
    have h8 := contains_map_toNat off (c := 8) (by omega)
    have h9 := contains_map_toNat off (c := 9) (by omega)
    rw [Bool.or_eq_true, Bool.or_eq_true, Bool.or_eq_true, lists_any_ge, lists_any_both,
      show Category.fault.number = 8 from rfl, show Category.part.number = 9 from rfl, h8, h9, or_assoc, or_assoc]
    rfl
  refine ⟨fun h => ?_, fun h => ⟨State.changeSet s.link.filters (on.map (·.toNat)) (off.map (·.toNat)), fun c hc => ?_, ?_⟩⟩
  · rw [taken]
    unfold State.setReporting
    rw [if_pos (bad.2 h), State.refuse_eq_answered]
  · exact changeSet_bit _ on off (fun hb => h (.inr (.inl hb))) hc
  · rw [taken]
    unfold State.setReporting
    rw [if_neg (mt bad.1 h), State.accept_eq_answered]

/-- Settles O13. -/
theorem readRaw : Obligations.ReadRaw := by
  intro s b hr
  have taken : exec (.readRaw [b]) s = .next (s.readRaw b.toNat) := congrArg _ (State.byteRequest_eq .readRaw State.readRaw hr)
  refine ⟨fun h => ?_, fun h => ⟨Bank.put s.scanner.fresh (b.toNat + 1) false, ?_, fun c h1 h32 => ?_⟩⟩
  · rw [taken]
    unfold State.readRaw
    rw [if_neg (by omega), State.refuse_eq_answered]
  · rw [taken]
    unfold State.readRaw
    have same : byte b.toNat = b := BitVec.eq_of_toNat_eq (by
      unfold byte; rw [BitVec.toNat_ofNat]; exact Nat.mod_eq_of_lt b.isLt)
    rw [if_pos h, State.accept_eq_answered]
    unfold State.rawData flag
    rw [same]
  · rw [Bank.at_put]
    by_cases hc : c = b.toNat + 1
    · rw [if_pos ⟨hc, by omega, by omega⟩, if_pos hc]
    · rw [if_neg (fun hh => hc hh.1), if_neg hc]

/-- Settles O17. -/
theorem setMasks : Obligations.SetMasks := by
  intro s mask unmask f bad always hr hs
  have taken : exec (.setMasks f) s = .next (s.setMasks (mask.map (·.toNat)) (unmask.map (·.toNat))) := by
    change execSetMasks f s = _
    unfold execSetMasks
    rw [twoLists_bytes hr]
    exact congrArg _ ((State.request_of_fits _ _ hr rfl).trans (State.unlessBusy_of_not_storing _ _ hs))
  have isBad : State.badClasses (mask.map (·.toNat)) (unmask.map (·.toNat)) = true ↔ bad := by
    unfold State.badClasses
    rw [Bool.or_eq_true, lists_any_ge, lists_any_both]
  have isAlways : ((mask.map (·.toNat)).any fun c => !State.maskableCode c) = true ↔ always := by
    have one : ∀ n : Nat, n < 256 → ((∃ c ∈ mask, c.toNat = n) ↔ byte n ∈ mask) := fun n hn => by
      rw [← contains_map_toNat mask hn, List.contains_iff_mem, List.mem_map]
    have h1 := one 1 (by omega)
    have h3 := one 3 (by omega)
    have h13 := one 13 (by omega)
    have code : ∀ c : Byte, (!State.maskableCode c.toNat) = true ↔ c.toNat = 1 ∨ c.toNat = 3 ∨ c.toNat = 13 := fun c => by
      have : State.maskableCode c.toNat = (c.toNat != 1 && c.toNat != 3 && c.toNat != 13) := rfl
      rw [this]; simp only [Bool.not_eq_true', Bool.and_eq_false_iff, bne_eq_false_iff_eq, or_assoc]
    rw [List.any_map, List.any_eq_true]
    change (∃ c ∈ mask, (!State.maskableCode c.toNat) = true) ↔ byte 1 ∈ mask ∨ byte 3 ∈ mask ∨ byte 13 ∈ mask
    rw [← h1, ← h3, ← h13, ← exists_or, ← exists_or]
    exact exists_congr fun c => by rw [code, and_or_left, and_or_left]
  refine ⟨fun h => ?_, fun h ha => ?_, fun h ha =>
    ⟨State.changeSet s.faults.masked (mask.map (·.toNat)) (unmask.map (·.toNat)), fun c hc => ?_, ?_⟩⟩
  · rw [taken]
    unfold State.setMasks
    rw [if_pos (isBad.2 h), State.refuse_eq_answered]
  · rw [taken]
    unfold State.setMasks
    rw [if_neg (mt isBad.1 h), if_pos (isAlways.2 ha), State.refuse_eq_answered]
  · exact changeSet_bit _ mask unmask (fun hb => h (.inr hb)) hc
  · rw [taken]
    unfold State.setMasks; dsimp only
    rw [if_neg (mt isBad.1 h), if_neg (mt isAlways.1 ha), State.accept_eq_answered]
    refine congrArg (fun u => Host.Outcome.next (State.answered .setMasks .accepted [] u)) ?_
    split
    · rename_i hv; rw [hv]; rfl
    · rfl

/-- Settles O18. -/
theorem takeFaults : Obligations.TakeFaults := by
  intro s hr hs
  refine ⟨s.faults.entries.filter fun e => e.active || e.unmasked, ?_, List.filter_sublist, fun e he => ?_⟩
  · have taken : exec (.takeFaults []) s = .next (s.takeMasked.accept RequestKind.takeFaults.code s.faultsData) :=
      congrArg _ (State.plainRequest_eq .takeFaults _ hr hs)
    rw [taken, State.accept_eq_answered]; rfl
  · rw [List.mem_filter]
    cases e.active <;> cases e.unmasked <;> simp [he]

namespace State

/-- R174: a record that fits, with room in the staging area and without. -/
theorem stage_of_room {s : State} (room : s.store.staged.length < 160) (more : Bool) (r : Record) : s.stage more r =
    if more then { s with store := { s.store with staged := s.store.staged ++ [r] } }
    else verify { s with store := { s.store with staged := s.store.staged ++ [r] } } :=
  if_neg (show ¬Config.stagingSize ≤ s.store.staged.length from Nat.not_le.2 room)

theorem stage_of_full {s : State} (full : 160 ≤ s.store.staged.length) (more : Bool) (r : Record) : s.stage more r =
    State.report .part 0 7 [1, 161, LoadReason.tooMany.code]
      { s with store := { s.store with load := .rejected 161 .tooMany } } :=
  if_pos (show Config.stagingSize ≤ s.store.staged.length from full)

/-- R175: the outcome of a load. -/
theorem verify_of_none {s : State} (h : verifyLoad s.store.staged = none) : s.verify =
    State.report .part 0 7 (0 :: be16 (fingerprintOf s.store.staged))
      { s with store := { s.store with load := .verified (fingerprintOf s.store.staged) } } := by
  unfold State.verify; rw [h]; rfl

theorem verify_of_some {s : State} {i : Nat} {why : LoadReason} (h : verifyLoad s.store.staged = some (i, why)) :
    s.verify = State.report .part 0 7 [1, byte i, why.code]
      { s with store := { s.store with load := .rejected i why } } := by
  unfold State.verify; rw [h]; rfl

/-- R174: the tests of a LOAD RECORD, in the order of its table. -/
theorem loadRecord_of_opened {s : State} {more : Byte} {body : List Byte} {r : Record} (hl : s.store.load = .opened)
    (hp : parseRecord body = some r) : s.loadRecord more body =
      State.answered .loadRecord .accepted (s.stage (more != 0) r).loadData (s.stage (more != 0) r) := by
  unfold State.loadRecord; rw [if_pos hl, hp]; rfl

theorem loadRecord_of_unfit {s : State} (more : Byte) {body : List Byte} (hl : s.store.load = .opened)
    (hp : parseRecord body = none) : s.loadRecord more body = s.answered .loadRecord .badField [] := by
  unfold State.loadRecord; rw [if_pos hl, hp]; rfl

theorem loadRecord_of_not_opened {s : State} (more : Byte) (body : List Byte) (hl : s.store.load ≠ .opened) :
    s.loadRecord more body = s.answered .loadRecord .wrongState [] := if_neg hl

end State

/-- Settles O20. -/
theorem loadRequests : Obligations.LoadRequests := by
  refine ⟨fun s hr hs => ⟨?_, ?_⟩, fun s more body hr hs => ?_⟩
  · exact congrArg _ (State.plainRequest_eq .loadBegin _ hr hs)
  · exact congrArg _ (State.plainRequest_eq .loadAbandon _ hr hs)
  have taken : exec (.loadRecord (more :: body)) s = .next (s.loadRecord more body) := congrArg _
    ((State.request_of_fits _ _ hr rfl).trans (State.unlessBusy_of_not_storing _ _ hs))
  have last : more = 0 → (more != 0) = false := fun h => by simp [h]
  rw [taken]
  refine ⟨fun hl => ?_, fun hl hp => ?_, fun r hl hp hm hroom => ?_, fun r hl hp hm hroom hv => ?_,
    fun r i why hl hp hm hroom hv => ?_, fun r hl hp hfull => ?_⟩
  · rw [State.loadRecord_of_not_opened more body hl]
  · rw [State.loadRecord_of_unfit more hl hp]
  · have more : (more != 0) = true := by simpa using hm
    rw [State.loadRecord_of_opened hl hp, more, State.stage_of_room hroom, if_pos rfl]
  · rw [State.loadRecord_of_opened hl hp, last hm, State.stage_of_room hroom, if_neg Bool.false_ne_true,
      State.verify_of_none hv]
  · rw [State.loadRecord_of_opened hl hp, last hm, State.stage_of_room hroom, if_neg Bool.false_ne_true,
      State.verify_of_some hv]
  · rw [State.loadRecord_of_opened hl hp, State.stage_of_full hfull]

/-! ### O14, O15, O16: raises, orders, lamps and the alarm -/

/-- R155: the classes that are always unmasked. -/
theorem Supervisor.unmaskedFor_eq (c : FaultClass) (o : Nat) (f : Supervisor) : f.unmaskedFor c o =
    (c == .leverForced || c == .lockStuckFree || c == .store || !f.masked.getLsbD c.number ||
      (f.entryOf c o).any fun e => e.unmasked) := by
  unfold Supervisor.unmaskedFor
  cases c <;> rfl

/-- Settles O14: the branches of `Supervisor.entered`. -/
theorem raiseEntersTheList : Obligations.RaiseEntersTheList := by
  intro s c obj m u t new
  have hu : s.faults.unmaskedFor c obj = u := Supervisor.unmaskedFor_eq c obj s.faults
  have faults : t.faults = (s.faults.entered c obj s.now u m).sounded c s.now u := hu ▸ State.enterRaise_faults c obj m s
  have hnew : newEntry c obj s.now u m = new := rfl
  refine ⟨fun h => ?_, fun h hroom => ?_, fun before d after hes h hfull hbefore hd => ?_, fun h hfull hall => ?_,
    State.enterRaise_only c obj m s⟩
  · obtain ⟨e, he⟩ := Option.ne_none_iff_exists'.1 h
    rw [faults]
    unfold Supervisor.entered; rw [he]
    refine List.map_congr_left fun x _ => ?_
    by_cases hx : x.cls = c ∧ x.object = obj
    · rw [if_pos ((FaultEntry.is_iff c obj x).2 hx), if_pos hx, ← hx.1]; rfl
    · rw [if_neg (mt (FaultEntry.is_iff c obj x).1 hx), if_neg hx]
  · rw [faults]
    unfold Supervisor.entered; rw [h]; dsimp only; rw [if_pos hroom]; rfl
  · have found : s.faults.entries.find? (fun x => !x.active) = some d := by
      rw [hes, List.find?_append, List.find?_eq_none.2 (fun x hx => by simp [hbefore x hx])]
      simp [hd]
    have erased : s.faults.entries.eraseP (fun x => !x.active) = before ++ after := by
      rw [hes, List.eraseP_append_right _ (fun x hx => by simp [hbefore x hx]), List.eraseP_cons_of_pos (by simp [hd])]
    rw [faults]
    unfold Supervisor.entered; rw [h]; dsimp only; rw [if_neg (Nat.not_lt.2 hfull), found]
    exact ⟨by rw [← erased]; rfl, fun hp => by simp [hp]⟩
  · have none : s.faults.entries.find? (fun x => !x.active) = none :=
      List.find?_eq_none.2 (fun x hx => by simp [hall x hx])
    rw [faults]
    unfold Supervisor.entered; rw [h]; dsimp only; rw [if_neg (Nat.not_lt.2 hfull), none]
    exact ⟨rfl, rfl⟩

namespace State

/-- The owners' part of an order reaches the supervisor by ends alone. -/
theorem deliver_keeps {P : State → Prop} (endFault : ∀ o s, P s → P (s.endFault .lockDrive o))
    (rest : ∀ s t : State, t.faults = s.faults → P s → P t) (r : Order) (o : Nat) {s : State} (hs : P s) :
    P (s.deliver r o) := by
  have report : ∀ c o e d s, P s → P (s.report c o e d) := fun c o e d s => rest s _ (State.report_faults c o e d s)
  have evaluate : ∀ c s, P s → P (s.evaluate c) := fun c s hs =>
    State.evaluate_keeps report endFault (fun _ _ s => rest s _ rfl) c hs
  have entry : ∀ t w s, P s → P (s.entryHanded t w) := fun t w s hs => by
    refine forEach_inv (fun q u hu => ?_) _ s hs
    unfold State.entrySeq; split
    · exact hu
    · split
      · exact report _ _ _ _ _ (rest u _ rfl hu)
      · exact hu
  cases r with
  | frameCut =>
    simp only [State.deliver]
    unfold State.cutFrame; split
    · exact report _ _ _ _ _ (evaluate _ _ (rest s _ rfl hs))
    · exact hs
  | fail =>
    simp only [State.deliver]
    unfold State.failTrack; dsimp only; split
    · exact hs
    · exact report _ _ _ _ _ (rest s _ rfl hs)
    · exact entry _ _ _ (evaluate _ _ (report _ _ _ _ _ (rest s _ rfl hs)))
    · exact entry _ _ _ (report _ _ _ _ _ (rest s _ rfl hs))
  | freeze =>
    simp only [State.deliver]; split
    · exact hs
    · unfold State.freezeSection; split
      · exact hs
      · exact evaluate _ _ (report _ _ _ _ _ (rest s _ rfl hs))

/-- What the list of a raise keeps under the order it sends. -/
theorem raiseWith_keeps {P : State → Prop} (endFault : ∀ o s, P s → P (s.endFault .lockDrive o))
    (rest : ∀ s t : State, t.faults = s.faults → P s → P t) (register : ∀ r o s, P s → P (s.register r o)) (m : Bool)
    (c : FaultClass) (o : Nat) {s : State} (hs : P (s.enterRaise c o m)) : P (s.raiseWith m c o) := by
  unfold State.raiseWith; dsimp only; split
  · exact hs
  · split
    · exact deliver_keeps endFault rest _ _ (register _ _ _ hs)
    · exact hs

end State

/-- R159: an end touches neither the alarm nor the masks nor the orders. -/
theorem State.endFault_faults (c : FaultClass) (o : Nat) (s : State) : ∃ g : FaultEntry → FaultEntry,
    (∀ e, (g e).alarmPending = e.alarmPending ∧ (g e).cls = e.cls ∧ (g e).unmasked = e.unmasked ∧ (g e).object = e.object) ∧
    (s.endFault c o).faults = { s.faults with entries := s.faults.entries.map g } := by
  have self : s.faults = { s.faults with entries := s.faults.entries.map id } := by rw [List.map_id]
  unfold State.endFault; split
  · exact ⟨id, fun _ => ⟨rfl, rfl, rfl, rfl⟩, self⟩
  · split
    · refine ⟨_, fun e => ?_, State.report_faults _ _ _ _ _⟩
      split <;> exact ⟨rfl, rfl, rfl, rfl⟩
    · exact ⟨id, fun _ => ⟨rfl, rfl, rfl, rfl⟩, self⟩

theorem State.endFault_alarmSounds (c : FaultClass) (o : Nat) (s : State) :
    (s.endFault c o).alarmSounds = s.alarmSounds := by
  obtain ⟨g, hg, h⟩ := s.endFault_faults c o
  unfold State.alarmSounds; rw [h]; dsimp only
  rw [List.any_map, show (FaultEntry.alarmPending ∘ g) = FaultEntry.alarmPending from funext fun e => (hg e).1]

theorem State.endFault_shortAlarm (c : FaultClass) (o : Nat) (s : State) :
    (s.endFault c o).faults.shortAlarm = s.faults.shortAlarm := by
  obtain ⟨g, hg, h⟩ := s.endFault_faults c o
  rw [h]

theorem State.register_alarm (r : Order) (o : Nat) (s : State) : (s.register r o).alarmSounds = s.alarmSounds ∧
    (s.register r o).faults.shortAlarm = s.faults.shortAlarm := by cases r <;> exact ⟨rfl, rfl⟩

/-- R162: after a raise the alarm sounds as the list it left says. -/
theorem State.raiseWith_alarm (m : Bool) (c : FaultClass) (o : Nat) (s : State) :
    (s.raiseWith m c o).alarmSounds = (s.enterRaise c o m).alarmSounds ∧
    (s.raiseWith m c o).faults.shortAlarm = (s.enterRaise c o m).faults.shortAlarm := by
  refine State.raiseWith_keeps (P := fun u => u.alarmSounds = (s.enterRaise c o m).alarmSounds ∧
    u.faults.shortAlarm = (s.enterRaise c o m).faults.shortAlarm) (fun o u hu => ?_) (fun u v hv hu => ?_)
    (fun r o u hu => ?_) m c o ⟨rfl, rfl⟩
  · rw [State.endFault_alarmSounds, State.endFault_shortAlarm]; exact hu
  · unfold State.alarmSounds; rw [hv]; exact hu
  · rw [(u.register_alarm r o).1, (u.register_alarm r o).2]; exact hu

theorem FaultClass.isAlarm_iff (c : FaultClass) :
    c.isAlarm = true ↔ c ≠ .bellCrossed ∧ c ≠ .bellMisrepeat ∧ c ≠ .bellNotRepeated := by
  cases c <;> simp [FaultClass.isAlarm]

/-- R162: an unmasked raise of an alarm class leaves alarm pending, or the overflow flag with the alarm it carries. -/
theorem State.enterRaise_sounds {c : FaultClass} (o : Nat) (m : Bool) {s : State} (hu : s.faults.unmaskedFor c o = true)
    (hc : c.isAlarm = true) : (s.enterRaise c o m).alarmSounds = true := by
  have new : ∀ {e : FaultEntry} {es : List FaultEntry}, e ∈ es → e.alarmPending = true →
      es.any FaultEntry.alarmPending = true := fun he hp => List.any_eq_true.2 ⟨_, he, hp⟩
  have pending : (newEntry c o s.now true m).alarmPending = true := by simp [newEntry, hc]
  unfold State.alarmSounds
  rw [State.enterRaise_faults, hu]
  rw [Bool.or_eq_true, Bool.or_eq_true]
  unfold Supervisor.sounded Supervisor.entered
  split
  · rename_i e he
    refine .inl (.inl (new (List.mem_map.2 ⟨e, List.mem_of_find?_eq_some he, rfl⟩) ?_))
    have is := List.find?_some he
    obtain ⟨hcls, -⟩ := (FaultEntry.is_iff c o e).1 is
    rw [if_pos is]; simp [FaultEntry.recur, hcls, hc]
  · split
    · exact .inl (.inl (new (List.mem_append_right _ List.mem_cons_self) pending))
    · split
      · exact .inl (.inl (new (List.mem_append_right _ List.mem_cons_self) pending))
      · exact .inl (.inr (by simp [hc]))

/-- R161. -/
theorem State.lamp_spec (s : State) :
    (s.lamp = 0 ↔ s.faults.entries = [] ∧ s.faults.overflow = false) ∧
    (s.lamp = 2 ↔ ∃ e ∈ s.faults.entries, e.unmasked = true ∧ e.cls.isAlarm = false) ∧
    (s.lamp = 0 ∨ s.lamp = 1 ∨ s.lamp = 2) := by
  unfold State.lamp
  have dark : (s.faults.entries.isEmpty && !s.faults.overflow) = true ↔ s.faults.entries = [] ∧ s.faults.overflow = false := by
    simp
  have flashing : (s.faults.entries.any fun e => e.unmasked && !e.cls.isAlarm) = true ↔
      ∃ e ∈ s.faults.entries, e.unmasked = true ∧ e.cls.isAlarm = false := by simp
  rw [← dark, ← flashing]
  split
  · rename_i h
    obtain ⟨he, ho⟩ := dark.1 h
    simp [he, ho]
  · rename_i h
    split <;> rename_i g <;> simp [g, h]

/-- R162, R130. -/
theorem State.alarmSounds_iff (s : State) : s.alarmSounds = true ↔ (∃ e ∈ s.faults.entries, e.alarmPending = true) ∨
    (s.faults.overflow = true ∧ s.faults.overflowAlarm = true) ∨ s.faults.shortAlarm ≠ none := by
  unfold State.alarmSounds
  rw [Bool.or_eq_true, Bool.or_eq_true, List.any_eq_true, Bool.and_eq_true, or_assoc, Option.isSome_iff_ne_none]

theorem State.repeaterLamp_lit {s : State} {x : SectionId} {lit : Nat} (hf : s.sectionFitted x = true)
    (h : litLamp (s.sectn x).state = some lit) :
    s.repeaterLamp x lit = (if (s.sectn x).frozen then .flashing else .steady) ∧
    ∀ k, k ≠ lit → s.repeaterLamp x k = .dark := by
  unfold State.repeaterLamp
  rw [hf, h]
  refine ⟨by simp, fun k hk => ?_⟩
  have : ¬lit = k := fun he => hk he.symm
  simp [this]

/-- Settles O16. -/
theorem lampsAndAlarm : Obligations.LampsAndAlarm := by
  refine ⟨fun s => ?_, ?_, fun s x => ⟨fun h k => ?_, ?_⟩⟩
  · obtain ⟨dark, flashing, all⟩ := s.lamp_spec
    refine ⟨dark, flashing.trans (exists_congr fun e => and_congr_right fun _ => and_congr_right fun _ => ?_), all,
      s.alarmSounds_iff⟩
    have := FaultClass.isAlarm_iff e.cls
    cases hc : e.cls <;> simp [FaultClass.isAlarm]
  · intro s m c o t
    obtain ⟨sounds, short⟩ := s.raiseWith_alarm m c o
    have shortAlarm : (s.enterRaise c o m).faults.shortAlarm =
        if c = .heldRing ∧ s.faults.unmaskedFor c o = false then some (s.now + 5000) else s.faults.shortAlarm := by
      rw [State.enterRaise_faults]
      unfold Supervisor.sounded Supervisor.entered
      split
      · rfl
      · split
        · rfl
        · split <;> rfl
    refine ⟨fun hu h1 h2 h3 => ?_, fun hc hu => ?_, fun h => ?_, State.endFault_alarmSounds c o s⟩
    · rw [sounds]
      exact State.enterRaise_sounds o m hu ((FaultClass.isAlarm_iff c).2 ⟨h1, h2, h3⟩)
    · have rings : t.faults.shortAlarm = some (s.now + 5000) := by rw [short, shortAlarm, if_pos ⟨hc, hu⟩]
      exact ⟨rings, t.alarmSounds_iff.2 (.inr (.inr (by rw [rings]; simp)))⟩
    · rw [short, shortAlarm, if_neg h]
  · unfold State.repeaterLamp
    rcases h with h | h
    · rw [h]; rfl
    · rw [h]; simp [litLamp]
  · intro b hf hb lit
    refine State.repeaterLamp_lit hf ?_
    rw [hb]; cases b <;> rfl

/-! #### O15 -/

/-- R80: the breaks of sequences that an entry brings reach no circuit. -/
theorem State.entryHanded_tracks (t : Nat) (w : BreakCause) (s : State) : (s.entryHanded t w).tracks = s.tracks := by
  refine forEach_inv (P := fun u => u.tracks = s.tracks) (fun q u hu => ?_) _ s rfl
  unfold State.entrySeq; split
  · exact hu
  · split
    · exact (State.report_tracks _ _ _ _ _).trans hu
    · exact hu

theorem State.evaluate_tracks (c : LockCause) (s : State) : (s.evaluate c).tracks = s.tracks := by
  obtain ⟨_, _, _, h⟩ := s.evaluate_only c; rw [h]

theorem State.evaluate_sections (c : LockCause) (s : State) : (s.evaluate c).sections = s.sections := by
  obtain ⟨_, _, _, h⟩ := s.evaluate_only c; rw [h]

/-- R61: what the fail order makes of its circuit, and of no other. -/
theorem State.failTrack_track (t n : Nat) (s : State) : (s.failTrack t).track n =
    if n = t ∧ 1 ≤ t ∧ t ≤ 24 then
      (if (s.track t).state = .failed then s.track t
       else if (s.track t).state = .outOfUse then (s.track t).markedBy else (s.track t).failedBy)
    else s.track n := by
  have put : ∀ (f : TrackState → TrackState) (u : State), u.tracks = (s.updTrack t f).tracks →
      u.track n = if n = t ∧ 1 ≤ t ∧ t ≤ 24 then f (s.track t) else s.track n := fun f u hu => by
    rw [← State.track_updTrack]; unfold State.track; rw [hu]
  unfold State.failTrack; dsimp only; split
  · rename_i h
    rw [if_pos h]
    split
    · rename_i hn; rw [hn.1]
    · rfl
  · rename_i h
    exact (put TrackState.markedBy _ (State.report_tracks _ _ _ _ _)).trans (by rw [h]; rfl)
  · rename_i h
    exact (put TrackState.failedBy _ ((State.entryHanded_tracks _ _ _).trans ((State.evaluate_tracks _ _).trans
      (State.report_tracks _ _ _ _ _)))).trans (by rw [h]; rfl)
  · rename_i h
    exact (put TrackState.failedBy _ ((State.entryHanded_tracks _ _ _).trans (State.report_tracks _ _ _ _ _))).trans
      (by rw [h]; rfl)

/-- R144: what the freeze order makes of its section, and of no other. -/
theorem State.freezeSection_sectn (x y : SectionId) (s : State) :
    (s.freezeSection x).sectn y = if y = x then (s.sectn x).frozenBy else s.sectn y := by
  unfold State.freezeSection; split
  · rename_i h
    split
    · subst y; unfold SectionState.frozenBy; rw [← h]
    · rfl
  · have : ∀ u : State, u.sections = (s.updSect x SectionState.frozenBy).sections →
        u.sectn y = (s.updSect x SectionState.frozenBy).sectn y := fun u hu => by unfold State.sectn; rw [hu]
    exact (this _ ((State.evaluate_sections _ _).trans (State.report_sections _ _ _ _ _))).trans (State.sectn_updSect _ _ _ _)

theorem State.cutFrame_supplyOn (s : State) : s.cutFrame.frame.supplyOn = false := by
  unfold State.cutFrame; split
  · rw [State.report_frame, State.evaluate_supplyOn]
  · rename_i h; simpa using h

/-- R156: a raise of an order class that is unmasked, in its three parts. -/
theorem State.raiseWith_of_order {m : Bool} {c : FaultClass} {o : Nat} {s : State} {r : Order} (hr : c.order = some r)
    (hu : s.faults.unmaskedFor c o = true) :
    s.raiseWith m c o = ((s.enterRaise c o m).register r o).deliver r o := by
  unfold State.raiseWith; dsimp only; rw [hr, hu]; rfl

/-- R156: the order of the register stands while its owner takes it. -/
theorem State.deliver_register (r : Order) (o : Nat) (s : State) : (s.deliver r o).faults.frameCut = s.faults.frameCut ∧
    (s.deliver r o).faults.failedSet = s.faults.failedSet ∧ (s.deliver r o).faults.frozenSet = s.faults.frozenSet := by
  refine State.deliver_keeps (P := fun u => u.faults.frameCut = s.faults.frameCut ∧
    u.faults.failedSet = s.faults.failedSet ∧ u.faults.frozenSet = s.faults.frozenSet) (fun o u hu => ?_)
    (fun u v hv hu => by rw [hv]; exact hu) r o ⟨rfl, rfl, rfl⟩
  obtain ⟨g, -, h⟩ := u.endFault_faults .lockDrive o
  rw [h]; exact hu

theorem State.enterRaise_track (c : FaultClass) (o : Nat) (m : Bool) (n : Nat) (s : State) :
    (s.enterRaise c o m).track n = s.track n := by
  obtain ⟨_, _, h⟩ := State.enterRaise_only c o m s; rw [h]; rfl

/-- Settles O15. -/
theorem raiseOrders : Obligations.RaiseOrders := by
  refine fun s m => ⟨fun c n hc => ?_, fun c n hc h1 h24 hu => ?_, fun c x hc hu => ?_, fun c n h => ?_⟩
  · have hr : c.order = some .frameCut := by rcases hc with rfl | rfl <;> rfl
    rw [State.raiseWith_of_order hr (State.unmaskedFor_of_frameCut hr _ _)]
    exact ⟨State.cutFrame_supplyOn _, (State.deliver_register .frameCut n _).1⟩
  · have hr : c.order = some .fail := by rcases hc with rfl | rfl <;> rfl
    rw [State.raiseWith_of_order hr hu]
    have track : (((s.enterRaise c n m).register .fail n).deliver .fail n).track n = _ :=
      State.failTrack_track n n ((s.enterRaise c n m).register .fail n)
    have before : ((s.enterRaise c n m).register .fail n).track n = s.track n := State.enterRaise_track c n m n s
    rw [track, before, if_pos ⟨rfl, h1, h24⟩, (State.deliver_register .fail n _).2.1]
    refine ⟨?_, fun hf => ?_, fun ho => ?_⟩
    · change ((s.enterRaise c n m).faults.failedSet ||| 1#24 <<< (n - 1)).getLsbD (n - 1) = true
      rw [bit_or_shift _ _ _ (by omega)]; simp
    · rw [if_neg hf]
      split <;> rfl
    · rw [if_neg ho]
      split
      · assumption
      · rfl
  · have hr : c.order = some .freeze := by rcases hc with rfl | rfl <;> rfl
    rw [State.raiseWith_of_order hr hu, (State.deliver_register .freeze _ _).2.2]
    have code : secOfCode (secCode x).toNat = some x := by cases x <;> rfl
    refine ⟨?_, ?_⟩
    · simp only [State.deliver, code]
      rw [State.freezeSection_sectn, if_pos rfl]; rfl
    · change ((s.enterRaise c (secCode x).toNat m).faults.frozenSet ||| 1#4 <<< (secCode x).toNat).getLsbD _ = true
      rw [bit_or_shift _ _ _ (by cases x <;> decide)]; simp
  · have same : s.raiseWith m c n = s.enterRaise c n m := by
      unfold State.raiseWith; dsimp only
      rcases h with h | h
      · rw [h]
      · rw [h]; split <;> rfl
    rw [same]; exact State.enterRaise_only c n m s

/-- Settles O55: at reset there is no table, every lock stands at HELD, every list is empty and every bank at its
default. -/
theorem resetIsLawful : Obligations.ResetIsLawful := by
  have lever : ∀ n, State.reset.lever n = default := Bank.at_replicate rfl
  have bell : ∀ x, State.reset.bell x = default := fun x => Bank.at_replicate rfl _
  have sect : ∀ x, State.reset.sectn x = default := fun x => Bank.at_replicate rfl _
  refine ⟨State.verdictsFresh_of_noTable rfl, State.locksLawful_of_held rfl fun n _ => by rw [lever]; rfl, fun e he => ?_,
    ⟨rfl, fun x => ?_, fun t _ _ hf => ?_⟩, fun x => ?_, fun x => ?_, fun t rec h => ?_, fun t rec h => ?_, fun q rec h => ?_,
    fun a rec h => ?_, ⟨Nat.zero_le _, List.Pairwise.nil, fun e he => ?_⟩, masksAtPower, ⟨Nat.zero_le _, Nat.zero_le _,
      filtersAtPower.1, filtersAtPower.2⟩, Nat.zero_le _, fun _ => rfl⟩
  · cases he
  · rw [sect]; simp [State.reset]; rfl
  · cases hf
  · rw [sect]; rfl
  · rw [bell]
    refine ⟨.inl rfl, fun _ => ⟨rfl, rfl⟩, ?_, ?_⟩ <;> (intro c h; cases h)
  · cases h
  · cases h
  · cases h
  · cases h
  · cases he

/-! ### What the list shows of a condition (R157 to R160) -/

/-- An entry after an end of a class and an object. -/
def FaultEntry.endedBy (c : FaultClass) (o : Nat) (e : FaultEntry) : FaultEntry :=
  if e.is c o then { e with active := false } else e

theorem FaultEntry.endedBy_is (c d : FaultClass) (o p : Nat) (e : FaultEntry) : (e.endedBy c o).is d p = e.is d p := by
  unfold FaultEntry.endedBy; split <;> rfl

theorem FaultEntry.endedBy_of_inactive {c : FaultClass} {o : Nat} {e : FaultEntry} (h : e.active = false) :
    e.endedBy c o = e := by
  unfold FaultEntry.endedBy; split
  · rw [← h]
  · rfl

theorem FaultEntry.endedBy_of_other {c d : FaultClass} {o p : Nat} {e : FaultEntry} (he : e.is d p = true)
    (h : ¬(d = c ∧ p = o)) : e.endedBy c o = e := by
  unfold FaultEntry.endedBy
  rw [if_neg]
  intro hc
  obtain ⟨h1, h2⟩ := (FaultEntry.is_iff c o e).1 hc
  obtain ⟨h3, h4⟩ := (FaultEntry.is_iff d p e).1 he
  exact h ⟨h3.symm.trans h1, h4.symm.trans h2⟩

namespace State

/-- R159: the entry of a class and an object after an end. -/
theorem endFault_entryOf (c d : FaultClass) (o p : Nat) (s : State) :
    (s.endFault c o).faults.entryOf d p = (s.faults.entryOf d p).map (FaultEntry.endedBy c o) := by
  have stands : (∀ e, s.faults.entryOf c o = some e → e.active = false) →
      s.faults.entryOf d p = (s.faults.entryOf d p).map (FaultEntry.endedBy c o) := fun h => by
    cases he : s.faults.entryOf d p with
    | none => rfl
    | some e =>
      by_cases same : d = c ∧ p = o
      · obtain ⟨rfl, rfl⟩ := same
        rw [Option.map_some, FaultEntry.endedBy_of_inactive (h e he)]
      · rw [Option.map_some, FaultEntry.endedBy_of_other (List.find?_some he) same]
  unfold State.endFault; split
  · rename_i h
    exact stands fun e he => by rw [h] at he; cases he
  · rename_i e he
    split
    · rw [State.report_faults]
      change (s.faults.entries.map (FaultEntry.endedBy c o)).find? (FaultEntry.is d p) = _
      rw [List.find?_map]
      rw [show FaultEntry.is d p ∘ FaultEntry.endedBy c o = FaultEntry.is d p from
        funext (FaultEntry.endedBy_is c d o p)]
      rfl
    · rename_i ha
      exact stands fun f hf => by
        rw [he] at hf; cases hf; simpa using ha

theorem endFault_over (c : FaultClass) (o : Nat) (s : State) : (s.endFault c o).faultOver c o := by
  intro e he
  rw [endFault_entryOf] at he
  obtain ⟨f, hf, rfl⟩ := Option.map_eq_some_iff.1 he
  unfold FaultEntry.endedBy
  rw [if_pos (List.find?_some hf)]

/-- R159: an end makes no entry ACTIVE. -/
theorem endFault_keeps_over {d : FaultClass} {p : Nat} (c : FaultClass) (o : Nat) {s : State} (h : s.faultOver d p) :
    (s.endFault c o).faultOver d p := by
  intro e he
  rw [endFault_entryOf] at he
  obtain ⟨f, hf, rfl⟩ := Option.map_eq_some_iff.1 he
  rw [FaultEntry.endedBy_of_inactive (h f hf)]
  exact h f hf

theorem endIf_over {b : Bool} (c : FaultClass) (o : Nat) {s : State} (h : b = false → s.faultOver c o) :
    (s.endIf b c o).faultOver c o := by
  cases b with
  | true => exact endFault_over c o s
  | false => exact h rfl

theorem endIf_keeps_over {d : FaultClass} {p : Nat} (b : Bool) (c : FaultClass) (o : Nat) {s : State} (h : s.faultOver d p) :
    (s.endIf b c o).faultOver d p := ite_keeps (P := State.faultOver d p) (endFault_keeps_over c o h) h

theorem faultOver_congr {c : FaultClass} {o : Nat} {s t : State} (h : t.faults = s.faults) :
    t.faultOver c o ↔ s.faultOver c o := by unfold State.faultOver; rw [h]

theorem faultShown_congr {c : FaultClass} {o : Nat} {s t : State} (h : t.faults = s.faults) :
    t.faultShown c o ↔ s.faultShown c o := by unfold State.faultShown; rw [h]

theorem report_faultOver {c : FaultClass} {o : Nat} (k : Category) (n e : Nat) (d : List Byte) (s : State) :
    (s.report k n e d).faultOver c o ↔ s.faultOver c o := faultOver_congr (State.report_faults _ _ _ _ _)

theorem report_faultShown {c : FaultClass} {o : Nat} (k : Category) (n e : Nat) (d : List Byte) (s : State) :
    (s.report k n e d).faultShown c o ↔ s.faultShown c o := faultShown_congr (State.report_faults _ _ _ _ _)

/-- R159: an end of another condition leaves an ACTIVE entry. -/
theorem endFault_keeps_shown {c d : FaultClass} {o p : Nat} (other : ¬(d = c ∧ p = o)) {s : State}
    (h : s.faultShown d p) : (s.endFault c o).faultShown d p := by
  unfold State.endFault; split
  · exact h
  · split
    · rw [report_faultShown]
      rcases h with ⟨e, he, rfl, rfl, ha⟩ | ho
      · refine .inl ⟨e, List.mem_map.2 ⟨e, he, ?_⟩, rfl, rfl, ha⟩
        exact FaultEntry.endedBy_of_other ((FaultEntry.is_iff _ _ e).2 ⟨rfl, rfl⟩) other
      · exact .inr ho
    · exact h

end State

/-- A raise leaves every ACTIVE entry but its own, which a momentary one ends (R152, R157, R158). -/
theorem Supervisor.entered_keeps_active {c : FaultClass} {o : Nat} {now : Time} {u m : Bool} {f : Supervisor} {e : FaultEntry}
    (he : e ∈ f.entries) (ha : e.active = true) (h : m = true → ¬(e.cls = c ∧ e.object = o)) :
    ∃ x ∈ (f.entered c o now u m).entries, x.cls = e.cls ∧ x.object = e.object ∧ x.active = true := by
  unfold Supervisor.entered; split
  · refine ⟨_, List.mem_map.2 ⟨e, he, rfl⟩, ?_⟩
    split
    · rename_i is
      refine ⟨rfl, rfl, ?_⟩
      cases m with
      | false => rfl
      | true => exact absurd ((FaultEntry.is_iff c o e).1 is) (h rfl)
    · exact ⟨rfl, rfl, ha⟩
  · split
    · exact ⟨e, List.mem_append_left _ he, rfl, rfl, ha⟩
    · split
      · refine ⟨e, List.mem_append_left _ ((List.mem_eraseP_of_neg ?_).2 he), rfl, rfl, ha⟩
        simp [ha]
      · exact ⟨e, he, rfl, rfl, ha⟩

theorem Supervisor.entered_keeps_overflow {c : FaultClass} {o : Nat} {now : Time} {u m : Bool} {f : Supervisor}
    (h : f.overflow = true) : (f.entered c o now u m).overflow = true := by
  unfold Supervisor.entered; split
  · exact h
  · split
    · exact h
    · split
      · simp [h]
      · rfl

/-- R157, R158, R160: a raise that stands is shown. -/
theorem Supervisor.entered_shows (c : FaultClass) (o : Nat) (now : Time) (u m : Bool) (f : Supervisor) :
    (∃ x ∈ (f.entered c o now u m).entries, x.cls = c ∧ x.object = o ∧ x.active = !m) ∨
    (f.entered c o now u m).overflow = true := by
  unfold Supervisor.entered; split
  · rename_i e he
    obtain ⟨hc, ho⟩ := (FaultEntry.is_iff c o e).1 (List.find?_some he)
    refine .inl ⟨_, List.mem_map.2 ⟨e, List.mem_of_find?_eq_some he, rfl⟩, ?_⟩
    rw [if_pos (List.find?_some he)]
    exact ⟨hc, ho, rfl⟩
  · split
    · exact .inl ⟨_, List.mem_append_right _ List.mem_cons_self, rfl, rfl, rfl⟩
    · split
      · exact .inl ⟨_, List.mem_append_right _ List.mem_cons_self, rfl, rfl, rfl⟩
      · exact .inr rfl

/-- R152: of a raise handed with its end no ACTIVE entry is left. -/
theorem Supervisor.entered_over (c : FaultClass) (o : Nat) (now : Time) (u : Bool) (f : Supervisor) {e : FaultEntry}
    (he : (f.entered c o now u true).entryOf c o = some e) : e.active = false := by
  have new : ∀ {es : List FaultEntry}, (∀ x ∈ es, x ∈ f.entries) → f.entryOf c o = none →
      (es ++ [newEntry c o now u true]).find? (FaultEntry.is c o) = some e → e.active = false := fun hes hn he => by
    rw [List.find?_append, List.find?_eq_none.2 fun x hx => List.find?_eq_none.1 hn x (hes x hx)] at he
    have := List.mem_of_find?_eq_some he
    rw [List.mem_singleton.1 this]; rfl
  unfold Supervisor.entered at he; split at he
  · have is : FaultEntry.is c o e = true := List.find?_some he
    obtain ⟨x, -, rfl⟩ := List.mem_map.1 (List.mem_of_find?_eq_some he)
    split at is <;> rename_i h
    · rw [if_pos h]; rfl
    · exact absurd is h
  · rename_i hn
    split at he
    · exact new (fun _ => id) hn he
    · split at he
      · exact new (fun _ => List.mem_of_mem_eraseP) hn he
      · have found : f.entryOf c o = some e := he
        rw [hn] at found; cases found

namespace State

theorem enterRaise_shown (c : FaultClass) (o : Nat) (s : State) : (s.enterRaise c o false).faultShown c o := by
  unfold State.faultShown; rw [State.enterRaise_faults]
  exact Supervisor.entered_shows _ _ _ _ _ _

/-- R157, R158, R160: a raise leaves an entry or the overflow flag. -/
theorem enterRaise_entered (c : FaultClass) (o : Nat) (m : Bool) (s : State) :
    (∃ e ∈ (s.enterRaise c o m).faults.entries, e.cls = c ∧ e.object = o) ∨ (s.enterRaise c o m).faults.overflow = true := by
  rw [State.enterRaise_faults]
  refine (Supervisor.entered_shows c o s.now (s.faults.unmaskedFor c o) m s.faults).imp_left ?_
  rintro ⟨e, he, hc, ho, -⟩
  exact ⟨e, he, hc, ho⟩

theorem enterRaise_over (c : FaultClass) (o : Nat) (s : State) : (s.enterRaise c o true).faultOver c o := by
  unfold State.faultOver; rw [State.enterRaise_faults]
  exact fun e he => Supervisor.entered_over c o _ _ _ he

theorem enterRaise_keeps_shown {c d : FaultClass} {o p : Nat} {m : Bool} {s : State} (h : m = true → ¬(d = c ∧ p = o))
    (hs : s.faultShown d p) : (s.enterRaise c o m).faultShown d p := by
  unfold State.faultShown at hs ⊢; rw [State.enterRaise_faults]
  rcases hs with ⟨e, he, rfl, rfl, ha⟩ | ho
  · exact .inl (Supervisor.entered_keeps_active he ha h)
  · exact .inr (Supervisor.entered_keeps_overflow ho)

/-- What a raise shows, its order leaves shown: an order ends no condition but LOCK_DRIVE. -/
theorem raiseWith_keeps_shown {c d : FaultClass} {o p : Nat} {m : Bool} {s : State} (hd : d ≠ .lockDrive ∨ c.order = none)
    (h : (s.enterRaise c o m).faultShown d p) : (s.raiseWith m c o).faultShown d p := by
  by_cases hn : c.order = none
  · unfold State.raiseWith; rw [hn]; exact h
  · exact State.raiseWith_keeps (P := State.faultShown d p)
      (fun _ _ hu => endFault_keeps_shown (fun hc => (hd.resolve_right hn) hc.1) hu)
      (fun _ _ hv hu => (faultShown_congr hv).2 hu) (fun r _ _ hu => by cases r <;> exact hu) m c o h

theorem raise_shown (c : FaultClass) (o : Nat) (s : State) : (s.raise c o).faultShown c o := by
  refine raiseWith_keeps_shown ?_ (enterRaise_shown c o s)
  cases c <;> first | exact .inr rfl | exact .inl (by decide)

theorem raiseWith_keeps_over {c d : FaultClass} {o p : Nat} {m : Bool} {s : State}
    (h : (s.enterRaise c o m).faultOver d p) : (s.raiseWith m c o).faultOver d p :=
  State.raiseWith_keeps (P := State.faultOver d p) (fun _ _ hu => endFault_keeps_over _ _ hu)
    (fun _ _ hv hu => (faultOver_congr hv).2 hu) (fun r _ _ hu => by cases r <;> exact hu) m c o h

theorem raiseAndEnd_over (c : FaultClass) (o : Nat) (s : State) : (s.raiseAndEnd c o).faultOver c o :=
  raiseWith_keeps_over (enterRaise_over c o s)

/-- R30: an evaluation raises nothing. -/
theorem evaluate_keeps_over {c : FaultClass} {o : Nat} (cause : LockCause) {s : State} (h : s.faultOver c o) :
    (s.evaluate cause).faultOver c o :=
  State.evaluate_keeps (P := State.faultOver c o) (fun _ _ _ _ _ hu => (report_faultOver _ _ _ _ _).2 hu)
    (fun _ _ hu => endFault_keeps_over _ _ hu) (fun _ _ _ hu => hu) cause h

/-- R31: an evaluation ends no condition but LOCK_DRIVE. -/
theorem evaluate_keeps_shown {c : FaultClass} {o : Nat} (cause : LockCause) {s : State} (hc : c ≠ .lockDrive)
    (h : s.faultShown c o) : (s.evaluate cause).faultShown c o :=
  State.evaluate_keeps (P := State.faultShown c o) (fun _ _ _ _ _ hu => (report_faultShown _ _ _ _ _).2 hu)
    (fun _ _ hu => endFault_keeps_shown (fun h => hc h.1) hu) (fun _ _ _ hu => hu) cause h

end State

/-! ### O27: terms, lists and verdicts -/

theorem secOfCode_toNat (b : Byte) (x : SectionId) : secOfCode b.toNat = some x ↔ b = secCode x := by
  have code : ∀ n, secOfCode n = some x → n = (secCode x).toNat := fun n h => by
    unfold secOfCode at h; split at h <;> cases h <;> rfl
  refine ⟨fun h => BitVec.eq_of_toNat_eq (code _ h), fun h => ?_⟩
  subst h; cases x <;> rfl

namespace State

theorem leverFitted_iff (s : State) (n : Nat) : s.leverFitted n = true ↔ ∃ rec, s.leverRec n = some rec :=
  Option.isSome_iff_exists

theorem trackFitted_iff (s : State) (n : Nat) : s.trackFitted n = true ↔ ∃ rec, s.trackRec n = some rec :=
  Option.isSome_iff_exists

theorem sectionFitted_iff (s : State) (x : SectionId) : s.sectionFitted x = true ↔ ∃ rec, s.sectionRec x = some rec :=
  Option.isSome_iff_exists

theorem approachFitted_iff (s : State) (a : Nat) : s.approachFitted a = true ↔ ∃ rec, s.approachRec a = some rec :=
  Option.isSome_iff_exists

theorem seqFitted_iff (s : State) (q : Nat) : s.seqFitted q = true ↔ ∃ rec, s.seqRec q = some rec :=
  Option.isSome_iff_exists

/-- R29: a lever carries a lock as its record's flag says. -/
theorem hasLock_iff (s : State) (n : Nat) : s.hasLock n = true ↔
    ∃ rec, s.leverRec n = some rec ∧ rec.flags.getLsbD 0 = true := by
  unfold State.hasLock LeverRec.lockFitted
  cases s.leverRec n <;> simp

/-! #### R9, R10 -/

theorem firstUnsatisfied_eq_none (s : State) (ts : List Term) :
    ∀ i, s.firstUnsatisfied i ts = none ↔ ∀ t ∈ ts, s.termSatisfied t = true := by
  induction ts with
  | nil => exact fun i => ⟨fun _ _ h => (nomatch h), fun _ => rfl⟩
  | cons t ts ih =>
    intro i
    unfold State.firstUnsatisfied; split
    · rename_i ht
      rw [ih, List.forall_mem_cons]
      exact ⟨fun h => ⟨ht, h⟩, And.right⟩
    · rename_i ht
      refine ⟨fun h => (nomatch h), fun h => absurd (h t List.mem_cons_self) ht⟩

theorem firstUnsatisfied_eq_some {s : State} {ts : List Term} : ∀ {i j : Nat}, s.firstUnsatisfied i ts = some j →
    ∃ before t after, ts = before ++ t :: after ∧ j = i + before.length ∧ s.termSatisfied t = false ∧
      ∀ u ∈ before, s.termSatisfied u = true := by
  induction ts with
  | nil => intro i j h; cases h
  | cons t ts ih =>
    intro i j h
    unfold State.firstUnsatisfied at h; split at h
    · rename_i ht
      obtain ⟨before, u, after, rfl, rfl, hu, hb⟩ := ih h
      exact ⟨t :: before, u, after, rfl, by simp; omega, hu, List.forall_mem_cons.2 ⟨ht, hb⟩⟩
    · rename_i ht
      cases h
      exact ⟨[], t, ts, rfl, rfl, by simpa using ht, fun _ h => by cases h⟩

theorem termSatisfied_iff (s : State) (t : Term) : s.termSatisfied t = true ↔
    s.codeHolds t.mainKind t.mainOperand = true ∨
      (t.whenKind ≠ absent ∧ s.codeHolds t.whenKind t.whenOperand = false) := by
  unfold State.termSatisfied State.whenApplies; simp

/-! #### R5 to R8 -/

/-- A condition of a section's record, for the section its operand names. -/
theorem sectionCondition_iff (b : Byte) (p : SectionId → Bool) :
    (match secOfCode b.toNat with
      | none => false
      | some y => p y) = true ↔ ∃ x, b = secCode x ∧ p x = true := by
  constructor
  · intro h
    split at h
    · cases h
    · rename_i x hx; exact ⟨x, (secOfCode_toNat b x).1 hx, h⟩
  · rintro ⟨x, hx, hp⟩
    rw [(secOfCode_toNat b x).2 hx]; exact hp

theorem codeHolds_lever (s : State) (b : Byte) :
    (s.codeHolds 0 b = true ↔ (∃ rec, s.leverRec b.toNat = some rec) ∧ (s.lever b.toNat).position = .normal) ∧
    (s.codeHolds 1 b = true ↔ (∃ rec, s.leverRec b.toNat = some rec) ∧ (s.lever b.toNat).position = .reverse) := by
  simp only [← leverFitted_iff]
  exact ⟨by simp [State.codeHolds, ConditionKind.ofCode, State.conditionHolds],
    by simp [State.codeHolds, ConditionKind.ofCode, State.conditionHolds]⟩

theorem codeHolds_track (s : State) (b : Byte) :
    (s.codeHolds 2 b = true ↔ (∃ rec, s.trackRec b.toNat = some rec) ∧ (s.track b.toNat).state = .clear) ∧
    (s.codeHolds 3 b = true ↔ s.codeHolds 2 b = false) := by
  simp only [← trackFitted_iff]
  refine ⟨by simp [State.codeHolds, ConditionKind.ofCode, State.conditionHolds], ?_⟩
  rw [show s.codeHolds 3 b = !s.codeHolds 2 b from rfl, Bool.not_eq_true']

theorem codeHolds_section (s : State) (b : Byte) :
    (s.codeHolds 4 b = true ↔ ∃ x rec, b = secCode x ∧ s.sectionRec x = some rec ∧
      (s.sectn x).state = some .clearOut ∧ (s.sectn x).releaseUsed = false ∧ (s.sectn x).obstruction = false ∧
      (s.sectn x).frozen = false) ∧
    (s.codeHolds 5 b = true ↔ ∃ x rec, b = secCode x ∧ s.sectionRec x = some rec ∧
      (s.sectn x).state = some .blocked ∧ (s.sectn x).frozen = false) := by
  constructor
  · refine (sectionCondition_iff b _).trans (exists_congr fun x => ?_)
    simp only [Bool.and_eq_true, sectionFitted_iff, beq_iff_eq, Bool.not_eq_true']
    constructor
    · rintro ⟨hb, ⟨⟨⟨⟨rec, hr⟩, h1⟩, h2⟩, h3⟩, h4⟩; exact ⟨rec, hb, hr, h1, h2, h3, h4⟩
    · rintro ⟨rec, hb, hr, h1, h2, h3, h4⟩; exact ⟨hb, ⟨⟨⟨⟨rec, hr⟩, h1⟩, h2⟩, h3⟩, h4⟩
  · refine (sectionCondition_iff b _).trans (exists_congr fun x => ?_)
    simp only [Bool.and_eq_true, sectionFitted_iff, beq_iff_eq, Bool.not_eq_true']
    constructor
    · rintro ⟨hb, ⟨⟨rec, hr⟩, h1⟩, h2⟩; exact ⟨rec, hb, hr, h1, h2⟩
    · rintro ⟨rec, hb, hr, h1, h2⟩; exact ⟨hb, ⟨⟨rec, hr⟩, h1⟩, h2⟩

theorem codeHolds_rest (s : State) (b : Byte) :
    (s.codeHolds 6 b = true ↔ (∃ rec, s.approachRec b.toNat = some rec) ∧ (s.lockn b.toNat).phase = .free) ∧
    (s.codeHolds 7 b = true ↔ (∃ rec, s.seqRec b.toNat = some rec) ∧ (s.seqn b.toNat).latch = true) ∧
    (s.codeHolds 8 b = true ↔ Bank.at s.plungers b.toNat = true) := by
  simp only [← approachFitted_iff, ← seqFitted_iff]
  exact ⟨by simp [State.codeHolds, ConditionKind.ofCode, State.conditionHolds],
    by simp [State.codeHolds, ConditionKind.ofCode, State.conditionHolds], Iff.rfl⟩

theorem codeHolds_unknown (s : State) (k b : Byte) (hk : 8 < k.toNat) : s.codeHolds k b = false := by
  have none : ConditionKind.ofCode k.toNat = none := by
    unfold ConditionKind.ofCode; split
    all_goals first | omega | rfl
  unfold State.codeHolds; rw [none]

/-! #### R11, R12, R29 -/

theorem verdictOf_of_unfitted {s : State} {n : Nat} (h : s.leverRec n = none) : s.verdictOf n = (false, none) := by
  unfold State.verdictOf; rw [h]

theorem verdictOf_of_ungoverned {s : State} {n : Nat} (h : (s.lever n).governing = none) :
    s.verdictOf n = (false, none) := by
  unfold State.verdictOf; rw [h]; split <;> rfl

theorem verdictOf_of_governed {s : State} {n : Nat} {rec : LeverRec} {e : LeverEnd} (hr : s.leverRec n = some rec)
    (h : (s.lever n).governing = some e) :
    s.verdictOf n = ((s.firstUnsatisfied 1 (rec.listTo e)).isNone && !rec.isSpare, s.firstUnsatisfied 1 (rec.listTo e)) := by
  unfold State.verdictOf; rw [hr, h]

end State

theorem LeverRec.isSpare_iff (r : LeverRec) : r.isSpare = true ↔ r.kind = 3 := by
  have code : ∀ n, LeverKind.ofCode n = some .spare ↔ n = 3 := fun n => by
    unfold LeverKind.ofCode; split <;> (simp; try omega)
  unfold LeverRec.isSpare
  rw [beq_iff_eq, code]
  exact ⟨fun h => BitVec.eq_of_toNat_eq h, fun h => by rw [h]; rfl⟩

/-- R11: the list that governs a lever. -/
theorem LeverState.governing_list (l : LeverState) (rec : LeverRec) :
    (match l.position, l.lastProved with
      | .normal, _ => some rec.reverseList
      | .reverse, _ => some rec.normalList
      | .transit, some .normal => some rec.reverseList
      | .transit, some .reverse => some rec.normalList
      | .transit, none => none
      | .contactFault, _ => none) = l.governing.map rec.listTo := by
  unfold LeverState.governing
  cases l.position <;> rcases l.lastProved with _ | (_ | _) <;> rfl

/-- Settles O27. -/
theorem termsAndLists : Obligations.TermsAndLists := by
  refine ⟨fun s ts i => ⟨s.firstUnsatisfied_eq_none ts i, fun j => State.firstUnsatisfied_eq_some, s.termSatisfied_iff⟩,
    fun s b => ?_, fun s n => ⟨State.verdictOf_of_unfitted, fun rec hr => ?_, ?_⟩⟩
  · obtain ⟨h0, h1⟩ := s.codeHolds_lever b
    obtain ⟨h2, h3⟩ := s.codeHolds_track b
    obtain ⟨h4, h5⟩ := s.codeHolds_section b
    obtain ⟨h6, h7, h8⟩ := s.codeHolds_rest b
    exact ⟨h0, h1, h2, h3, h4, h5, h6, h7, h8, fun k hk => s.codeHolds_unknown k b hk⟩
  · intro governs
    have hg : governs = (s.lever n).governing.map rec.listTo := LeverState.governing_list _ rec
    rw [hg]
    refine ⟨fun h => State.verdictOf_of_ungoverned (Option.map_eq_none_iff.1 h), fun ts h => ?_⟩
    obtain ⟨e, he, rfl⟩ := Option.map_eq_some_iff.1 h
    rw [State.verdictOf_of_governed hr he]
    refine ⟨rfl, ?_⟩
    rw [Bool.and_eq_true, Option.isNone_iff_eq_none, State.firstUnsatisfied_eq_none, Bool.not_eq_true',
      ← Bool.not_eq_true, LeverRec.isSpare_iff]
  · unfold State.wantsFree State.isRunning
    simp only [Bool.and_eq_true, beq_iff_eq, State.hasLock_iff]
    constructor
    · rintro ⟨⟨⟨h1, h2⟩, rec, hr, hf⟩, hv⟩; exact ⟨h1, h2, rec, hr, hf, hv⟩
    · rintro ⟨h1, h2, rec, hr, hf, hv⟩; exact ⟨⟨⟨h1, h2⟩, rec, hr, hf⟩, hv⟩

/-! ### O28: an evaluation -/

theorem LeverState.commanded_of_eq {l : LeverState} {c : LockCommand} (h : l.command = c) (now : Time) :
    l.commanded c now = l := if_pos h

theorem LeverState.commanded_of_ne {l : LeverState} {c : LockCommand} (h : l.command ≠ c) (now : Time) :
    l.commanded c now =
      { l with command := c, commandTime := now, window := some now, driveActive := l.driveActive && c == .free } :=
  if_neg h

namespace State

/-- R30: a lever with a lock after an evaluation. -/
theorem evaluate_lock (cause : LockCause) {s : State} {n : Nat} (hn : leverOk n = true) (hk : s.hasLock n = true) :
    (s.evaluate cause).lever n =
      ((s.lever n).judged (s.verdictOf n)).commanded (if s.wantsFree n then .free else .held) s.now := by
  have hf : s.leverFitted n = true := by
    obtain ⟨rec, hr, -⟩ := (s.hasLock_iff n).1 hk
    exact (s.leverFitted_iff n).2 ⟨rec, hr⟩
  rw [evaluate_lever, if_pos hn]
  unfold refreshedLever LeverState.refreshed
  rw [if_pos hf, if_pos hk]

/-- R14, R30: what an evaluation leaves of every lever. -/
theorem evaluate_lever_same (cause : LockCause) (s : State) (n : Nat) : ∃ v b c a d e, (s.evaluate cause).lever n =
    { s.lever n with verdict := v, blocking := b, command := c, commandTime := a, window := d, driveActive := e } := by
  rw [evaluate_lever]; split
  · unfold refreshedLever; split
    · obtain ⟨c, a, d, e, h⟩ :=
        LeverState.refreshed_same (s.verdictOf n) (s.hasLock n) (s.wantsFree n) s.now (s.lever n)
      exact ⟨_, _, c, a, d, e, h⟩
    · exact ⟨_, _, _, _, _, _, rfl⟩
  · exact ⟨_, _, _, _, _, _, rfl⟩

/-- R31: a lock command ends the LOCK_DRIVE that it clears. -/
theorem setCommand_drive {n : Nat} (cause : LockCause) (m : Nat) (c : LockCommand) {s : State}
    (h : (s.lever n).driveActive = true ∨ s.faultOver .lockDrive n) :
    ((s.setCommand cause m c).lever n).driveActive = true ∨ (s.setCommand cause m c).faultOver .lockDrive n := by
  rcases h with h | h
  · unfold State.setCommand; dsimp only; split
    · exact .inl h
    · rw [State.endIf_lever, State.report_lever, State.lever_updLever]
      split
      · rename_i hm
        obtain ⟨rfl, -⟩ := hm
        cases c with
        | free => exact .inl (by simp [h])
        | held => exact .inr (endIf_over _ _ fun hb => by simp [h] at hb)
      · exact .inl h
  · right
    unfold State.setCommand; dsimp only; split
    · exact h
    · exact endIf_keeps_over _ _ _ ((report_faultOver _ _ _ _ _).2 h)

theorem refreshLever_drive {n : Nat} (cause : LockCause) (m : Nat) {s : State}
    (h : (s.lever n).driveActive = true ∨ s.faultOver .lockDrive n) :
    ((s.refreshLever cause m).lever n).driveActive = true ∨ (s.refreshLever cause m).faultOver .lockDrive n := by
  have judged : ((s.updLever m (LeverState.judged (s.verdictOf m))).lever n).driveActive = true ∨
      (s.updLever m (LeverState.judged (s.verdictOf m))).faultOver .lockDrive n := by
    refine h.imp (fun h => ?_) id
    rw [State.lever_updLever]; split
    · rename_i hm; rw [hm.1] at h; exact h
    · exact h
  unfold State.refreshLever; split
  · exact ite_keeps (P := fun u => (u.lever n).driveActive = true ∨ u.faultOver .lockDrive n)
      (setCommand_drive cause m _ judged) judged
  · exact h

/-- R31: a LOCK_DRIVE that an evaluation clears is over in the list. -/
theorem evaluate_drive (cause : LockCause) {s : State} {n : Nat} (h : (s.lever n).driveActive = true)
    (ht : ((s.evaluate cause).lever n).driveActive = false) : (s.evaluate cause).faultOver .lockDrive n := by
  have kept : ((s.evaluate cause).lever n).driveActive = true ∨ (s.evaluate cause).faultOver .lockDrive n :=
    forEach_inv (P := fun u => (u.lever n).driveActive = true ∨ u.faultOver .lockDrive n)
      (fun m _ hu => refreshLever_drive cause m hu) allLevers s (.inl h)
  rw [ht] at kept
  exact kept.resolve_left Bool.false_ne_true

end State

/-- Settles O28. -/
theorem evaluationSettles : Obligations.EvaluationSettles := by
  intro s cause t
  have free_or_held : ∀ c : LockCommand, c ≠ .free → c = .held := fun c h => by cases c <;> simp_all
  refine ⟨State.evaluate_verdictsFresh cause s, State.evaluate_only cause s, fun n hn hk => ?_, fun n => ?_⟩
  · have lock := State.evaluate_lock cause hn hk
    have command : (t.lever n).command = if s.wantsFree n then .free else .held := by
      rw [lock, LeverState.commanded_command]
    refine ⟨State.evaluate_command cause hn hk, fun hc => ?_, fun hc => ?_, fun hf hh => ?_, fun h => ?_⟩
    · rw [command] at hc
      rw [lock, LeverState.commanded_of_ne (l := (s.lever n).judged _) fun h => hc h.symm]; exact ⟨rfl, rfl⟩
    · rw [command] at hc
      rw [lock, LeverState.commanded_of_eq (l := (s.lever n).judged _) hc.symm]; exact ⟨rfl, rfl⟩
    · have off : (t.lever n).driveActive = false := by
        rw [command] at hh
        have goes : ((s.lever n).judged (s.verdictOf n)).command ≠ .held := fun h => by
          rw [show ((s.lever n).judged (s.verdictOf n)).command = (s.lever n).command from rfl, hf] at h; cases h
        rw [lock, hh, LeverState.commanded_of_ne goes]
        exact Bool.and_false _
      exact ⟨off, fun _ hd => State.evaluate_drive cause hd off⟩
    · rw [command] at h
      rw [lock]
      by_cases hne : ((s.lever n).judged (s.verdictOf n)).command = if s.wantsFree n then .free else .held
      · rw [LeverState.commanded_of_eq hne]; rfl
      · have free : (if s.wantsFree n then LockCommand.free else .held) = .free :=
          h.elim (fun h => by_contra fun hw => hne (h.trans (free_or_held _ hw).symm)) id
        rw [LeverState.commanded_of_ne hne, free]; exact Bool.and_true _
  · obtain ⟨_, _, _, _, _, _, h⟩ := State.evaluate_lever_same cause s n
    rw [show t.lever n = _ from h]
    exact ⟨rfl, rfl, rfl, rfl⟩

/-! ### O32: the transit limit, and the times of the table -/

/-- R156: a raise of a class without an order reaches the supervisor and the link alone. -/
theorem State.raiseWith_of_noOrder {c : FaultClass} (h : c.order = none) (m : Bool) (o : Nat) (s : State) :
    s.raiseWith m c o = s.enterRaise c o m := by
  unfold State.raiseWith; rw [h]

theorem State.raise_onlyFaults {c : FaultClass} (h : c.order = none) (m : Bool) (o : Nat) (s : State) :
    OnlyFaults s (s.raiseWith m c o) := by
  rw [State.raiseWith_of_noOrder h]; exact State.enterRaise_only c o m s

theorem State.lever_of_onlyFaults {s t : State} (h : OnlyFaults s t) (n : Nat) : t.lever n = s.lever n := by
  obtain ⟨_, _, rfl⟩ := h; rfl

theorem OnlyFaults.frame_eq {s t : State} (h : OnlyFaults s t) : t.frame = s.frame := by
  obtain ⟨_, _, rfl⟩ := h; rfl

/-- The levers other than `n`, where one update of `n` is all that reaches the levers. -/
theorem otherLevers_of_updLever {n : Nat} {f : LeverState → LeverState} {s t : State}
    (h : ∀ m, t.lever m = (s.updLever n f).lever m) : OtherLevers n s t := by
  intro m hm
  rw [h, State.lever_updLever, if_neg fun hc => hm hc.1]
  exact ⟨rfl, rfl, rfl, rfl, rfl⟩

/-- R23: the transit limit has passed. -/
theorem State.transitDue_iff (s : State) (n : Nat) : s.transitDue n = true ↔
    s.leverFitted n = true ∧ (s.lever n).position = .transit ∧ (s.lever n).notHome = false ∧
      (s.lever n).transitSince + s.transitLimit ≤ s.now := by
  unfold State.transitDue; simp [and_assoc]

theorem State.lever_updLever_same {n : Nat} (hn : leverOk n = true) (f : LeverState → LeverState) (s : State) :
    (s.updLever n f).lever n = f (s.lever n) := by
  have hn : 1 ≤ n ∧ n ≤ 48 := by simpa [leverOk] using hn
  rw [State.lever_updLever, if_pos ⟨rfl, hn⟩]

theorem exec_transitLimit {n : Nat} (hn : leverOk n = true) (s : State) : exec (.transitLimit n) s = .next
    (if s.transitDue n then
      ((s.updLever n fun l => { l with notHome := true, contactActive := true }).leverReport n 6
        [optEnd (s.lever n).lastProved]).raise .leverContact n
    else s) := by
  change onObject (leverOk n) _ = _
  rw [hn]; rfl

/-! #### R20, R101, R102 -/

theorem frameOf_append {before after : List Record} {f : FrameRec} (h : ∀ q ∈ before, q.isFrame = false) :
    frameOf (before ++ .frame f :: after) = some f := by
  induction before with
  | nil => rfl
  | cons q qs ih =>
    obtain ⟨hq, hqs⟩ := List.forall_mem_cons.1 h
    cases q with
    | frame => cases hq
    | _ => exact ih hqs

theorem timingOf_append {before after : List Record} {b : TimingRec} (h : ∀ q ∈ before, q.isTiming = false) :
    timingOf (before ++ .timing b :: after) = some b := by
  induction before with
  | nil => rfl
  | cons q qs ih =>
    obtain ⟨hq, hqs⟩ := List.forall_mem_cons.1 h
    cases q with
    | timing => cases hq
    | _ => exact ih hqs

theorem State.table_of_active {s : State} {tb : Table} (h : s.store.active = some tb) : s.table = tb.records := by
  unfold State.table; rw [h]

/-- Settles O32. -/
theorem transitLimit : Obligations.TransitLimit := by
  refine ⟨fun s n hn => ?_, fun s tb before after htb => ⟨fun f hr hb => ?_, fun b hr hb => ?_⟩, fun s h => ?_, fun r => ?_⟩
  · intro due
    refine ⟨fun h => ?_, fun h => ?_⟩
    · rw [exec_transitLimit hn, if_neg (mt (s.transitDue_iff n).1 h)]
    · refine ⟨_, exec_transitLimit hn s, ?_⟩
      rw [if_pos ((s.transitDue_iff n).2 h)]
      let u := (s.updLever n fun l => { l with notHome := true, contactActive := true }).leverReport n 6
        [optEnd (s.lever n).lastProved]
      have only : OnlyFaults u (u.raise .leverContact n) := State.raise_onlyFaults rfl false n u
      have levers : ∀ m, (u.raise .leverContact n).lever m =
          (s.updLever n fun l => { l with notHome := true, contactActive := true }).lever m := fun m =>
        (State.lever_of_onlyFaults only m).trans (State.report_lever _ _ _ _ _ _)
      have frame : (u.raise .leverContact n).frame = (s.updLever n _).frame :=
        only.frame_eq.trans (State.report_frame _ _ _ _ _)
      have supply : (u.raise .leverContact n).frame.supplyOn = s.frame.supplyOn := by rw [frame]; rfl
      refine ⟨?_, ?_, ?_, State.raise_shown _ _ _, otherLevers_of_updLever levers, supply, ?_⟩
      · exact congrArg LeverState.notHome ((levers n).trans (State.lever_updLever_same hn _ s))
      · exact congrArg LeverState.contactActive ((levers n).trans (State.lever_updLever_same hn _ s))
      · exact (congrArg LeverState.position ((levers n).trans (State.lever_updLever_same hn _ s))).trans h.2.1
      · exact ((State.updLever_only _ _ s).trans (State.report_only _ _ _ _ _).faults.eval).trans only.eval
  · have frame : s.frameRec = some f := by
      unfold State.frameRec; rw [State.table_of_active htb, hr, frameOf_append hb]
    unfold State.transitLimit State.travelTime; rw [frame]
    exact ⟨rfl, rfl⟩
  · unfold State.timing; rw [State.table_of_active htb, hr, timingOf_append hb]; rfl
  · unfold State.timing State.table; rw [h]; rfl
  · cases r <;> rfl

/-! ### O22: the fingerprint -/

theorem Record.key_filled (r : Record) : r.filled.key = r.key := by cases r <;> rfl

theorem insertRecord_perm (r : Record) (rs : List Record) : (insertRecord r rs).Perm (r :: rs) := by
  induction rs with
  | nil => exact .rfl
  | cons x xs ih =>
    unfold insertRecord; split
    · exact .rfl
    · exact (ih.cons x).trans (.swap r x xs)

theorem insertRecord_sorted (r : Record) {rs : List Record} (h : rs.Pairwise fun a b => a.key ≤ b.key) :
    (insertRecord r rs).Pairwise fun a b => a.key ≤ b.key := by
  induction rs with
  | nil => exact List.pairwise_singleton _ _
  | cons x xs ih =>
    obtain ⟨hx, hxs⟩ := List.pairwise_cons.1 h
    unfold insertRecord; split
    · rename_i hr
      exact List.pairwise_cons.2 ⟨List.forall_mem_cons.2 ⟨hr.le, fun y hy => hr.le.trans (hx y hy)⟩, h⟩
    · rename_i hr
      refine List.pairwise_cons.2 ⟨fun y hy => ?_, ih hxs⟩
      rcases List.mem_cons.1 ((insertRecord_perm r xs).subset hy) with rfl | hy
      · exact Nat.not_lt.1 hr
      · exact hx y hy

/-- R176: the canonical order has the records it is given, in the order of their keys. -/
theorem canonical_spec (rs : List Record) : (canonical rs).Perm rs ∧ (canonical rs).Pairwise fun a b => a.key ≤ b.key := by
  have fold : ∀ (rs acc : List Record), acc.Pairwise (fun a b => a.key ≤ b.key) →
      (rs.foldl (fun acc r => insertRecord r acc) acc).Perm (acc ++ rs) ∧
      (rs.foldl (fun acc r => insertRecord r acc) acc).Pairwise fun a b => a.key ≤ b.key := by
    intro rs
    induction rs with
    | nil => exact fun acc h => ⟨by simp, h⟩
    | cons r rs ih =>
      intro acc h
      obtain ⟨hp, hs⟩ := ih (insertRecord r acc) (insertRecord_sorted r h)
      exact ⟨(hp.trans ((insertRecord_perm r acc).append_right rs)).trans List.perm_middle.symm, hs⟩
  exact fold rs [] .nil

/-- Records of different keys have one canonical order. -/
theorem canonical_of_perm {rs ss : List Record} (h : rs.Perm ss) (keys : (rs.map Record.key).Nodup) :
    canonical rs = canonical ss := by
  obtain ⟨hr, sorted⟩ := canonical_spec rs
  obtain ⟨hs, sorted'⟩ := canonical_spec ss
  refine List.Perm.eq_of_pairwise (fun a b ha hb hab hba => ?_) sorted sorted' ((hr.trans h).trans hs.symm)
  exact List.inj_on_of_nodup_map keys (hr.subset ha) (h.symm.subset (hs.subset hb)) (hab.antisymm hba)

/-- Settles O22: the check runs over the canonical order. -/
theorem fingerprintIsOrderFree : Obligations.FingerprintIsOrderFree := by
  intro rs ss h keys
  unfold fingerprintOf
  rw [canonical_of_perm (h.map Record.filled)]
  rwa [List.map_map, show Record.key ∘ Record.filled = Record.key from funext Record.key_filled]

/-! ### O5: records and their layout -/

@[simp] theorem byte_toNat (b : Byte) : byte b.toNat = b := by unfold byte; simp

theorem toNat_byte {n : Nat} (h : n ≤ 255) : (byte n).toNat = n := by
  unfold byte; rw [BitVec.toNat_ofNat]; omega

/-- R191: a two-byte field is its high byte and its low byte. -/
theorem be16_word (hi lo : Byte) : be16 (word hi lo) = [hi, lo] := by
  have high : ((word hi lo) >>> 8).setWidth 8 = hi := by
    refine BitVec.eq_of_getLsbD_eq fun i hi' => ?_
    have at_high : (word hi lo).getLsbD (8 + i) = _ := BitVec.getLsbD_append (x := hi) (y := lo) (i := 8 + i)
    simp [hi', at_high]
  have low : (word hi lo).setWidth 8 = lo := by
    refine BitVec.eq_of_getLsbD_eq fun i hi' => ?_
    have at_low : (word hi lo).getLsbD i = _ := BitVec.getLsbD_append (x := hi) (y := lo) (i := i)
    simp [hi', at_low]
  unfold be16; rw [high, low]

theorem word_be16 (w : Word16) : word ((w >>> 8).setWidth 8) (w.setWidth 8) = w := by
  refine BitVec.eq_of_getLsbD_eq fun i hi => ?_
  refine (BitVec.getLsbD_append (x := (w >>> 8).setWidth 8) (y := w.setWidth 8) (i := i)).trans ?_
  split
  · rename_i low; simp [low]
  · simp [show 8 + (i - 8) = i by omega, show i - 8 < 8 by omega]

theorem parseTerms_encodeTerms (ts : List Term) (rest : List Byte) :
    parseTerms ts.length (encodeTerms ts ++ rest) = some (ts, rest) := by
  induction ts with
  | nil => rfl
  | cons t ts ih =>
    simp only [encodeTerms, encodeTerm, List.length_cons, List.cons_append, List.nil_append, parseTerms]
    rw [ih]

theorem encodeTerms_of_parseTerms {n : Nat} : ∀ {bs rest : List Byte} {ts : List Term}, parseTerms n bs = some (ts, rest) →
    bs = encodeTerms ts ++ rest ∧ ts.length = n := by
  induction n with
  | zero => intro bs rest ts h; cases h; exact ⟨rfl, rfl⟩
  | succ n ih =>
    intro bs rest ts h
    match bs, h with
    | a :: b :: c :: d :: bs, h =>
      simp only [parseTerms] at h; split at h
      · cases h
      · rename_i hp
        obtain ⟨hb, hl⟩ := ih hp
        cases h
        exact ⟨by rw [hb]; rfl, by rw [List.length_cons, hl]⟩
    | [], h | [_], h | [_, _], h | [_, _, _], h => cases h

/-- R192: both lists of a LEVER record. -/
theorem parseLists_encodeTerms (rs ms : List Term) :
    parseLists rs.length ms.length (encodeTerms rs ++ encodeTerms ms) = some (rs, ms) := by
  have second := parseTerms_encodeTerms ms []
  rw [List.append_nil] at second
  unfold parseLists
  rw [parseTerms_encodeTerms]; dsimp only; rw [second]

theorem encodeTerms_of_parseLists {r m : Nat} {bs : List Byte} {rs ms : List Term} (h : parseLists r m bs = some (rs, ms)) :
    bs = encodeTerms rs ++ encodeTerms ms ∧ rs.length = r ∧ ms.length = m := by
  unfold parseLists at h; split at h
  · cases h
  · rename_i h1
    split at h
    · rename_i h2
      cases h
      obtain ⟨hb, hr⟩ := encodeTerms_of_parseTerms h1
      obtain ⟨hb', hm⟩ := encodeTerms_of_parseTerms h2
      exact ⟨by rw [hb, hb', List.append_nil], hr, hm⟩
    · cases h

/-- R191: a record is read from its layout as it was written. -/
theorem parseRecord_encodeRecord (r : Record) (lists : ∀ l, r = .lever l → l.reverseList.length ≤ 255 ∧ l.normalList.length ≤ 255)
    (circuits : ∀ q, r = .sequence q → q.circuits.length ≤ 255) (groups : ∀ c, r = .code c → c.groups.length ≤ 255) :
    parseRecord (encodeRecord r) = some r := by
  cases r with
  | frame f => exact Eq.trans (b := some (.frame ⟨_, word _ _, word _ _⟩)) rfl (by rw [word_be16, word_be16])
  | lever l =>
    obtain ⟨h1, h2⟩ := lists l rfl
    have read : parseRecord (encodeRecord (.lever l)) = match parseLists (byte l.reverseList.length).toNat
        (byte l.normalList.length).toNat (encodeTerms l.reverseList ++ encodeTerms l.normalList) with
      | none => none
      | some (rs, ms) => some (.lever ⟨l.number, l.kind, l.flags, rs, ms⟩) := rfl
    rw [read, toNat_byte h1, toNat_byte h2, parseLists_encodeTerms]
  | track t => exact Eq.trans (b := some (.track ⟨_, word _ _, word _ _, _, _⟩)) rfl (by rw [word_be16, word_be16])
  | sequence q =>
    have read : parseRecord (encodeRecord (.sequence q)) = if q.circuits.length = (byte q.circuits.length).toNat then
      some (.sequence ⟨q.number, q.gate, word ((q.timeout >>> 8).setWidth 8) (q.timeout.setWidth 8), q.circuits⟩) else none := rfl
    rw [read, toNat_byte (circuits q rfl), if_pos rfl, word_be16]
  | approach a => exact Eq.trans (b := some (.approach ⟨_, _, _, word _ _, _, _, _⟩)) rfl (by rw [word_be16])
  | blockSection x =>
    exact Eq.trans (b := some (.blockSection ⟨_, _, _, _, _, _, _, _, word _ _, word _ _⟩)) rfl (by rw [word_be16, word_be16])
  | timing t =>
    exact Eq.trans (b := some (.timing ⟨word _ _, word _ _, word _ _, word _ _, word _ _, word _ _, word _ _, word _ _,
      word _ _⟩)) rfl (by simp only [word_be16])
  | code c =>
    have read : parseRecord (encodeRecord (.code c)) = if c.groups.length = (byte c.groups.length).toNat then
      some (.code ⟨c.entry, c.meaning, c.trainClass, c.codeSets, c.groups⟩) else none := rfl
    rw [read, toNat_byte (groups c rfl), if_pos rfl]

/-- R192: a body that is read is the layout of its record. -/
theorem encodeRecord_of_parseRecord {bs : List Byte} {r : Record} (h : parseRecord bs = some r) : encodeRecord r = bs := by
  unfold parseRecord at h
  split at h
  · cases h; simp [encodeRecord, be16_word]
  · split at h
    · cases h
    · rename_i hp
      obtain ⟨rfl, hr, hm⟩ := encodeTerms_of_parseLists hp
      cases h; simp [encodeRecord, hr, hm]
  · cases h; simp [encodeRecord, be16_word]
  · split at h
    · rename_i hl; cases h; simp [encodeRecord, be16_word, hl]
    · cases h
  · cases h; simp [encodeRecord, be16_word]
  · cases h; simp [encodeRecord, be16_word]
  · cases h; simp [encodeRecord, be16_word]
  · split at h
    · rename_i hl; cases h; simp [encodeRecord, hl]
    · cases h
  · cases h

/-- Settles O5. -/
theorem recordsRoundTrip : Obligations.RecordsRoundTrip :=
  ⟨parseRecord_encodeRecord, fun _ _ => encodeRecord_of_parseRecord⟩

/-! ### The first element that a test picks -/

theorem takeFirst_eq_none {α : Type} {p : α → Bool} {xs : List α} (h : ∀ x ∈ xs, p x = false) : takeFirst p xs = none := by
  induction xs with
  | nil => rfl
  | cons x xs ih =>
    obtain ⟨hx, hxs⟩ := List.forall_mem_cons.1 h
    unfold takeFirst; rw [hx, ih hxs]; rfl

theorem takeFirst_append {α : Type} {p : α → Bool} {before after : List α} {x : α} (h : ∀ y ∈ before, p y = false)
    (hx : p x = true) : takeFirst p (before ++ x :: after) = some (x, before ++ after) := by
  induction before with
  | nil => rw [List.nil_append, takeFirst, if_pos hx]; rfl
  | cons y ys ih =>
    obtain ⟨hy, hys⟩ := List.forall_mem_cons.1 h
    rw [List.cons_append, takeFirst, hy, ih hys]; rfl

/-! ### The records of a state that an operation does not reach -/

namespace OnlyEval

variable {s t : State} (h : OnlyEval s t)
include h

theorem track_eq (n : Nat) : t.track n = s.track n := by obtain ⟨_, _, _, rfl⟩ := h; rfl
theorem seqn_eq (q : Nat) : t.seqn q = s.seqn q := by obtain ⟨_, _, _, rfl⟩ := h; rfl
theorem lockn_eq (a : Nat) : t.lockn a = s.lockn a := by obtain ⟨_, _, _, rfl⟩ := h; rfl
theorem bell_eq (x : SectionId) : t.bell x = s.bell x := by obtain ⟨_, _, _, rfl⟩ := h; rfl
theorem sectn_eq (x : SectionId) : t.sectn x = s.sectn x := by obtain ⟨_, _, _, rfl⟩ := h; rfl
theorem answers_eq : t.answers = s.answers := by obtain ⟨_, _, _, rfl⟩ := h; rfl
theorem notices_eq : t.notices = s.notices := by obtain ⟨_, _, _, rfl⟩ := h; rfl
theorem now_eq : t.now = s.now := by obtain ⟨_, _, _, rfl⟩ := h; rfl
theorem epoch_eq : t.epoch = s.epoch := by obtain ⟨_, _, _, rfl⟩ := h; rfl
theorem store_eq : t.store = s.store := by obtain ⟨_, _, _, rfl⟩ := h; rfl

end OnlyEval

namespace State

theorem lockn_updLock_same {a : Nat} (ha : lockOk a = true) (f : ApproachState → ApproachState) (s : State) :
    (s.updLock a f).lockn a = f (s.lockn a) := by
  have ha : 1 ≤ a ∧ a ≤ 16 := by simpa [lockOk] using ha
  rw [State.lockn_updLock, if_pos ⟨rfl, ha⟩]

theorem lockn_updLock_of_ne {a b : Nat} (hb : b ≠ a) (f : ApproachState → ApproachState) (s : State) :
    (s.updLock a f).lockn b = s.lockn b := by
  rw [State.lockn_updLock, if_neg fun h => hb h.1]

theorem seqn_updSeq_same {q : Nat} (hq : sequenceOk q = true) (f : SequenceState → SequenceState) (s : State) :
    (s.updSeq q f).seqn q = f (s.seqn q) := by
  have hq : 1 ≤ q ∧ q ≤ 16 := by simpa [sequenceOk] using hq
  rw [State.seqn_updSeq, if_pos ⟨rfl, hq⟩]

theorem seqn_updSeq_of_ne {p q : Nat} (hp : p ≠ q) (f : SequenceState → SequenceState) (s : State) :
    (s.updSeq q f).seqn p = s.seqn p := by
  rw [State.seqn_updSeq, if_neg fun h => hp h.1]

end State

/-! ### O42: the answers to an approach lock -/

/-- R95: what an answer makes of its lock. -/
def ApproachState.answered (x : Answer) (now : Time) (r : ApproachState) : ApproachState :=
  if x.consumed = true ∧ (r.phase = .awaitRelease ∨ r.phase = .timing) then
    { phase := .free, remaining := none, since := now, releaseAsked := false }
  else { r with releaseAsked := false }

namespace State

/-- R93, R95: an entry into FREE reaches its lock and the evaluator. -/
theorem freeLock_eval (a row : Nat) (d : List Byte) (s : State) :
    OnlyEval (s.updLock a fun x => { x with phase := .free, remaining := none, since := s.now }) (s.freeLock a row d) :=
  (State.approachReport_only a row d _).eval.trans (State.evaluate_only _ _)

theorem freeLock_lockn {a : Nat} (ha : lockOk a = true) (row : Nat) (d : List Byte) (s : State) :
    (s.freeLock a row d).lockn a = { s.lockn a with phase := .free, remaining := none, since := s.now } := by
  rw [(freeLock_eval a row d s).lockn_eq, lockn_updLock_same ha]

theorem freeLock_lockn_of_ne {a b : Nat} (hb : b ≠ a) (row : Nat) (d : List Byte) (s : State) :
    (s.freeLock a row d).lockn b = s.lockn b := by
  rw [(freeLock_eval a row d s).lockn_eq, lockn_updLock_of_ne hb]

/-- R95: an answer of the present table reaches its lock and, where it frees it, the evaluator. -/
theorem approachAnswer_spec {a : Nat} (ha : lockOk a = true) {x : Answer} {s : State} (he : x.epoch = s.epoch)
    (hf : s.approachFitted a = true) :
    (s.approachAnswer a x).lockn a = (s.lockn a).answered x s.now ∧
    (∀ b, b ≠ a → (s.approachAnswer a x).lockn b = s.lockn b) ∧
    OnlyEval { s with locks := (s.approachAnswer a x).locks } (s.approachAnswer a x) := by
  let u := s.updLock a fun r => { r with releaseAsked := false }
  have hu : u.lockn a = { s.lockn a with releaseAsked := false } := lockn_updLock_same ha _ s
  have others : ∀ b, b ≠ a → u.lockn b = s.lockn b := fun b hb => lockn_updLock_of_ne hb _ s
  have reported : ∀ t : State, OnlyLink u t → (s.lockn a).answered x s.now = { s.lockn a with releaseAsked := false } →
      t.lockn a = (s.lockn a).answered x s.now ∧ (∀ b, b ≠ a → t.lockn b = s.lockn b) ∧
      OnlyEval { s with locks := t.locks } t := fun t ht h => by
    refine ⟨(ht.eval.lockn_eq a).trans (hu.trans h.symm), fun b hb => (ht.eval.lockn_eq b).trans (others b hb), ?_⟩
    obtain ⟨l, rfl⟩ := ht
    exact ⟨l, s.faults, s.frame, rfl⟩
  have freed : (s.lockn a).phase = .awaitRelease ∨ (s.lockn a).phase = .timing → x.consumed = true →
      (u.freeLock a 7 [byte x.seq]).lockn a = (s.lockn a).answered x s.now ∧
      (∀ b, b ≠ a → (u.freeLock a 7 [byte x.seq]).lockn b = s.lockn b) ∧
      OnlyEval { s with locks := (u.freeLock a 7 [byte x.seq]).locks } (u.freeLock a 7 [byte x.seq]) := fun hp hc => by
    refine ⟨?_, fun b hb => (freeLock_lockn_of_ne hb _ _ u).trans (others b hb), ?_⟩
    · rw [freeLock_lockn ha, hu]; unfold ApproachState.answered; rw [if_pos ⟨hc, hp⟩]; rfl
    · obtain ⟨l, f, fr, h⟩ := freeLock_eval a 7 [byte x.seq] u
      rw [h]; exact ⟨l, f, fr, rfl⟩
  unfold State.approachAnswer
  rw [if_pos ⟨he, hf⟩]; dsimp only
  split
  · rename_i hc
    split <;> rename_i hp
    · exact freed (.inl hp) hc
    · exact freed (.inr hp) hc
    · exact reported _ (State.approachReport_only _ _ _ _) (if_neg (by simp [hp]))
    · exact reported _ (State.approachReport_only _ _ _ _) (if_neg (by simp [hp]))
  · rename_i hc
    exact reported _ (OnlyLink.refl u) (if_neg fun h => hc h.1)

end State

theorem exec_approachConsumptionAnswer {a : Nat} (ha : lockOk a = true) (s : State) :
    exec (.approachConsumptionAnswer a) s = .next
      (match takeFirst (fun x : Answer => x.consumer == .approach a) s.answers with
      | none => s
      | some (x, rest) => ({ s with answers := rest } : State).approachAnswer a x) := by
  change onObject (lockOk a) _ = _
  rw [ha]; rfl

/-- Settles O42. -/
theorem approachAnswers : Obligations.ApproachAnswers := by
  intro s a ha
  have taken : ∀ before x after, s.answers = before ++ x :: after → (∀ y ∈ before, y.consumer ≠ .approach a) →
      x.consumer = .approach a → exec (.approachConsumptionAnswer a) s =
        .next (({ s with answers := before ++ after } : State).approachAnswer a x) := fun before x after h hb hx => by
    rw [exec_approachConsumptionAnswer ha, h, takeFirst_append (by simpa using hb) (by simpa using hx)]
  refine ⟨fun h => ?_, fun before x after h hb hx hold => ?_, fun before x after h hb hx he hf => ?_⟩
  · rw [exec_approachConsumptionAnswer ha, takeFirst_eq_none (by simpa using h)]
  · rw [taken before x after h hb hx]
    unfold State.approachAnswer
    rw [if_neg]
    rintro ⟨he, hf⟩
    exact hold.elim (· he) (fun h => by rw [show s.approachFitted a = true from hf] at h; cases h)
  · obtain ⟨hl, ho, hk⟩ := State.approachAnswer_spec (s := { s with answers := before ++ after }) ha he hf
    have answers := hk.answers_eq
    refine ⟨_, taken before x after h hb hx, answers, ho, ?_, hl⟩
    rw [answers]; exact hk

/-! ### O39: step timeouts and consumption notifications -/

/-- R82: the answers that a notification taken brings its consumer. -/
def Notice.answers (m : Notice) (consumed : Bool) : List Answer :=
  match m.consumer with
  | .lever _ => []
  | .block _ | .approach _ => [{ consumer := m.consumer, seq := m.seq, epoch := m.epoch, consumed := consumed }]

/-- R81: a sequence's record after a notification taken for it. -/
def SequenceState.consumed (r : SequenceState) : SequenceState :=
  { r with latch := false, unused := r.unused && !r.latch }

namespace State

theorem answerTo_eq (m : Notice) (b : Bool) (s : State) : s.answerTo m b = { s with answers := s.answers ++ m.answers b } := by
  obtain ⟨c, q, e⟩ := m
  cases c with
  | lever n => simp only [State.answerTo, Notice.answers, List.append_nil]
  | block x => rfl
  | approach a => rfl

/-- A sequence's update, an evaluation, and an answer. -/
theorem onlyEval_answered {q : Nat} {f : SequenceState → SequenceState} {s t : State} (h : OnlyEval (s.updSeq q f) t)
    (as : List Answer) : OnlyEval { s with answers := as, seqs := t.seqs } { t with answers := as } := by
  obtain ⟨l, g, fr, rfl⟩ := h
  exact ⟨l, g, fr, rfl⟩

/-- R81, R82: a notification taken reaches its sequence, its consumer and the evaluator. -/
theorem takeNotice_spec {m : Notice} (hq : sequenceOk m.seq = true) (s : State) :
    (s.takeNotice m).notices = s.notices ∧
    (s.takeNotice m).answers = s.answers ++ m.answers (s.seqFitted m.seq && (s.seqn m.seq).latch) ∧
    (s.seqFitted m.seq = true → (s.takeNotice m).seqn m.seq = (s.seqn m.seq).consumed) ∧
    (∀ p, p ≠ m.seq → (s.takeNotice m).seqn p = s.seqn p) ∧
    OnlyEval { s with answers := (s.takeNotice m).answers, seqs := (s.takeNotice m).seqs } (s.takeNotice m) := by
  unfold State.takeNotice
  cases hf : s.seqFitted m.seq with
  | false =>
    rw [if_neg Bool.false_ne_true, answerTo_eq, Bool.false_and]
    exact ⟨rfl, rfl, fun h => (nomatch h), fun _ _ => rfl, ⟨s.link, s.faults, s.frame, rfl⟩⟩
  | true =>
    rw [if_pos rfl]
    cases hl : (s.seqn m.seq).latch with
    | false =>
      rw [if_neg Bool.false_ne_true, answerTo_eq]
      have only := State.report_only .seq m.seq 5 (1 :: consumerBytes m.consumer) s
      refine ⟨only.eval.notices_eq, congrArg (· ++ _) only.eval.answers_eq, fun _ => ?_, fun p _ => only.eval.seqn_eq p, ?_⟩
      · refine (only.eval.seqn_eq m.seq).trans ?_
        unfold SequenceState.consumed; rw [hl, Bool.not_false, Bool.and_true, ← hl]
      · obtain ⟨l, h⟩ := only
        rw [h]; exact ⟨l, s.faults, s.frame, rfl⟩
    | true =>
      rw [if_pos rfl, answerTo_eq]
      generalize ht : ((s.updSeq m.seq fun x => { x with latch := false, unused := false }).report .seq m.seq 5
        (0 :: consumerBytes m.consumer)).evaluate .verdict = t
      have only : OnlyEval (s.updSeq m.seq fun x => { x with latch := false, unused := false }) t :=
        ht ▸ (State.report_only _ _ _ _ _).eval.trans (State.evaluate_only _ _)
      refine ⟨only.notices_eq, congrArg (· ++ _) only.answers_eq, fun _ => ?_, fun p hp => ?_, ?_⟩
      · refine (only.seqn_eq m.seq).trans ((seqn_updSeq_same hq _ s).trans ?_)
        unfold SequenceState.consumed; rw [hl, Bool.not_true, Bool.and_false]
      · exact (only.seqn_eq p).trans (seqn_updSeq_of_ne hp _ s)
      · exact onlyEval_answered only _

/-- R79: the step of a sequence has stood for its timeout. -/
theorem stepTimeoutDue_iff (s : State) (q : Nat) : s.stepTimeoutDue q = true ↔
    ∃ rec, s.seqRec q = some rec ∧ 1 ≤ (s.seqn q).step ∧
      ∃ t, (s.seqn q).stepTime = some t ∧ t + rec.timeout.toNat * 1000 ≤ s.now := by
  unfold State.stepTimeoutDue
  cases s.seqRec q with
  | none => simp
  | some rec =>
    cases (s.seqn q).stepTime with
    | none => simp
    | some t => simp

end State

theorem exec_stepTimeout {q : Nat} (hq : sequenceOk q = true) (s : State) :
    exec (.stepTimeout q) s = .next (if s.stepTimeoutDue q then s.breakSequence q .timeout else s) := by
  change onObject (sequenceOk q) _ = _
  rw [hq]; rfl

theorem exec_consumptionNotification {c : Consumer} {q : Nat} (hc : consumerOk c = true) (hq : sequenceOk q = true)
    (s : State) : exec (.consumptionNotification c q) s = .next
      (match takeFirst (fun n : Notice => n.consumer == c && n.seq == q) s.notices with
      | none => s
      | some (n, rest) => ({ s with notices := rest } : State).takeNotice n) := by
  change onObject (consumerOk c && sequenceOk q) _ = _
  rw [hc, hq]; rfl

/-- Settles O39. -/
theorem sequenceEvents : Obligations.SequenceEvents := by
  refine ⟨fun s q hq => ?_, fun s c q hc hq => ⟨fun h => ?_, fun before m after h hb hmc hmq => ?_⟩⟩
  · intro due
    have iff : s.stepTimeoutDue q = true ↔ due := s.stepTimeoutDue_iff q
    exact ⟨fun h => by rw [exec_stepTimeout hq, if_neg (mt iff.1 h)], fun h => by
      rw [exec_stepTimeout hq, if_pos (iff.2 h)]; rfl⟩
  · rw [exec_consumptionNotification hc hq, takeFirst_eq_none (by simpa using h)]
  · subst hmc hmq
    have taken : exec (.consumptionNotification m.consumer m.seq) s =
        .next (({ s with notices := before ++ after } : State).takeNotice m) := by
      rw [exec_consumptionNotification hc hq, h, takeFirst_append (by simpa using hb) (by simp)]
    obtain ⟨notices, answers, same, other, only⟩ :=
      State.takeNotice_spec (s := { s with notices := before ++ after }) hq
    refine ⟨_, taken, notices, ?_, same, other, ?_⟩
    · refine answers.trans (congrArg (s.answers ++ ·) ?_)
      obtain ⟨c, q, e⟩ := m
      cases c <;> rfl
    · rw [notices]; exact only

/-! ### The approach locks under the events of the field -/

/-- Nothing but the approach locks, the notifications and what an evaluation reaches. -/
def OnlyLocks (s t : State) : Prop := ∃ lo no, OnlyEval { s with locks := lo, notices := no } t

theorem OnlyEval.locks {s t : State} (h : OnlyEval s t) : OnlyLocks s t := ⟨s.locks, s.notices, h⟩

namespace OnlyLocks

theorem refl (s : State) : OnlyLocks s s := (OnlyEval.refl s).locks

variable {s t u : State} (h : OnlyLocks s t)
include h

theorem trans (g : OnlyLocks t u) : OnlyLocks s u := by
  obtain ⟨_, _, _, _, _, rfl⟩ := h
  obtain ⟨lo, no, l, f, fr, rfl⟩ := g
  exact ⟨lo, no, l, f, fr, rfl⟩

theorem tracks_eq : t.tracks = s.tracks := by obtain ⟨_, _, _, _, _, rfl⟩ := h; rfl
theorem seqs_eq : t.seqs = s.seqs := by obtain ⟨_, _, _, _, _, rfl⟩ := h; rfl
theorem sections_eq : t.sections = s.sections := by obtain ⟨_, _, _, _, _, rfl⟩ := h; rfl
theorem track_eq (n : Nat) : t.track n = s.track n := by obtain ⟨_, _, _, _, _, rfl⟩ := h; rfl
theorem seqn_eq (q : Nat) : t.seqn q = s.seqn q := by obtain ⟨_, _, _, _, _, rfl⟩ := h; rfl
theorem sectn_eq (x : SectionId) : t.sectn x = s.sectn x := by obtain ⟨_, _, _, _, _, rfl⟩ := h; rfl
theorem now_eq : t.now = s.now := by obtain ⟨_, _, _, _, _, rfl⟩ := h; rfl
theorem epoch_eq : t.epoch = s.epoch := by obtain ⟨_, _, _, _, _, rfl⟩ := h; rfl
theorem store_eq : t.store = s.store := by obtain ⟨_, _, _, _, _, rfl⟩ := h; rfl

theorem approachRec_eq (a : Nat) : t.approachRec a = s.approachRec a := by
  unfold State.approachRec State.table; rw [h.store_eq]

end OnlyLocks

theorem onlyLocks_updLock (a : Nat) (f : ApproachState → ApproachState) (s : State) : OnlyLocks s (s.updLock a f) :=
  ⟨(s.updLock a f).locks, s.notices, s.link, s.faults, s.frame, rfl⟩

theorem onlyLocks_sendNotice (c : Consumer) (q : Nat) (s : State) : OnlyLocks s (s.sendNotice c q) :=
  ⟨s.locks, (s.sendNotice c q).notices, s.link, s.faults, s.frame, rfl⟩

/-- Each step of a fold sends what its own object asks for, and leaves what the others ask for. -/
theorem forEach_notices {α : Type} {f : α → State → State} {item : State → α → Option Notice} (xs : List α) (hn : xs.Nodup)
    (hsend : ∀ x ∈ xs, ∀ s, (f x s).notices = s.notices ++ (item s x).toList)
    (hitem : ∀ x ∈ xs, ∀ s, ∀ y, y ≠ x → item (f x s) y = item s y) :
    ∀ s, (forEach xs f s).notices = s.notices ++ xs.filterMap (item s) := by
  induction xs with
  | nil => intro s; simp
  | cons x xs ih =>
    intro s
    obtain ⟨hx, hxs⟩ := List.nodup_cons.1 hn
    have rest : xs.filterMap (item (f x s)) = xs.filterMap (item s) :=
      List.filterMap_congr fun y hy => hitem x List.mem_cons_self s y fun h => hx (h ▸ hy)
    rw [forEach_cons, ih hxs (fun z hz => hsend z (List.mem_cons_of_mem x hz)) (fun z hz => hitem z (List.mem_cons_of_mem x hz)),
      hsend x List.mem_cons_self, rest, List.append_assoc]
    congr 1
    cases h : item s x <;> simp [h]

/-! #### R94: the release test -/

/-- R94: whether a lock asks the monitor for the latch of its release sequence. -/
def ApproachState.asks (rec : ApproachRec) (latch : Bool) (r : ApproachState) : Bool :=
  rec.release != absent && (!r.releaseAsked && latch)

/-- R94: a lock that awaits its release, after the release test. -/
def ApproachState.tested (rec : ApproachRec) (latch : Bool) (r : ApproachState) : ApproachState :=
  { r with releaseAsked := r.releaseAsked || (rec.release != absent && latch) }

namespace State

/-- R94: the notification of a lock that asks. -/
def askedOf (s : State) (a : Nat) (rec : ApproachRec) : Option Notice :=
  if (s.lockn a).asks rec (s.seqn rec.release.toNat).latch then
    some { consumer := .approach a, seq := rec.release.toNat, epoch := s.epoch }
  else none

theorem askedBy_eq (s : State) (p : Nat → ApproachRec → Bool) : s.askedBy p =
    allLocks.filterMap fun a => (s.approachRec a).bind fun rec => if p a rec then s.askedOf a rec else none := by
  refine List.filterMap_congr fun a _ => ?_
  cases s.approachRec a with
  | none => rfl
  | some rec =>
    simp only [Option.bind_some]
    unfold askedOf ApproachState.asks
    cases p a rec <;> simp

theorem releaseTest_onlyLocks (a : Nat) (s : State) : OnlyLocks s (s.releaseTest a) := by
  unfold State.releaseTest; split
  · exact OnlyLocks.refl s
  · dsimp only; split
    · exact (onlyLocks_updLock _ _ s).trans (onlyLocks_sendNotice _ _ _)
    · exact OnlyLocks.refl s

/-- R94: the release test of a lock in AWAIT_RELEASE or TIMING. -/
theorem releaseTest_spec {a : Nat} (ha : lockOk a = true) {s : State} {rec : ApproachRec} (hr : s.approachRec a = some rec)
    (hp : (s.lockn a).phase = .awaitRelease ∨ (s.lockn a).phase = .timing) :
    (s.releaseTest a).lockn a = (s.lockn a).tested rec (s.seqn rec.release.toNat).latch ∧
    (∀ b, b ≠ a → (s.releaseTest a).lockn b = s.lockn b) ∧
    (s.releaseTest a).notices = s.notices ++ (s.askedOf a rec).toList := by
  have acts : (rec.release ≠ absent ∧ ((s.lockn a).phase = .awaitRelease ∨ (s.lockn a).phase = .timing) ∧
      (s.lockn a).releaseAsked = false ∧ (s.seqn rec.release.toNat).latch = true) ↔
      (s.lockn a).asks rec (s.seqn rec.release.toNat).latch = true := by
    unfold ApproachState.asks; simp [hp]
  unfold State.releaseTest askedOf; rw [hr]; dsimp only
  by_cases h : (s.lockn a).asks rec (s.seqn rec.release.toNat).latch = true
  · rw [if_pos (acts.2 h), if_pos h]
    let u := s.updLock a fun x => { x with releaseAsked := true }
    refine ⟨Eq.trans (b := u.lockn a) rfl ((lockn_updLock_same ha _ s).trans ?_),
      fun b hb => Eq.trans (b := u.lockn b) rfl (lockn_updLock_of_ne hb _ s), rfl⟩
    obtain ⟨h1, -, h3, h4⟩ := acts.2 h
    unfold ApproachState.tested; simp [h1, h4]
  · rw [if_neg (mt acts.1 h), if_neg h]
    refine ⟨?_, fun b _ => rfl, by simp⟩
    unfold ApproachState.asks at h
    unfold ApproachState.tested
    cases ha : (s.lockn a).releaseAsked with
    | true => rw [Bool.true_or, ← ha]
    | false =>
      have : (rec.release != absent && (s.seqn rec.release.toNat).latch) = false := by simpa [ha] using h
      rw [this, Bool.or_false, ← ha]

/-! #### R92: a release plunger -/

/-- R92: whether the press of a plunger starts the hold time of a lock. -/
def startedBy (s : State) (k a : Nat) (rec : ApproachRec) : Bool :=
  decide (rec.plunger.toNat = k) && (s.lockn a).phase == .awaitRelease

/-- R92: a lock's record after the press of a plunger. -/
def pressedLock (s : State) (k a : Nat) : ApproachState :=
  match s.approachRec a with
  | none => s.lockn a
  | some rec =>
    if s.startedBy k a rec then
      ({ s.lockn a with phase := .timing, remaining := some rec.hold.toNat, since := s.now } : ApproachState).tested rec
        (s.seqn rec.release.toNat).latch
    else s.lockn a

/-- R94: the notification of a lock at the press of a plunger. -/
def pressedNotice (s : State) (k a : Nat) : Option Notice :=
  (s.approachRec a).bind fun rec => if s.startedBy k a rec then s.askedOf a rec else none

theorem pressLock_onlyLocks (k a : Nat) (s : State) : OnlyLocks s (s.pressLock k a) := by
  unfold State.pressLock; split
  · exact OnlyLocks.refl s
  · split
    · exact ((onlyLocks_updLock _ _ s).trans (State.approachReport_only _ _ _ _).eval.locks).trans (releaseTest_onlyLocks _ _)
    · exact OnlyLocks.refl s

theorem pressLock_spec {a : Nat} (ha : lockOk a = true) (k : Nat) (s : State) :
    (s.pressLock k a).lockn a = s.pressedLock k a ∧ (∀ b, b ≠ a → (s.pressLock k a).lockn b = s.lockn b) ∧
    (s.pressLock k a).notices = s.notices ++ (s.pressedNotice k a).toList := by
  unfold State.pressLock pressedLock pressedNotice startedBy
  split
  · rename_i hr; rw [hr]; exact ⟨rfl, fun _ _ => rfl, by simp⟩
  · rename_i rec hr
    rw [hr]
    have cond : (rec.plunger.toNat = k ∧ (s.lockn a).phase = .awaitRelease) ↔
        (decide (rec.plunger.toNat = k) && (s.lockn a).phase == .awaitRelease) = true := by simp
    by_cases h : rec.plunger.toNat = k ∧ (s.lockn a).phase = .awaitRelease
    · dsimp only
      rw [if_pos h, if_pos (cond.1 h), Option.bind_some, if_pos (cond.1 h)]
      let u := (s.startTiming a rec.hold).approachReport a 5 [byte k]
      have only : OnlyLink (s.startTiming a rec.hold) u := State.approachReport_only _ _ _ _
      have lock : u.lockn a = { s.lockn a with phase := .timing, remaining := some rec.hold.toNat, since := s.now } :=
        (only.eval.lockn_eq a).trans (lockn_updLock_same ha _ s)
      have latch : (u.seqn rec.release.toNat).latch = (s.seqn rec.release.toNat).latch :=
        congrArg SequenceState.latch (only.eval.seqn_eq _)
      have found : u.approachRec a = some rec := (only.eval.locks.approachRec_eq a).trans hr
      obtain ⟨hl, ho, hn⟩ := releaseTest_spec ha found (.inr (by rw [lock]))
      refine ⟨by rw [hl, lock, latch], fun b hb => (ho b hb).trans ((only.eval.lockn_eq b).trans
        (lockn_updLock_of_ne hb _ s)), hn.trans ?_⟩
      have asked : u.askedOf a rec = s.askedOf a rec := by
        unfold askedOf ApproachState.asks
        rw [lock, latch, only.eval.epoch_eq]; rfl
      rw [asked, only.eval.notices_eq]; rfl
    · dsimp only
      rw [if_neg h, if_neg (mt cond.2 h), Option.bind_some, if_neg (mt cond.2 h)]
      exact ⟨rfl, fun _ _ => rfl, by simp⟩

/-- What a lock's step reads of the state is what it finds, where only other locks have changed. -/
theorem pressed_congr {s t : State} (h : OnlyLocks s t) {k a : Nat} (hl : t.lockn a = s.lockn a) :
    t.pressedLock k a = s.pressedLock k a ∧ t.pressedNotice k a = s.pressedNotice k a := by
  unfold pressedLock pressedNotice startedBy askedOf
  simp only [h.approachRec_eq, h.seqn_eq, h.now_eq, h.epoch_eq, hl]
  exact ⟨trivial, trivial⟩

end State

/-- What a step that is taken for each approach lock in turn makes of its own lock (`after`) and sends for it (`note`),
from what it finds of that lock and of the records no lock's step reaches. -/
structure LockStep (f : Nat → State → State) (after : State → Nat → ApproachState) (note : State → Nat → Option Notice) :
    Prop where
  only : ∀ a s, OnlyLocks s (f a s)
  step : ∀ a, lockOk a = true → ∀ s, (f a s).lockn a = after s a ∧ (∀ b, b ≠ a → (f a s).lockn b = s.lockn b) ∧
    (f a s).notices = s.notices ++ (note s a).toList
  congr : ∀ {s t}, OnlyLocks s t → ∀ {a}, t.lockn a = s.lockn a → after t a = after s a ∧ note t a = note s a

namespace LockStep

variable {f : Nat → State → State} {after : State → Nat → ApproachState} {note : State → Nat → Option Notice}
  (h : LockStep f after note)
include h

theorem fold_only (s : State) : OnlyLocks s (forEach allLocks f s) :=
  forEach_keeps (R := OnlyLocks) OnlyLocks.refl (fun h g => h.trans g) h.only allLocks s

/-- Each lock in turn takes its own step. -/
theorem fold_lockn (s : State) {a : Nat} (ha : lockOk a = true) : (forEach allLocks f s).lockn a = after s a := by
  have fold : ∀ xs : List Nat, xs.Nodup → (∀ x ∈ xs, lockOk x = true) → ∀ s,
      (forEach xs f s).lockn a = if a ∈ xs then after s a else s.lockn a := by
    intro xs
    induction xs with
    | nil => intro _ _ s; rfl
    | cons x xs ih =>
      intro hn hok s
      obtain ⟨hx, hxs⟩ := List.nodup_cons.1 hn
      obtain ⟨okx, okxs⟩ := List.forall_mem_cons.1 hok
      obtain ⟨own, other, -⟩ := h.step x okx s
      rw [forEach_cons, ih hxs okxs]
      by_cases hax : a = x
      · subst hax; simp [hx, own]
      · rw [(h.congr (h.only x s) (other a hax)).1, other a hax]
        simp [hax]
  rw [fold allLocks (by decide) (fun x hx => mem_allLocks.1 hx), if_pos (mem_allLocks.2 ha)]

theorem fold_notices (s : State) : (forEach allLocks f s).notices = s.notices ++ allLocks.filterMap (note s) :=
  forEach_notices allLocks (by decide) (fun a ha s => (h.step a (mem_allLocks.1 ha) s).2.2)
    (fun a ha s b hb => (h.congr (h.only a s) ((h.step a (mem_allLocks.1 ha) s).2.1 b hb)).2) s

end LockStep

/-! ### O41: plungers and hold times -/

theorem State.pressLock_step (k : Nat) : LockStep (State.pressLock k) (fun s => s.pressedLock k) (fun s => s.pressedNotice k) where
  only := State.pressLock_onlyLocks k
  step _ ha s := State.pressLock_spec ha k s
  congr h _ hl := State.pressed_congr h hl

theorem exec_plungerChange {k : Nat} (hk : plungerOk k = true) (pressed : Bool) (s : State) :
    exec (.plungerChange k pressed) s = .next
      (if Bank.at s.plungers k ≠ pressed then
        let s1 := ({ s with plungers := Bank.put s.plungers k pressed } : State).evaluate .verdict
        if pressed then s1.pressLocks k else s1
      else s) := by
  change onObject (plungerOk k) _ = _
  rw [hk, onObject, if_pos rfl]
  simp only [true_and]

theorem exec_approachCountdownStep {a : Nat} (ha : lockOk a = true) (s : State) : exec (.approachCountdownStep a) s = .next
    (if s.countdownDue a then s.updLock a fun r => { r with remaining := r.remaining.map (· - 1) } else s) := by
  change onObject (lockOk a) _ = _
  rw [ha]; rfl

theorem exec_approachExpiry {a : Nat} (ha : lockOk a = true) (s : State) :
    exec (.approachExpiry a) s = .next (if s.expiryDue a then s.freeLock a 6 [] else s) := by
  change onObject (lockOk a) _ = _
  rw [ha]; rfl

/-- R93: the next countdown step of a lock in TIMING. -/
theorem State.nextCountdown_eq {s : State} {a : Nat} {rec : ApproachRec} {m : Nat} (hr : s.approachRec a = some rec)
    (hm : (s.lockn a).remaining = some m) (hp : (s.lockn a).phase = .timing) :
    s.nextCountdown a = some (m, (s.lockn a).since + 100 * (rec.hold.toNat - m + 1)) := by
  unfold State.nextCountdown; rw [hr, hm, hp]; rfl

theorem State.nextCountdown_of_not_timing {s : State} {a : Nat} (hp : (s.lockn a).phase ≠ .timing) :
    s.nextCountdown a = none := by
  unfold State.nextCountdown; split
  · rename_i h _; exact absurd h hp
  · rfl

theorem State.updLock_congr {a : Nat} {f g : ApproachState → ApproachState} {s : State} (h : f (s.lockn a) = g (s.lockn a)) :
    s.updLock a f = s.updLock a g := by
  unfold State.updLock; rw [h]

theorem State.freeLock_verdictsFresh (a row : Nat) (d : List Byte) (s : State) : (s.freeLock a row d).verdictsFresh :=
  State.evaluate_verdictsFresh _ _

/-- R92, R94: a press taken by the locks. -/
theorem plungerPress (s : State) (k : Nat) (pressed : Bool) :
    let u := ({ s with plungers := Bank.put s.plungers k pressed } : State).evaluate .verdict
    let t := if pressed then u.pressLocks k else u
    (∀ a, lockOk a = true → t.lockn a = if pressed then s.pressedLock k a else s.lockn a) ∧
    t.notices = s.notices ++ (if pressed then allLocks.filterMap (s.pressedNotice k) else []) ∧ t.verdictsFresh ∧
    OnlyLocks { s with plungers := Bank.put s.plungers k pressed } t := by
  intro u t
  have only : OnlyEval { s with plungers := Bank.put s.plungers k pressed } u := State.evaluate_only _ _
  have fresh : u.verdictsFresh := State.evaluate_verdictsFresh _ _
  cases pressed with
  | false => exact ⟨fun a _ => only.lockn_eq a, only.notices_eq.trans (List.append_nil _).symm, fresh, only.locks⟩
  | true =>
    have step := State.pressLock_step k
    have same : ∀ a, u.pressedLock k a = s.pressedLock k a ∧ u.pressedNotice k a = s.pressedNotice k a := fun a =>
      State.pressed_congr (s := { s with plungers := Bank.put s.plungers k true }) only.locks (only.lockn_eq a)
    refine ⟨fun a ha => (step.fold_lockn u ha).trans (same a).1, ?_,
      Locking.verdicts.firmly.pressLocks k fresh, only.locks.trans (step.fold_only u)⟩
    rw [show t.notices = _ from step.fold_notices u, only.notices_eq,
      show u.pressedNotice k = s.pressedNotice k from funext fun a => (same a).2]
    rfl

/-- Settles O41. -/
theorem holdTimes : Obligations.HoldTimes := by
  refine ⟨fun s k pressed hk => ⟨fun h => ?_, fun h => ?_⟩, fun s a ha => ⟨fun rec hr m hm hp => ?_, fun hp => ?_⟩⟩
  · rw [exec_plungerChange hk, if_neg (not_not.2 h)]
  · obtain ⟨locks, notices, fresh, only⟩ := plungerPress s k pressed
    have taken := exec_plungerChange hk pressed s
    rw [if_pos h] at taken
    refine ⟨_, taken, ?_⟩
    dsimp only at locks notices fresh only ⊢
    generalize (if pressed then _ else _ : State) = t at locks notices fresh only ⊢
    have plungers : t.plungers = Bank.put s.plungers k pressed := by
      obtain ⟨_, _, _, _, _, rfl⟩ := only; rfl
    have hk : 1 ≤ k ∧ k ≤ 8 := by simpa [plungerOk] using hk
    refine ⟨fun j => ?_, fun a ha => ⟨fun rec hr hrk hp hpr => ?_, fun hno => ?_⟩, ?_, fresh, ?_⟩
    · rw [plungers, Bank.at_put]; simp [hk]
    · rw [locks a ha, hpr, if_pos rfl]
      unfold State.pressedLock State.startedBy
      rw [hr]; simp [hrk, hp, ApproachState.tested]
    · rw [locks a ha]
      split
      · rename_i hpr
        unfold State.pressedLock State.startedBy
        split
        · rfl
        · rename_i rec hr
          rw [if_neg]
          intro hc
          simp only [Bool.and_eq_true, decide_eq_true_eq, beq_iff_eq] at hc
          exact hno ⟨⟨rec, hr, hc.1⟩, hc.2, hpr⟩
      · rfl
    · rw [notices, State.askedBy_eq]
      cases pressed with
      | true => rfl
      | false => simp
    · rw [plungers]
      obtain ⟨lo, no, l, f, fr, rfl⟩ := only
      exact ⟨l, f, fr, s.tracks, s.seqs, s.sections, lo, no, rfl⟩
  · have next := State.nextCountdown_eq hr hm hp
    have countdown : s.countdownDue a = decide (1 < m ∧ (s.lockn a).since + 100 * (rec.hold.toNat - m + 1) ≤ s.now) := by
      unfold State.countdownDue; rw [next]
    have expiry : s.expiryDue a = decide (m ≤ 1 ∧ (s.lockn a).since + 100 * (rec.hold.toNat - m + 1) ≤ s.now) := by
      unfold State.expiryDue; rw [next]
    rw [exec_approachCountdownStep ha, exec_approachExpiry ha]
    unfold Becomes
    rw [exec_approachExpiry ha, countdown, expiry]
    refine ⟨fun due hm1 => ?_, fun due hm1 => ?_, fun hno => ?_⟩
    · rw [if_pos (decide_eq_true ⟨hm1, due⟩), if_neg (by simp; omega)]
      refine ⟨congrArg Host.Outcome.next (State.updLock_congr ?_), rfl⟩
      rw [hm]; rfl
    · rw [if_neg (by simp; omega), if_pos (decide_eq_true ⟨hm1, due⟩)]
      refine ⟨rfl, _, rfl, State.freeLock_lockn ha _ _ s, fun b hb => State.freeLock_lockn_of_ne hb _ _ s,
        State.freeLock_verdictsFresh _ _ _ s, ?_⟩
      obtain ⟨l, f, fr, h⟩ := State.freeLock_eval a 6 [] s
      rw [h]; exact ⟨l, f, fr, rfl⟩
    · rw [if_neg fun h => hno (of_decide_eq_true h).2, if_neg fun h => hno (of_decide_eq_true h).2]
      exact ⟨rfl, rfl⟩
  · have next := State.nextCountdown_of_not_timing hp
    rw [exec_approachCountdownStep ha, exec_approachExpiry ha]
    unfold State.countdownDue State.expiryDue
    rw [next]
    exact ⟨rfl, rfl⟩

/-! ### O54: the deadlines of the bells -/

namespace OnlyFaults

variable {s t : State} (h : OnlyFaults s t)
include h

theorem bell_eq (x : SectionId) : t.bell x = s.bell x := h.eval.bell_eq x
theorem bells_eq : t.bells = s.bells := by obtain ⟨_, _, rfl⟩ := h; rfl
theorem sectn_eq (x : SectionId) : t.sectn x = s.sectn x := h.eval.sectn_eq x
theorem track_eq (n : Nat) : t.track n = s.track n := h.eval.track_eq n

end OnlyFaults

/-- An update of one section's bells, and then the list and the link alone. -/
theorem onlyFaults_updBell {x : SectionId} {f : BellState → BellState} {s t : State} (h : OnlyFaults (s.updBell x f) t) :
    t.bell x = f (s.bell x) ∧ OtherBells x s t ∧ OnlyFaults { s with bells := t.bells } t := by
  refine ⟨(h.bell_eq x).trans (State.bell_updBell_same x f s), fun y hy => (h.bell_eq y).trans ?_, ?_⟩
  · rw [State.bell_updBell, if_neg hy]
  · obtain ⟨l, g, rfl⟩ := h
    exact ⟨l, g, rfl⟩

namespace State

/-- R112: a crossed section has been silent for the code end gap. -/
theorem crossClearDue_iff (s : State) (x : SectionId) : s.crossClearDue x = true ↔
    (s.bell x).crossed = true ∧ ∃ d, (s.bell x).silentSince = some d ∧ d + s.timing.codeEndGap.toNat ≤ s.now := by
  unfold State.crossClearDue
  cases (s.bell x).silentSince <;> simp

theorem slotDue_iff (s : State) (x : SectionId) (o : Slot) :
    s.slotDue x (some o) = true ↔ (s.bell x).heldSince = none ∧ o.deadline ≤ s.now := by
  unfold State.slotDue; simp

/-- R117: a slot that is absent, held or still in time is not due. -/
theorem not_slotDue {s : State} {x : SectionId} {slot : Option Slot} {o : Slot} (ho : slot = some o)
    (h : slot = none ∨ (s.bell x).heldSince ≠ none ∨ ∃ o, slot = some o ∧ s.now < o.deadline) :
    ¬s.slotDue x (some o) = true := by
  rw [slotDue_iff]
  rintro ⟨hheld, hdue⟩
  rcases h with h | h | ⟨o', h, hlt⟩
  · rw [ho] at h; cases h
  · exact h hheld
  · rw [ho] at h; cases h; exact absurd hdue (Nat.not_le.2 hlt)

end State

/-- Settles O54. -/
theorem bellDeadlines : Obligations.BellDeadlines := by
  intro s x silent
  have due : s.crossClearDue x = true ↔ silent := s.crossClearDue_iff x
  have cleared : exec (.crossingCleared x) s = .next (if s.crossClearDue x then
      ((s.updBell x fun b => { b with crossed := false, silentSince := none }).endIf (s.bellFaults x) .bellCrossed
        (secCode x).toNat).bellReport x 11 []
      else s) := rfl
  refine ⟨fun h => ?_, fun h => ?_, fun h => ?_, fun o ho hh hd => ?_, fun h => ?_, fun o ho hh hd => ?_⟩
  · rw [cleared, if_neg (mt due.1 h)]
  · rw [if_pos (due.2 h)] at cleared
    have only : OnlyFaults (s.updBell x fun b => { b with crossed := false, silentSince := none }) _ :=
      (State.endIf_only (s.bellFaults x) .bellCrossed (secCode x).toNat _).trans
        (State.report_only .bell (secCode x).toNat 11 [] _).faults
    obtain ⟨bell, others, rest⟩ := onlyFaults_updBell only
    refine ⟨_, cleared, bell, others, fun hf => ?_, rest⟩
    exact (State.report_faultOver _ _ _ _ _).2 (State.endIf_over _ _ fun hb => by
      rw [show s.bellFaults x = s.sectionFitted x from rfl, hf] at hb; cases hb)
  · change Host.Outcome.next _ = _
    cases ho : (s.bell x).awaited with
    | none => rfl
    | some o => dsimp only; rw [if_neg (State.not_slotDue ho h)]
  · have taken : exec (.awaitedDeadline x) s = .next (((s.updBell x fun b => { b with awaited := none }).raiseAndEnd
        .bellNotRepeated (secCode x).toNat).bellReport x 9 [byte o.entry]) := by
      change Host.Outcome.next _ = _
      rw [ho]; dsimp only; rw [if_pos ((s.slotDue_iff x o).2 ⟨hh, hd⟩)]
    have only : OnlyFaults (s.updBell x fun b => { b with awaited := none }) _ :=
      (State.raise_onlyFaults (c := .bellNotRepeated) rfl true (secCode x).toNat _).trans
        (State.report_only .bell (secCode x).toNat 9 [byte o.entry] _).faults
    obtain ⟨bell, others, rest⟩ := onlyFaults_updBell only
    refine ⟨_, taken, bell, others, ?_, rest⟩
    rw [show (State.bellReport x 9 [byte o.entry] _).faults = _ from State.report_faults _ _ _ _ _]
    exact State.enterRaise_entered .bellNotRepeated (secCode x).toNat true _
  · change Host.Outcome.next _ = _
    cases ho : (s.bell x).owed with
    | none => rfl
    | some o => dsimp only; rw [if_neg (State.not_slotDue ho h)]
  · change Host.Outcome.next _ = _
    rw [ho]; dsimp only; rw [if_pos ((s.slotDue_iff x o).2 ⟨hh, hd⟩)]; rfl

/-! ### The sections under the events of the block unit -/

/-- Nothing but the sections and what an evaluation reaches. -/
def OnlySections (s t : State) : Prop := ∃ se, OnlyEval { s with sections := se } t

/-- Nothing but the sections and the link unit. -/
def OnlyRecords (s t : State) : Prop := ∃ se, OnlyLink { s with sections := se } t

theorem OnlyEval.sections {s t : State} (h : OnlyEval s t) : OnlySections s t := ⟨s.sections, h⟩

theorem OnlyLink.records {s t : State} (h : OnlyLink s t) : OnlyRecords s t := ⟨s.sections, h⟩

namespace OnlyRecords

variable {s t u : State} (h : OnlyRecords s t)
include h

theorem trans (g : OnlyRecords t u) : OnlyRecords s u := by
  obtain ⟨_, _, rfl⟩ := h
  obtain ⟨se, l, rfl⟩ := g
  exact ⟨se, l, rfl⟩

theorem sections : OnlySections s t := by
  obtain ⟨se, h⟩ := h
  exact ⟨se, h.eval⟩

theorem kept : OnlyLink { s with sections := t.sections } t := by
  obtain ⟨_, _, rfl⟩ := h
  exact ⟨_, rfl⟩

end OnlyRecords

namespace OnlySections

variable {s t u : State} (h : OnlySections s t)
include h

theorem trans (g : OnlySections t u) : OnlySections s u := by
  obtain ⟨_, _, _, _, rfl⟩ := h
  obtain ⟨se, l, f, fr, rfl⟩ := g
  exact ⟨se, l, f, fr, rfl⟩

theorem kept : OnlyEval { s with sections := t.sections } t := by
  obtain ⟨_, _, _, _, rfl⟩ := h
  exact ⟨_, _, _, rfl⟩

theorem answers_eq : t.answers = s.answers := by obtain ⟨_, _, _, _, rfl⟩ := h; rfl
theorem notices_eq : t.notices = s.notices := by obtain ⟨_, _, _, _, rfl⟩ := h; rfl
theorem now_eq : t.now = s.now := by obtain ⟨_, _, _, _, rfl⟩ := h; rfl
theorem epoch_eq : t.epoch = s.epoch := by obtain ⟨_, _, _, _, rfl⟩ := h; rfl
theorem store_eq : t.store = s.store := by obtain ⟨_, _, _, _, rfl⟩ := h; rfl
theorem seqn_eq (q : Nat) : t.seqn q = s.seqn q := by obtain ⟨_, _, _, _, rfl⟩ := h; rfl
theorem track_eq (n : Nat) : t.track n = s.track n := by obtain ⟨_, _, _, _, rfl⟩ := h; rfl

theorem sectionRec_eq (x : SectionId) : t.sectionRec x = s.sectionRec x := by
  unfold State.sectionRec State.table; rw [h.store_eq]

end OnlySections

theorem onlyRecords_updSect (x : SectionId) (f : SectionState → SectionState) (s : State) : OnlyRecords s (s.updSect x f) :=
  ⟨(s.updSect x f).sections, s.link, rfl⟩

theorem sectn_updSect_of_ne {x y : SectionId} (h : y ≠ x) (f : SectionState → SectionState) (s : State) :
    (s.updSect x f).sectn y = s.sectn y := by
  rw [State.sectn_updSect, if_neg h]

theorem OnlyLink.sectn_eq {s t : State} (h : OnlyLink s t) (y : SectionId) : t.sectn y = s.sectn y := h.eval.sectn_eq y

namespace State

/-- R148: where no cause comes to stand, the edge of INDICATOR_MISMATCH is its end or nothing. -/
theorem mismatchEdge_onlyFaults {x : SectionId} {was : Bool} {s : State} (h : (s.sectn x).mismatch = true → was = true) :
    OnlyFaults s (s.mismatchEdge x was) := by
  unfold State.mismatchEdge; dsimp only; split
  · rename_i begins
    simp only [Bool.and_eq_true, Bool.not_eq_true'] at begins
    rw [h begins.2] at begins; exact absurd begins.1 (by decide)
  · split
    · exact State.endFault_only _ _ _
    · exact OnlyFaults.refl s

theorem correspond_onlyRecords (x : SectionId) (s : State) : OnlyRecords s (s.correspond x) := by
  unfold State.correspond; dsimp only; split
  · exact (OnlyLink.refl s).records
  · split
    · exact (OnlyLink.refl s).records
    · split
      · split
        · exact (onlyRecords_updSect _ _ s).trans (State.backReport_only _ _).records
        · exact (OnlyLink.refl s).records
      · exact (onlyRecords_updSect _ _ s).trans (State.outReport_only _ _).records

/-- R129, R130, R134: an entry into a state reaches its section and the evaluator. -/
theorem enterState_onlySections (x : SectionId) (b : BlockState) (w : StateCause) (rs : List (Nat × List Byte)) (s : State) :
    OnlySections s (s.enterState x b w rs) := by
  unfold State.enterState; dsimp only
  refine OnlySections.trans ?_ (State.evaluate_only _ _).sections
  refine OnlySections.trans ?_ (correspond_onlyRecords _ _).sections
  refine OnlySections.trans ?_ ((State.sectReport_only x 1 _ _).eval.trans (State.sectReports_only x rs _).eval).sections
  refine (onlyRecords_updSect _ _ s).sections.trans (mismatchEdge_onlyFaults fun h => ?_).eval.sections
  rw [State.sectn_updSect_same] at h
  exact (State.entered_eq b _).2 h

theorem enterState_sectn_same (x : SectionId) (b : BlockState) (w : StateCause) (rs : List (Nat × List Byte)) (s : State) :
    (s.enterState x b w rs).sectn x = (s.sectn x).entered b := by
  rw [State.enterState_sectn, if_pos rfl]

theorem enterState_sectn_of_ne {x y : SectionId} (h : y ≠ x) (b : BlockState) (w : StateCause) (rs : List (Nat × List Byte))
    (s : State) : (s.enterState x b w rs).sectn y = s.sectn y := by
  rw [State.enterState_sectn, if_neg h]

end State

/-! ### O48: attention, and the answers to a section -/

/-- R143: a section whose notification is answered. -/
def SectionState.unasked (r : SectionState) : SectionState := { r with consumeAsked := false }

/-- R143: an answer of the present table, for a fitted section. -/
theorem State.blockAnswer_spec (x : SectionId) {a : Answer} {s : State} (he : a.epoch = s.epoch)
    (hf : s.sectionFitted x = true) :
    (s.blockAnswer x a).sectn x =
      (if a.consumed = true ∧ (s.sectn x).state = some .onLineIn ∧ (s.sectn x).frozen = false then
        (s.sectn x).unasked.entered .blocked
       else (s.sectn x).unasked) ∧
    (∀ y, y ≠ x → (s.blockAnswer x a).sectn y = s.sectn y) ∧ OnlySections s (s.blockAnswer x a) := by
  let u := s.updSect x SectionState.unasked
  have own : u.sectn x = (s.sectn x).unasked := State.sectn_updSect_same _ _ _
  have others : ∀ y, y ≠ x → u.sectn y = s.sectn y := fun y hy => sectn_updSect_of_ne hy _ s
  have only : OnlySections s u := (onlyRecords_updSect _ _ s).sections
  unfold State.blockAnswer
  rw [if_pos ⟨he, hf⟩]; dsimp only
  by_cases h : a.consumed = true ∧ (s.sectn x).state = some .onLineIn
  · rw [if_pos h]
    by_cases hz : (s.sectn x).frozen = true
    · have report : OnlyLink u (u.sectReport x 7 [1]) := State.sectReport_only _ _ _ _
      rw [if_pos hz, if_neg (by simp [hz])]
      exact ⟨(report.sectn_eq x).trans own, fun y hy => (report.sectn_eq y).trans (others y hy),
        only.trans report.eval.sections⟩
    · rw [if_neg hz, if_pos ⟨h.1, h.2, by simpa using hz⟩]
      refine ⟨(State.enterState_sectn_same x _ _ _ u).trans (by rw [own]), fun y hy => ?_,
        only.trans (State.enterState_onlySections _ _ _ _ u)⟩
      exact (State.enterState_sectn_of_ne hy _ _ _ u).trans (others y hy)
  · rw [if_neg h, if_neg fun hc => h ⟨hc.1, hc.2.1⟩]
    exact ⟨own, others, only⟩

theorem exec_blockConsumptionAnswer (x : SectionId) (s : State) : exec (.blockConsumptionAnswer x) s = .next
    (match takeFirst (fun a : Answer => a.consumer == .block x) s.answers with
    | none => s
    | some (a, rest) => ({ s with answers := rest } : State).blockAnswer x a) := rfl

theorem exec_attentionLapsed (x : SectionId) (s : State) : exec (.attentionLapsed x) s = .next
    (match (s.sectn x).attention with
    | none => s
    | some t =>
      if t ≤ s.now then (s.updSect x fun r => { r with attention := none }).sectReport x 6 [0] else s) := rfl

/-- Settles O48. -/
theorem attentionAndBlockAnswers : Obligations.AttentionAndBlockAnswers := by
  refine ⟨fun s x => ⟨fun h => ?_, fun d hd hnow => ?_⟩, fun s x => ?_⟩
  · rw [exec_attentionLapsed]
    rcases h with h | ⟨d, hd, hlt⟩
    · rw [h]
    · rw [hd]; dsimp only; rw [if_neg (Nat.not_le.2 hlt)]
  · rw [exec_attentionLapsed, hd]; dsimp only; rw [if_pos hnow]; rfl
  · have taken : ∀ before a after, s.answers = before ++ a :: after → (∀ y ∈ before, y.consumer ≠ .block x) →
        a.consumer = .block x → exec (.blockConsumptionAnswer x) s =
          .next (({ s with answers := before ++ after } : State).blockAnswer x a) := fun before a after h hb hx => by
      rw [exec_blockConsumptionAnswer, h, takeFirst_append (by simpa using hb) (by simpa using hx)]
    refine ⟨fun h => ?_, fun before a after h hb hx hold => ?_, fun before a after h hb hx he hf => ?_⟩
    · rw [exec_blockConsumptionAnswer, takeFirst_eq_none (by simpa using h)]
    · rw [taken before a after h hb hx]
      unfold State.blockAnswer
      rw [if_neg]
      rintro ⟨he, hf⟩
      exact hold.elim (· he) (fun h => by rw [show s.sectionFitted x = true from hf] at h; cases h)
    · obtain ⟨own, others, only⟩ := State.blockAnswer_spec (s := { s with answers := before ++ after }) x he hf
      refine ⟨_, taken before a after h hb hx, only.answers_eq, ?_, others, fun h1 h2 h3 => ?_, fun hno => ?_, ?_⟩
      · rw [own]; split <;> rfl
      · exact own.trans (if_pos ⟨h1, h2, h3⟩)
      · exact own.trans (if_neg hno)
      · rw [only.answers_eq]; exact only.kept

/-! ### What the steps of the field leave of the list and the frame supply -/

/-- A predicate of the fault list and the frame supply that the ends of conditions keep. -/
structure Steady (P : State → Prop) : Prop where
  congr : ∀ s t : State, t.faults = s.faults → t.frame.supplyOn = s.frame.supplyOn → P s → P t
  endFault : ∀ c o s, P s → P (s.endFault c o)

namespace Steady

variable {P : State → Prop} (h : Steady P)
include h

theorem report (c : Category) (o e : Nat) (d : List Byte) (s : State) (hs : P s) : P (s.report c o e d) :=
  h.congr s _ (State.report_faults _ _ _ _ _) (congrArg FrameUnit.supplyOn (State.report_frame _ _ _ _ _)) hs

/-- No step but a raise, and the cut and the restoration of the frame supply, makes a difference to it. -/
theorem settling : Settling (fun _ => True) P P where
  rough := {
    report := h.report
    endFault := h.endFault
    lever := fun _ _ s _ _ => h.congr s _ rfl rfl
    track := fun _ _ s _ => h.congr s _ rfl rfl
    seq := fun _ _ s _ => h.congr s _ rfl rfl
    lock := fun _ _ s _ => h.congr s _ rfl rfl
    sect := fun _ _ s _ _ => h.congr s _ rfl rfl
    notice := fun _ _ s => h.congr s _ rfl rfl }
  firm := {
    report := h.report
    endFault := h.endFault
    lever := fun _ _ s _ _ => h.congr s _ rfl rfl
    track := fun _ _ s _ _ => h.congr s _ rfl rfl
    seq := fun _ _ s _ _ => h.congr s _ rfl rfl
    lock := fun _ _ s _ _ => h.congr s _ rfl rfl
    sect := fun _ _ s _ => h.congr s _ rfl rfl
    notice := fun _ _ s => h.congr s _ rfl rfl }
  weaken _ := id
  evaluate c _ hs := State.evaluate_keeps h.report (h.endFault .lockDrive) (fun _ _ s => h.congr s _ rfl rfl) c hs
  unfitted _ _ s _ _ _ _ _ := h.congr s _ rfl rfl

end Steady

theorem steady_over (c : FaultClass) (o : Nat) : Steady (State.faultOver c o) where
  congr _ _ hf _ hs := (State.faultOver_congr hf).2 hs
  endFault d p _ hs := State.endFault_keeps_over d p hs

theorem steady_supplyOn (b : Bool) : Steady fun s => s.frame.supplyOn = b where
  congr _ _ _ hk hs := hk.trans hs
  endFault c o s hs := by rw [(State.endFault_only c o s).frame_eq]; exact hs

theorem steady_frozenSet (z : BitVec 4) : Steady fun s => s.faults.frozenSet = z where
  congr _ _ hf _ hs := by rw [hf]; exact hs
  endFault c o s hs := by
    obtain ⟨g, -, h⟩ := s.endFault_faults c o
    rw [h]; exact hs

/-- R155, R159: neither the masks nor the response of an entry change at an end. -/
theorem State.endFault_unmaskedFor (c d : FaultClass) (o p : Nat) (s : State) :
    (s.endFault c o).faults.unmaskedFor d p = s.faults.unmaskedFor d p := by
  have entry : ((s.endFault c o).faults.entryOf d p).any (·.unmasked) = (s.faults.entryOf d p).any (·.unmasked) := by
    rw [State.endFault_entryOf]
    cases s.faults.entryOf d p with
    | none => rfl
    | some e => simp only [Option.map_some, Option.any_some]; unfold FaultEntry.endedBy; split <;> rfl
  have masked : (s.endFault c o).faults.masked = s.faults.masked := by
    obtain ⟨g, -, h⟩ := s.endFault_faults c o
    rw [h]
  unfold Supervisor.unmaskedFor; rw [entry, masked]

theorem steady_unmaskedFor (c : FaultClass) (o : Nat) (b : Bool) : Steady fun s => s.faults.unmaskedFor c o = b where
  congr _ _ hf _ hs := by rw [hf]; exact hs
  endFault d p s hs := by rw [State.endFault_unmaskedFor]; exact hs

/-! ### O44: the indicator -/

/-- R137: what a measured polarity makes of early clear. -/
def SectionState.clearedEarly (b : BlockState) (m : Polarity) (r : SectionState) : SectionState :=
  { r with earlyClear := if (b = .blocked ∨ b = .onLineOut) ∧ m = .positive then true
                         else if b = .blocked ∧ m = .none then false else r.earlyClear }

/-- R137: a section's record after a measured polarity taken under its state. -/
def SectionState.followed (b : BlockState) (m : Polarity) (r : SectionState) : SectionState :=
  (if polarityNext b m = b then r else r.entered (polarityNext b m)).clearedEarly b m

theorem polarityOutOfTurn_eq {s : State} {x : SectionId} {b : BlockState} (hb : (s.sectn x).state = some b) :
    s.polarityOutOfTurn x = polarityIrregular b (s.sectn x).measured (s.sectn x).releaseUsed := by
  unfold State.polarityOutOfTurn; dsimp only; rw [hb]
  cases b <;> cases (s.sectn x).measured <;> rfl

namespace State

theorem followPolarity_onlySections (x : SectionId) (c : Bool) (s : State) : OnlySections s (s.followPolarity x c) := by
  have stay : ∀ rs, OnlySections s (s.sectReports x rs) := fun rs => (State.sectReports_only x rs s).eval.sections
  have enter := fun b w rs => enterState_onlySections x b w rs s
  have upd : ∀ {t : State}, OnlySections s t → ∀ f, OnlySections s (t.updSect x f) := fun ht f =>
    ht.trans (onlyRecords_updSect x f _).sections
  have early : ∀ {t : State} f r d, OnlySections s t → OnlySections s ((t.updSect x f).sectReport x r d) :=
    fun f r d ht => (upd ht f).trans (State.sectReport_only x r d _).eval.sections
  unfold State.followPolarity; dsimp only; split
  · exact stay _
  · split
    · exact early _ _ _ (stay _)
    · exact enter _ _ _
    · split
      · exact early _ _ _ (stay _)
      · exact stay _
    · exact enter _ _ _
    · exact enter _ _ _
    · exact enter _ _ _
    · exact enter _ _ _
    · exact enter _ _ _
    · exact enter _ _ _
    · exact upd (enter _ _ _) _
    · exact enter _ _ _
    · exact stay _

end State

namespace State

/-- R137: what a measured polarity makes of a section that is not frozen, and of no other. -/
theorem followPolarity_sectn {x : SectionId} {b : BlockState} {s : State} (hb : (s.sectn x).state = some b)
    (hz : (s.sectn x).frozen = false) (c : Bool) (y : SectionId) : (s.followPolarity x c).sectn y =
      if y = x then (s.sectn x).followed b (s.sectn x).measured else s.sectn y := by
  have stay : ∀ rs, (s.sectn x).followed b (s.sectn x).measured = s.sectn x → (s.sectReports x rs).sectn y =
      if y = x then (s.sectn x).followed b (s.sectn x).measured else s.sectn y := fun rs h => by
    rw [(State.sectReports_only x rs s).sectn_eq, h]; split
    · subst y; rfl
    · rfl
  have enter : ∀ a w rs, (s.sectn x).followed b (s.sectn x).measured = (s.sectn x).entered a → (s.enterState x a w rs).sectn y =
      if y = x then (s.sectn x).followed b (s.sectn x).measured else s.sectn y := fun a w rs h => by
    rw [State.enterState_sectn, h]
  have early : ∀ (t : State) (f : SectionState → SectionState) (r : SectionState) (g : State → State),
      (∀ u, (g u).sectn y = u.sectn y) → (∀ z, t.sectn z = if z = x then r else s.sectn z) →
      (s.sectn x).followed b (s.sectn x).measured = f r → (g (t.updSect x f)).sectn y =
      if y = x then (s.sectn x).followed b (s.sectn x).measured else s.sectn y := fun t f r g hg ht h => by
    rw [hg, State.sectn_updSect, ht x, if_pos rfl, h, ht y]
    split <;> rfl
  have reported : ∀ rs z, (s.sectReports x rs).sectn z = if z = x then s.sectn x else s.sectn z := fun rs z => by
    rw [(State.sectReports_only x rs s).sectn_eq]; split
    · subst z; rfl
    · rfl
  have sent : ∀ r d (u : State), (u.sectReport x r d).sectn y = u.sectn y := fun r d u =>
    (State.sectReport_only x r d u).sectn_eq y
  have row : ∀ {a m}, (s.sectn x).state = some a → (s.sectn x).measured = m →
      (s.sectn x).followed b (s.sectn x).measured = (s.sectn x).followed a m := fun ha hm => by
    rw [hm, Option.some.inj (hb.symm.trans ha)]
  unfold State.followPolarity; dsimp only
  rw [if_neg (by simp [hz])]
  split
  · rename_i h1 h2
    exact early _ _ _ _ (sent 4 [0]) (reported _) (row h1 h2)
  · rename_i h1 h2; exact enter _ _ _ (row h1 h2)
  · rename_i h1 h2
    split
    · exact early _ _ _ _ (sent 4 [1]) (reported _) (row h1 h2)
    · rename_i he
      have clear : (s.sectn x).followed .blocked .none = { s.sectn x with earlyClear := false } := rfl
      exact stay _ ((row h1 h2).trans (clear.trans (by rw [← show (s.sectn x).earlyClear = false by simpa using he])))
  · rename_i h1 h2; exact enter _ _ _ (row h1 h2)
  · rename_i h1 h2; exact enter _ _ _ (row h1 h2)
  · rename_i h1 h2; exact enter _ _ _ (row h1 h2)
  · rename_i h1 h2; exact enter _ _ _ (row h1 h2)
  · rename_i h1 h2; exact enter _ _ _ (row h1 h2)
  · rename_i h1 h2; exact enter _ _ _ (row h1 h2)
  · rename_i h1 h2
    exact early _ _ _ id (fun _ => rfl) (fun z => State.enterState_sectn _ _ _ _ _ _) (row h1 h2)
  · rename_i h1 h2; exact enter _ _ _ (row h1 h2)
  · refine stay _ ?_
    cases hm : (s.sectn x).measured <;> cases b <;> first | rfl | simp_all

end State

/-- R144: nothing in a frozen section, or one with state none, but the report. -/
theorem State.takePolarity_stands {x : SectionId} {c : Bool} {s : State}
    (h : (s.sectn x).frozen = true ∨ (s.sectn x).state = none) :
    s.takePolarity x c = s.sectReports x (if c then [indicatorRow (s.sectn x).measured (s.sectn x).state] else []) := by
  have quiet : ¬((s.sectn x).frozen = false ∧ s.polarityOutOfTurn x = true) := by
    rintro ⟨hz, hp⟩
    rcases h with h | h
    · rw [hz] at h; cases h
    · unfold State.polarityOutOfTurn at hp; dsimp only at hp; rw [h] at hp; cases hp
  unfold State.takePolarity
  rw [if_neg quiet]
  unfold State.followPolarity; dsimp only
  rcases h with h | h
  · rw [if_pos h]
  · rw [h]; split <;> rfl

/-- R155, R156: what an irregular working does to its section, and what it leaves. -/
theorem State.irregular_sectn (x y : SectionId) (s : State) : (s.irregular x).sectn y =
    if y = x ∧ s.faults.unmaskedFor .blockIrregular (secCode x).toNat = true then (s.sectn x).frozenBy else s.sectn y := by
  have entered : ∀ z, (s.enterRaise .blockIrregular (secCode x).toNat true).sectn z = s.sectn z := fun z =>
    (State.enterRaise_only _ _ _ s).sectn_eq z
  unfold State.irregular State.raiseAndEnd
  cases hu : s.faults.unmaskedFor .blockIrregular (secCode x).toNat with
  | true =>
    rw [State.raiseWith_of_order rfl hu]
    have code : secOfCode (secCode x).toNat = some x := (secOfCode_toNat _ x).2 rfl
    simp only [State.deliver, code]
    rw [State.freezeSection_sectn]
    have same : ∀ z, ((s.enterRaise .blockIrregular (secCode x).toNat true).register .freeze (secCode x).toNat).sectn z =
        s.sectn z := entered
    rw [same, same]; simp
  | false =>
    have stays : s.raiseWith true .blockIrregular (secCode x).toNat = s.enterRaise .blockIrregular (secCode x).toNat true := by
      unfold State.raiseWith; rw [hu]; rfl
    rw [stays, entered]; simp

/-- R157, R158, R160: a raise leaves an entry or the overflow flag, under its order too. -/
theorem State.raiseWith_entered (m : Bool) (c : FaultClass) (o : Nat) (s : State) :
    (∃ e ∈ (s.raiseWith m c o).faults.entries, e.cls = c ∧ e.object = o) ∨ (s.raiseWith m c o).faults.overflow = true := by
  refine State.raiseWith_keeps (P := fun u => (∃ e ∈ u.faults.entries, e.cls = c ∧ e.object = o) ∨ u.faults.overflow = true)
    (fun p u hu => ?_) (fun u v hv hu => by rw [hv]; exact hu) (fun r _ u hu => by cases r <;> exact hu) m c o
    (State.enterRaise_entered c o m s)
  obtain ⟨g, hg, h⟩ := u.endFault_faults .lockDrive p
  rw [h]
  refine hu.imp_left ?_
  rintro ⟨e, he, hc, ho⟩
  obtain ⟨-, hgc, -, hgo⟩ := hg e
  exact ⟨g e, List.mem_map.2 ⟨e, he, rfl⟩, hgc.trans hc, hgo.trans ho⟩

theorem OnlySections.orders {s t : State} (h : OnlySections s t) : OnlyOrders s t := by
  obtain ⟨se, l, f, fr, rfl⟩ := h
  exact ⟨l, f, fr, s.tracks, s.seqs, se, rfl⟩

/-- R137: the measured polarity taken under the state of a section that is not frozen. -/
theorem State.takePolarity_sectn {x : SectionId} {b : BlockState} {s : State} (hb : (s.sectn x).state = some b)
    (hz : (s.sectn x).frozen = false) (c : Bool) (y : SectionId) : (s.takePolarity x c).sectn y =
      if y = x then
        { (s.sectn x).followed b (s.sectn x).measured with
          frozen := polarityIrregular b (s.sectn x).measured (s.sectn x).releaseUsed &&
            s.faults.unmaskedFor .blockIrregular (secCode x).toNat }
      else s.sectn y := by
  have unfrozen : ((s.sectn x).followed b (s.sectn x).measured).frozen = false := by
    rw [← hz]; unfold SectionState.followed SectionState.clearedEarly; dsimp only; split <;> rfl
  have unmasked : (s.followPolarity x c).faults.unmaskedFor .blockIrregular (secCode x).toNat =
      s.faults.unmaskedFor .blockIrregular (secCode x).toNat :=
    (steady_unmaskedFor .blockIrregular (secCode x).toNat _).settling.followPolarity x c rfl
  unfold State.takePolarity
  rw [polarityOutOfTurn_eq hb]
  by_cases out : polarityIrregular b (s.sectn x).measured (s.sectn x).releaseUsed = true
  · rw [if_pos ⟨hz, out⟩, State.irregular_sectn, unmasked, followPolarity_sectn hb hz, followPolarity_sectn hb hz, out,
      if_pos rfl]
    by_cases hy : y = x
    · cases hu : s.faults.unmaskedFor .blockIrregular (secCode x).toNat with
      | true => simp [hy, SectionState.frozenBy]
      | false => simp [hy]; rw [← unfrozen]
    · simp [hy]
  · rw [if_neg fun h => out h.2, followPolarity_sectn hb hz]
    have out : polarityIrregular b (s.sectn x).measured (s.sectn x).releaseUsed = false := by simpa using out
    split
    · rw [out, Bool.false_and, ← unfrozen]
    · rfl

/-- Settles O44. -/
theorem indicatorRules : Obligations.IndicatorRules := by
  intro s x changed t
  refine ⟨fun h => ?_, fun b hb hz => ?_⟩
  · have stands : t = _ := State.takePolarity_stands h
    rw [stands]
    exact ⟨State.sectReports_only _ _ _, fun hc => by rw [hc]; rfl⟩
  · intro m out moved
    have sectn : ∀ y, t.sectn y = _ := fun y => State.takePolarity_sectn hb hz changed y
    refine ⟨?_, fun hout => ?_, fun y hy => by rw [sectn, if_neg hy], State.takePolarity_only _ _ s⟩
    · rw [sectn, if_pos rfl]; rfl
    · have raised : t = (s.followPolarity x changed).irregular x := by
        unfold t State.takePolarity
        rw [polarityOutOfTurn_eq hb, if_pos ⟨hz, hout⟩]
      rw [raised]
      exact State.raiseWith_entered true .blockIrregular _ _

/-! ### Exchanges and the held handle -/

/-- The sections but `x` are as they were. -/
def OtherSections (x : SectionId) (s t : State) : Prop := ∀ y, y ≠ x → t.sectn y = s.sectn y

theorem OtherSections.trans {x : SectionId} {s t u : State} (h : OtherSections x s t) (g : OtherSections x t u) :
    OtherSections x s u := fun y hy => (g y hy).trans (h y hy)

theorem OnlyLink.otherSections {s t : State} (h : OnlyLink s t) (x : SectionId) : OtherSections x s t := fun y _ => h.sectn_eq y

theorem OnlyEval.otherSections {s t : State} (h : OnlyEval s t) (x : SectionId) : OtherSections x s t := fun y _ => h.sectn_eq y

theorem otherSections_updSect (x : SectionId) (f : SectionState → SectionState) (s : State) :
    OtherSections x s (s.updSect x f) := fun _ hy => sectn_updSect_of_ne hy f s

theorem otherSections_enterState (x : SectionId) (b : BlockState) (w : StateCause) (rs : List (Nat × List Byte)) (s : State) :
    OtherSections x s (s.enterState x b w rs) := fun _ hy => State.enterState_sectn_of_ne hy b w rs s

/-- Nothing but the sections, the notifications and the link unit. -/
def OnlyAsking (s t : State) : Prop := ∃ se no, OnlyLink { s with sections := se, notices := no } t

theorem OnlyAsking.kept {s t : State} (h : OnlyAsking s t) :
    OnlyLink { s with sections := t.sections, notices := t.notices } t := by
  obtain ⟨_, _, _, rfl⟩ := h
  exact ⟨_, rfl⟩

theorem OnlyAsking.trans {s t u : State} (h : OnlyAsking s t) (g : OnlyAsking t u) : OnlyAsking s u := by
  obtain ⟨_, _, _, rfl⟩ := h
  obtain ⟨se, no, l, rfl⟩ := g
  exact ⟨se, no, l, rfl⟩

theorem OnlyRecords.asking {s t : State} (h : OnlyRecords s t) : OnlyAsking s t := by
  obtain ⟨se, l, rfl⟩ := h
  exact ⟨se, s.notices, l, rfl⟩

theorem OnlyRecords.sectionRec_eq {s t : State} (h : OnlyRecords s t) (x : SectionId) : t.sectionRec x = s.sectionRec x :=
  h.sections.sectionRec_eq x

namespace State

/-- R142: the handle of a section is held under a rule that can still complete, and a re-test acts on it. -/
def retestable (s : State) (x : SectionId) : Prop :=
  (s.sectn x).retest = true ∧ (s.sectn x).frozen = false ∧ s.isStoring = false

theorem isStoring_eq_false (s : State) : s.isStoring = false ↔ s.store.part ≠ .storing := by
  unfold State.isStoring; simp

/-- R143: whether a section asks the monitor for the latch of its arrival sequence. -/
def blockBack (s : State) (x : SectionId) (rec : SectionRec) : Prop :=
  (s.sectn x).outSent = true ∧ (s.seqn rec.arrival.toNat).latch = true ∧ (s.sectn x).consumeAsked = false ∧
    (s.sectn x).frozen = false

end State

/-- R143: a section that has asked. -/
def SectionState.asked (r : SectionState) : SectionState := { r with consumeAsked := true }

theorem onlyAsking_asked (x : SectionId) (q : Nat) (s : State) :
    OnlyAsking s ((s.updSect x SectionState.asked).sendNotice (.block x) q) :=
  ⟨(s.updSect x SectionState.asked).sections, (s.sendNotice (.block x) q).notices, s.link, rfl⟩

namespace State

theorem blockBackTest_of_asks {x : SectionId} {s : State} {rec : SectionRec} (hr : s.sectionRec x = some rec)
    (h : s.blockBack x rec) : s.blockBackTest x = (s.updSect x SectionState.asked).sendNotice (.block x) rec.arrival.toNat := by
  unfold State.blockBackTest; rw [hr]; exact if_pos h

theorem blockBackTest_of_not_asks {x : SectionId} {s : State} {rec : SectionRec} (hr : s.sectionRec x = some rec)
    (h : ¬s.blockBack x rec) : s.blockBackTest x = s := by
  unfold State.blockBackTest; rw [hr]; exact if_neg h

/-- R142: the report that an exchange which brought a re-test makes. -/
def broughtRow (brought : Option Exchange) (b : Option BlockState) : List (Nat × List Byte) :=
  (brought.map fun e => exchangeRow e .acted b).toList

section Retest

variable {x : SectionId} {s : State} (o : Option Exchange)

theorem retest_of_not_retestable (h : ¬s.retestable x) :
    s.retestHandle x o = s.sectReports x (broughtRow o (s.sectn x).state) := if_neg h

theorem retest_offeredIn (h : s.retestable x) (hs : (s.sectn x).state = some .offeredIn)
    (hh : (s.sectn x).handle = .lineClear) : s.retestHandle x o =
      if s.clearAllowed x then s.enterState x .clearIn .handle (broughtRow o (some .clearIn))
      else s.sectReports x (broughtRow o (s.sectn x).state) := by
  obtain ⟨h1, h2, h3⟩ := h
  unfold State.retestHandle; dsimp only; rw [if_pos ⟨h1, h2, h3⟩, hs, hh]; rfl

theorem retest_clearIn (h : s.retestable x) (hs : (s.sectn x).state = some .clearIn)
    (hh : (s.sectn x).handle = .lineBlocked) : s.retestHandle x o =
      if (s.sectn x).cancelReceived then s.enterState x .blocked .handle (broughtRow o (some .blocked))
      else s.sectReports x (broughtRow o (s.sectn x).state) := by
  obtain ⟨h1, h2, h3⟩ := h
  unfold State.retestHandle; dsimp only; rw [if_pos ⟨h1, h2, h3⟩, hs, hh]; rfl

theorem retest_onLineIn (h : s.retestable x) (hs : (s.sectn x).state = some .onLineIn)
    (hh : (s.sectn x).handle = .lineBlocked) :
    s.retestHandle x o = (s.sectReports x (broughtRow o (s.sectn x).state)).blockBackTest x := by
  obtain ⟨h1, h2, h3⟩ := h
  unfold State.retestHandle; dsimp only; rw [if_pos ⟨h1, h2, h3⟩, hs, hh]; rfl

theorem retest_other (h1 : ¬((s.sectn x).state = some .offeredIn ∧ (s.sectn x).handle = .lineClear))
    (h2 : ¬((s.sectn x).state = some .clearIn ∧ (s.sectn x).handle = .lineBlocked))
    (h3 : ¬((s.sectn x).state = some .onLineIn ∧ (s.sectn x).handle = .lineBlocked)) :
    s.retestHandle x o = s.sectReports x (broughtRow o (s.sectn x).state) := by
  unfold State.retestHandle; dsimp only; split
  · split
    · rename_i hs hh; exact absurd ⟨hs, hh⟩ h1
    · rename_i hs hh; exact absurd ⟨hs, hh⟩ h2
    · rename_i hs hh; exact absurd ⟨hs, hh⟩ h3
    · rfl
  · rfl

end Retest

theorem otherSections_blockBackTest (x : SectionId) (s : State) : OtherSections x s (s.blockBackTest x) := by
  unfold State.blockBackTest; split
  · exact fun _ _ => rfl
  · dsimp only; split
    · exact fun y hy => sectn_updSect_of_ne hy SectionState.asked s
    · exact fun _ _ => rfl

theorem otherSections_retestHandle (x : SectionId) (o : Option Exchange) (s : State) :
    OtherSections x s (s.retestHandle x o) := by
  have stay : ∀ rs, OtherSections x s (s.sectReports x rs) := fun rs => (State.sectReports_only x rs s).otherSections x
  unfold State.retestHandle; dsimp only; split
  · split
    · split
      · exact otherSections_enterState _ _ _ _ _
      · exact stay _
    · split
      · exact otherSections_enterState _ _ _ _ _
      · exact stay _
    · exact (stay _).trans (otherSections_blockBackTest x _)
    · exact stay _
  · exact stay _

theorem otherSections_judgeExchange (x : SectionId) (e : Exchange) (s : State) : OtherSections x s (s.judgeExchange x e) := by
  have report : ∀ o, OtherSections x s (s.exchangeReport x e o) := fun o => (State.exchangeReport_only x e o s).otherSections x
  have acted : ∀ f b w rs, OtherSections x s ((s.updSect x f).enterState x b w rs) := fun f b w rs =>
    (otherSections_updSect x f s).trans (otherSections_enterState _ _ _ _ _)
  unfold State.judgeExchange; dsimp only; split
  · split
    · exact acted _ _ _ _
    · exact acted _ _ _ _
  · exact acted _ _ _ _
  · exact report _
  · exact acted _ _ _ _
  · exact acted _ _ _ _
  · exact acted _ _ _ _
  · split
    · exact report _
    · exact (otherSections_updSect x _ s).trans (otherSections_retestHandle _ _ _)
  · exact report _

theorem otherSections_takeExchange (x : SectionId) (e : Exchange) (s : State) : OtherSections x s (s.takeExchange x e) := by
  have report : ∀ o (u : State), OtherSections x u (u.exchangeReport x e o) := fun o u =>
    (State.exchangeReport_only x e o u).otherSections x
  have announced : OtherSections x s (s.announced x e) := by
    unfold State.announced; split
    · exact fun _ _ => rfl
    · split
      · exact report _ _
      · exact otherSections_judgeExchange x e s
  unfold State.takeExchange; dsimp only; split
  · exact fun _ _ => rfl
  · split
    · exact report _ _
    · split
      · exact (otherSections_updSect x _ s).trans (report _ _)
      · refine (report .acted s).trans ?_
        unfold State.obstructionRemoved; split
        · exact ((otherSections_updSect x _ _).trans ((State.sectReport_only _ _ _ _).otherSections x)).trans
            ((State.evaluate_only _ _).otherSections x)
        · exact fun _ _ => rfl
      · split
        · exact report _ _
        · exact announced
      · split
        · exact report _ _
        · exact announced
      · split
        · exact report _ _
        · split
          · exact (otherSections_updSect x _ s).trans (otherSections_retestHandle _ _ _)
          · exact report _ _
      · split
        · exact report _ _
        · exact report _ _

end State

/-! ### O45: completed exchanges -/

theorem OnlyLink.sectn_same {x : SectionId} {f : SectionState → SectionState} {s t : State} (h : OnlyLink (s.updSect x f) t) :
    t.sectn x = f (s.sectn x) ∧ OnlyLink { s with sections := t.sections } t :=
  ⟨(h.sectn_eq x).trans (State.sectn_updSect_same x f s), ((onlyRecords_updSect x f s).trans h.records).kept⟩

namespace State

/-- R134: an update of a section and the entry that follows it. -/
theorem updSect_enterState (x : SectionId) (f : SectionState → SectionState) (b : BlockState) (w : StateCause)
    (rs : List (Nat × List Byte)) (s : State) :
    ((s.updSect x f).enterState x b w rs).sectn x = (f (s.sectn x)).entered b ∧
    OnlyEval { s with sections := ((s.updSect x f).enterState x b w rs).sections } ((s.updSect x f).enterState x b w rs) :=
  ⟨by rw [enterState_sectn_same, State.sectn_updSect_same],
    ((onlyRecords_updSect x f s).sections.trans (enterState_onlySections x b w rs _)).kept⟩

section Exchange

variable {x : SectionId} {e : Exchange} {s : State}

theorem takeExchange_unfitted (hf : s.sectionFitted x = false) : s.takeExchange x e = s := by
  unfold State.takeExchange; exact if_pos hf

theorem takeExchange_frozen (hf : s.sectionFitted x = true) (hz : (s.sectn x).frozen = true) :
    s.takeExchange x e = s.exchangeReport x e .ignoredFrozen := by
  unfold State.takeExchange; dsimp only; rw [if_neg (by simp [hf]), if_pos hz]

/-- R131: an exchange taken for a fitted section that is not frozen. -/
theorem takeExchange_free (hf : s.sectionFitted x = true) (hz : (s.sectn x).frozen = false) :
    s.takeExchange x e =
      match e.meaning, e.dir with
      | .attention, _ => (s.attend x).exchangeReport x e .acted
      | .obstructionRemoved, .inbound => (s.exchangeReport x e .acted).obstructionRemoved x
      | .offer, _ | .cancel, _ =>
        if (s.sectn x).state = none then s.exchangeReport x e .ignoredProving else s.announced x e
      | .outOfSection, .outbound =>
        if (s.sectn x).state = none then s.exchangeReport x e .ignoredProving
        else if (s.sectn x).state = some .onLineIn then
          (s.updSect x fun y => { y with outSent := true }).retestHandle x (some e)
        else s.exchangeReport x e .ignored
      | _, _ =>
        if (s.sectn x).state = none then s.exchangeReport x e .ignoredProving else s.exchangeReport x e .ignored := by
  unfold State.takeExchange; dsimp only; rw [if_neg (by simp [hf])]
  exact if_neg (by simp [hz])

theorem takeExchange_attention (hf : s.sectionFitted x = true) (hz : (s.sectn x).frozen = false)
    (hm : e.meaning = .attention) :
    (s.takeExchange x e).sectn x = { s.sectn x with attention := some (s.now + s.timing.attentionLife.toNat * 1000) } ∧
    OnlyLink { s with sections := (s.takeExchange x e).sections } (s.takeExchange x e) := by
  rw [takeExchange_free hf hz, hm]
  exact (State.exchangeReport_only x e .acted (s.attend x)).sectn_same

/-- R133. -/
theorem takeExchange_removed (hf : s.sectionFitted x = true) (hz : (s.sectn x).frozen = false)
    (hm : e.meaning = .obstructionRemoved) (hd : e.dir = .inbound) :
    (s.takeExchange x e).sectn x = { s.sectn x with obstruction := false } ∧
    OnlyEval { s with sections := (s.takeExchange x e).sections } (s.takeExchange x e) := by
  rw [takeExchange_free hf hz, hm, hd]
  have report : OnlyLink s (s.exchangeReport x e .acted) := State.exchangeReport_only x e .acted s
  generalize s.exchangeReport x e .acted = u at report
  change (u.obstructionRemoved x).sectn x = _ ∧ OnlyEval { s with sections := (u.obstructionRemoved x).sections } (u.obstructionRemoved x)
  unfold State.obstructionRemoved; split
  · have only : OnlyEval (u.updSect x fun r => { r with obstruction := false }) _ :=
      (State.sectReport_only x 6 [2] _).eval.trans (State.evaluate_only .verdict _)
    exact ⟨(only.sectn_eq x).trans ((State.sectn_updSect_same x _ u).trans (by rw [report.sectn_eq])),
      (report.records.sections.trans ((onlyRecords_updSect x _ u).sections.trans only.sections)).kept⟩
  · rename_i ho
    refine ⟨(report.sectn_eq x).trans ?_, report.records.sections.kept⟩
    rw [report.sectn_eq] at ho
    rw [← show (s.sectn x).obstruction = false by simpa using ho]

/-- R131: with state none an exchange is only reported, but for ATTENTION and OBSTRUCTION_REMOVED. -/
theorem takeExchange_unstated (hf : s.sectionFitted x = true) (hz : (s.sectn x).frozen = false)
    (hs : (s.sectn x).state = none) (hm : e.meaning ≠ .attention) (hr : ¬(e.meaning = .obstructionRemoved ∧ e.dir = .inbound)) :
    OnlyLink s (s.takeExchange x e) := by
  rw [takeExchange_free hf hz]; simp only [hs, if_true]
  have report : ∀ o, OnlyLink s (s.exchangeReport x e o) := fun o => State.exchangeReport_only x e o s
  split
  · rename_i h; exact absurd h hm
  · rename_i h1 h2; exact absurd ⟨h1, h2⟩ hr
  · exact report _
  · exact report _
  · exact report _
  · exact report _

/-- R131: any other exchange is only reported. -/
theorem takeExchange_reports (hf : s.sectionFitted x = true) (hz : (s.sectn x).frozen = false) {b : BlockState}
    (hb : (s.sectn x).state = some b) (ho : e.meaning ≠ .offer) (hc : e.meaning ≠ .cancel) (hm : e.meaning ≠ .attention)
    (hr : ¬(e.meaning = .obstructionRemoved ∧ e.dir = .inbound))
    (hout : ¬(e.meaning = .outOfSection ∧ e.dir = .outbound ∧ b = .onLineIn)) : OnlyLink s (s.takeExchange x e) := by
  rw [takeExchange_free hf hz, hb]
  have report : ∀ o, OnlyLink s (s.exchangeReport x e o) := fun o => State.exchangeReport_only x e o s
  split
  · rename_i h; exact absurd h hm
  · rename_i h1 h2; exact absurd ⟨h1, h2⟩ hr
  · rename_i h; exact absurd h ho
  · rename_i h; exact absurd h hc
  · rename_i h1 h2
    rw [if_neg (fun h => (nomatch h)), if_neg fun h => hout ⟨h1, h2, Option.some.inj h⟩]
    exact report _
  · rw [if_neg (fun h => (nomatch h))]; exact report _

/-- R132: an OFFER or a CANCEL of a section with a state. -/
theorem takeExchange_announced (hf : s.sectionFitted x = true) (hz : (s.sectn x).frozen = false)
    (hs : (s.sectn x).state ≠ none) (hm : e.meaning = .offer ∨ e.meaning = .cancel) :
    s.takeExchange x e = s.announced x e := by
  rw [takeExchange_free hf hz]
  rcases hm with hm | hm <;> rw [hm] <;> exact if_neg hs

theorem announced_of_unannounced {rec : SectionRec} (hr : s.sectionRec x = some rec)
    (h : ¬(rec.attentionRequired = false ∨ (s.sectn x).attention ≠ none)) :
    s.announced x e = s.exchangeReport x e .unannounced := by
  unfold State.announced; rw [hr]; dsimp only; rw [if_pos]
  constructor
  · by_contra hc; exact h (.inl (by simpa using hc))
  · by_contra hc; exact h (.inr hc)

theorem announced_of_announced {rec : SectionRec} (hr : s.sectionRec x = some rec)
    (h : rec.attentionRequired = false ∨ (s.sectn x).attention ≠ none) : s.announced x e = s.judgeExchange x e := by
  unfold State.announced; rw [hr]; dsimp only; rw [if_neg]
  rintro ⟨h1, h2⟩
  rcases h with h | h
  · rw [h] at h1; cases h1
  · exact h h2

end Exchange

end State

/-- R135, R136: the state that an OFFER or a CANCEL acted on brings. -/
def Exchange.after (e : Exchange) (early : Bool) (b : BlockState) : Option BlockState :=
  match e.meaning, e.dir, b with
  | .offer, .outbound, .blocked => some (if early then .clearOut else .offeredOut)
  | .offer, .inbound, .blocked => some .offeredIn
  | .cancel, .outbound, .offeredOut => some .blocked
  | .cancel, .outbound, .clearOut => some .cancellingOut
  | .cancel, .inbound, .offeredIn => some .blocked
  | _, _, _ => none

/-- R132, R135: a section whose exchange is acted on. -/
def SectionState.acted (e : Exchange) (r : SectionState) : SectionState :=
  { r with attention := none, offered := if e.meaning = .offer then some e.trainClass else r.offered }

namespace State

section Judge

variable {x : SectionId} {e : Exchange} {s : State} {b : BlockState} (hb : (s.sectn x).state = some b)
include hb

/-- R135, R136: an OFFER or a CANCEL that acts. -/
theorem judgeExchange_acts {a : BlockState} (ha : e.after (s.sectn x).earlyClear b = some a) :
    (s.judgeExchange x e).sectn x = ((s.sectn x).acted e).entered a ∧
    OnlyEval { s with sections := (s.judgeExchange x e).sections } (s.judgeExchange x e) := by
  have acts : ∀ (f : SectionState → SectionState) w, f (s.sectn x) = (s.sectn x).acted e →
      s.judgeExchange x e = (s.updSect x f).enterState x a w [exchangeRow e .acted (some a)] →
      (s.judgeExchange x e).sectn x = ((s.sectn x).acted e).entered a ∧
      OnlyEval { s with sections := (s.judgeExchange x e).sections } (s.judgeExchange x e) := fun f w hf h => by
    rw [h, ← hf]; exact updSect_enterState x f a w _ s
  obtain ⟨d, n, m, c⟩ := e
  unfold Exchange.after at ha; dsimp only at ha
  split at ha
  · cases hc : (s.sectn x).earlyClear with
    | true =>
      rw [hc] at ha; cases ha
      exact acts (fun y => { y with offered := some c, attention := none }) .offerOnEarlyClear rfl (by
        unfold State.judgeExchange; dsimp only; rw [hb]; exact if_pos hc)
    | false =>
      rw [hc] at ha; cases ha
      exact acts (fun y => { y with offered := some c, attention := none }) .offer rfl (by
        unfold State.judgeExchange; dsimp only; rw [hb]; exact if_neg (by simp [hc]))
  · cases ha
    exact acts (fun y => { y with offered := some c, attention := none }) .offer rfl (by
      unfold State.judgeExchange; dsimp only; rw [hb])
  · cases ha
    exact acts (fun y => { y with attention := none }) .cancel rfl (by
      unfold State.judgeExchange; dsimp only; rw [hb]; rfl)
  · cases ha
    exact acts (fun y => { y with attention := none }) .cancel rfl (by
      unfold State.judgeExchange; dsimp only; rw [hb]; rfl)
  · cases ha
    exact acts (fun y => { y with attention := none }) .cancel rfl (by
      unfold State.judgeExchange; dsimp only; rw [hb]; rfl)
  · cases ha

/-- R135, R136: an OFFER or a CANCEL that does not act is only reported. -/
theorem judgeExchange_reports (ha : e.after (s.sectn x).earlyClear b = none)
    (hc : ¬(e.meaning = .cancel ∧ e.dir = .inbound ∧ b = .clearIn)) : OnlyLink s (s.judgeExchange x e) := by
  have report : ∀ o, OnlyLink s (s.exchangeReport x e o) := fun o => State.exchangeReport_only x e o s
  unfold State.judgeExchange Exchange.after at *; dsimp only
  rw [hb]
  split
  · rename_i hm hd h; cases h; rw [hm, hd] at ha; cases ha
  · rename_i hm hd h; cases h; rw [hm, hd] at ha; cases ha
  · exact report _
  · rename_i hm hd h; cases h; rw [hm, hd] at ha; cases ha
  · rename_i hm hd h; cases h; rw [hm, hd] at ha; cases ha
  · rename_i hm hd h; cases h; rw [hm, hd] at ha; cases ha
  · rename_i hm hd h; cases h; exact absurd ⟨hm, hd, rfl⟩ hc
  · exact report _

end Judge

end State

namespace State

/-- R142: the handle is held at LINE BLOCKED under a rule that can still complete. -/
def heldBlocked (s : State) (x : SectionId) : Prop :=
  (s.sectn x).handle = .lineBlocked ∧ (s.sectn x).retest = true ∧ s.store.part ≠ .storing

/-- An update that leaves the handle and its hold. -/
theorem heldBlocked_updSect {x : SectionId} {s : State} {f : SectionState → SectionState}
    (hretest : (f (s.sectn x)).retest = (s.sectn x).retest) (hhandle : (f (s.sectn x)).handle = (s.sectn x).handle) :
    (s.updSect x f).heldBlocked x ↔ s.heldBlocked x := by
  unfold heldBlocked; rw [State.sectn_updSect_same, hretest, hhandle]; rfl

theorem retestable_of_held {x : SectionId} {s : State} (hz : (s.sectn x).frozen = false) (h : s.heldBlocked x) :
    s.retestable x := ⟨h.2.1, hz, (isStoring_eq_false s).2 h.2.2⟩

/-- R142: a re-test that finds no handle held at LINE BLOCKED, outside OFFERED_IN. -/
theorem retest_of_not_held {x : SectionId} {s : State} (o : Option Exchange) (h : ¬s.heldBlocked x)
    (hs : (s.sectn x).state ≠ some .offeredIn) :
    s.retestHandle x o = s.sectReports x (broughtRow o (s.sectn x).state) := by
  by_cases hrt : s.retestable x
  · have hh : (s.sectn x).handle ≠ .lineBlocked := fun hh => h ⟨hh, hrt.1, (isStoring_eq_false s).1 hrt.2.2⟩
    exact retest_other _ (fun hc => hs hc.1) (fun hc => hh hc.2) (fun hc => hh hc.2)
  · exact retest_of_not_retestable _ hrt

section Held

variable {x : SectionId} {e : Exchange} {s : State} {rec : SectionRec} (hr : s.sectionRec x = some rec)
  (hz : (s.sectn x).frozen = false)
include hz

/-- R136: an inbound CANCEL in CLEAR_IN. -/
theorem judgeExchange_clearIn (hb : (s.sectn x).state = some .clearIn) (hm : e.meaning = .cancel) (hd : e.dir = .inbound)
    (hc : (s.sectn x).cancelReceived = false) :
    (s.heldBlocked x → (s.judgeExchange x e).sectn x = ({ s.sectn x with attention := none } : SectionState).entered .blocked ∧
      OnlyEval { s with sections := (s.judgeExchange x e).sections } (s.judgeExchange x e)) ∧
    (¬s.heldBlocked x →
      (s.judgeExchange x e).sectn x = { s.sectn x with cancelReceived := true, attention := none } ∧
      OnlyLink { s with sections := (s.judgeExchange x e).sections } (s.judgeExchange x e)) := by
  let u := s.updSect x fun y => { y with cancelReceived := true, attention := none }
  have taken : s.judgeExchange x e = u.retestHandle x (some e) := by
    unfold State.judgeExchange; dsimp only; rw [hm, hd, hb]; exact if_neg (by simp [hc])
  have held : u.heldBlocked x ↔ s.heldBlocked x := heldBlocked_updSect rfl rfl
  have own : u.sectn x = (fun y : SectionState => { y with cancelReceived := true, attention := none }) (s.sectn x) :=
    State.sectn_updSect_same x _ s
  have state : (u.sectn x).state = some .clearIn := by rw [own]; exact hb
  rw [taken]
  refine ⟨fun h => ?_, fun h => ?_⟩
  · rw [retest_clearIn _ (retestable_of_held (by rw [own]; exact hz) (held.2 h)) state (by rw [own]; exact h.1),
      if_pos (by rw [own])]
    exact updSect_enterState x _ .blocked .handle _ s
  · rw [retest_of_not_held _ (mt held.1 h) (by rw [state]; decide)]
    exact (State.sectReports_only x _ u).sectn_same

include hr

/-- R136, R143: an outbound OUT_OF_SECTION in ON_LINE_IN. -/
theorem takeExchange_outOf (hb : (s.sectn x).state = some .onLineIn) (hm : e.meaning = .outOfSection)
    (hd : e.dir = .outbound) :
    let asks := s.heldBlocked x ∧ (s.seqn rec.arrival.toNat).latch = true ∧ (s.sectn x).consumeAsked = false
    (asks → (s.takeExchange x e).sectn x = { s.sectn x with outSent := true, consumeAsked := true } ∧
      (s.takeExchange x e).notices =
        s.notices ++ [{ consumer := .block x, seq := rec.arrival.toNat, epoch := s.epoch }]) ∧
    (¬asks → (s.takeExchange x e).sectn x = { s.sectn x with outSent := true } ∧
      (s.takeExchange x e).notices = s.notices) ∧
    OnlyAsking s (s.takeExchange x e) := by
  intro asks
  have hf : s.sectionFitted x = true := (s.sectionFitted_iff x).2 ⟨rec, hr⟩
  let u := s.updSect x fun y => { y with outSent := true }
  have taken : s.takeExchange x e = u.retestHandle x (some e) := by
    rw [takeExchange_free hf hz, hm, hd]; dsimp only
    rw [if_neg (by simp [hb]), if_pos hb]
  have own : u.sectn x = (fun y : SectionState => { y with outSent := true }) (s.sectn x) := State.sectn_updSect_same x _ s
  have held : u.heldBlocked x ↔ s.heldBlocked x := heldBlocked_updSect rfl rfl
  have state : (u.sectn x).state = some .onLineIn := by rw [own]; exact hb
  let w := u.sectReports x (broughtRow (some e) (u.sectn x).state)
  have report : OnlyLink u w := State.sectReports_only _ _ _
  have records : OnlyRecords s w := (onlyRecords_updSect x _ s).trans report.records
  have stays : w.sectn x = { s.sectn x with outSent := true } ∧ w.notices = s.notices ∧ OnlyAsking s w :=
    ⟨(report.sectn_eq x).trans own, report.eval.notices_eq, records.asking⟩
  have rec_w : w.sectionRec x = some rec := (records.sectionRec_eq x).trans hr
  have back : s.heldBlocked x → (w.blockBack x rec ↔ asks) := fun hh => by
    unfold blockBack
    rw [report.sectn_eq, own, report.eval.seqn_eq]
    constructor
    · rintro ⟨-, hl, hc, -⟩; exact ⟨hh, hl, hc⟩
    · rintro ⟨-, hl, hc⟩; exact ⟨rfl, hl, hc, hz⟩
  have tests : s.heldBlocked x → s.takeExchange x e = w.blockBackTest x := fun hh => by
    rw [taken]
    exact retest_onLineIn _ (retestable_of_held (by rw [own]; exact hz) (held.2 hh)) state (by rw [own]; exact hh.1)
  have reports : ¬s.heldBlocked x → s.takeExchange x e = w := fun hh => by
    rw [taken]; exact retest_of_not_held _ (mt held.1 hh) (by rw [state]; decide)
  by_cases hasks : asks
  · have done := tests hasks.1
    rw [blockBackTest_of_asks rec_w ((back hasks.1).2 hasks)] at done
    rw [done]
    refine ⟨fun _ => ⟨?_, ?_⟩, fun h => absurd hasks h, ?_⟩
    · exact Eq.trans (b := (w.updSect x SectionState.asked).sectn x) rfl
        ((State.sectn_updSect_same x _ w).trans (by rw [stays.1]; rfl))
    · exact congrArg₂ (fun n p => n ++ [({ consumer := .block x, seq := rec.arrival.toNat, epoch := p } : Notice)])
        stays.2.1 report.eval.epoch_eq
    · exact stays.2.2.trans (onlyAsking_asked x _ w)
  · have stands : s.takeExchange x e = w := by
      by_cases hh : s.heldBlocked x
      · rw [tests hh, blockBackTest_of_not_asks rec_w (mt (back hh).1 hasks)]
      · exact reports hh
    rw [stands]
    exact ⟨fun h => absurd h hasks, fun _ => ⟨stays.1, stays.2.1⟩, stays.2.2⟩

end Held

end State

/-- Settles O45. -/
theorem offersAndCancels : Obligations.OffersAndCancels := by
  intro s x e t removed
  refine ⟨fun hf => State.takeExchange_unfitted hf, State.otherSections_takeExchange x e s, fun hz => ?_,
    fun rec hr hz => ?_⟩
  · cases hf : s.sectionFitted x with
    | false => rw [show t = s from State.takeExchange_unfitted hf]; exact OnlyLink.refl s
    | true =>
      rw [show t = _ from State.takeExchange_frozen hf hz]
      exact State.exchangeReport_only x e _ s
  · have hf : s.sectionFitted x = true := (s.sectionFitted_iff x).2 ⟨rec, hr⟩
    refine ⟨State.takeExchange_attention hf hz, fun hrm => State.takeExchange_removed hf hz hrm.1 hrm.2,
      fun hs hm hrm => State.takeExchange_unstated hf hz hs hm hrm, fun b hb => ?_⟩
    intro announced heldBlocked after clearIn outOf
    have hs : (s.sectn x).state ≠ none := by rw [hb]; exact fun h => (nomatch h)
    have offers : e.meaning = .offer ∨ e.meaning = .cancel → t = s.announced x e :=
      State.takeExchange_announced hf hz hs
    have judged : e.meaning = .offer ∨ e.meaning = .cancel → announced → t = s.judgeExchange x e := fun hm ha =>
      (offers hm).trans (State.announced_of_announced hr ha)
    have meaning_of_after : ∀ {a}, after = some a → e.meaning = .offer ∨ e.meaning = .cancel := fun {a} ha => by
      unfold after at ha
      split at ha <;> first | exact .inl ‹_› | exact .inr ‹_› | cases ha
    refine ⟨fun hm ha => ?_, fun a ha han => ?_, fun hc ha hcr => ?_, fun hc ha hcr => ?_, fun ho => ?_,
      fun ha hc ho hm hrm => ?_⟩
    · rw [offers hm, State.announced_of_unannounced hr ha]
      exact State.exchangeReport_only x e _ s
    · rw [judged (meaning_of_after ha) han]
      exact State.judgeExchange_acts hb ha
    · obtain ⟨hm, hd, rfl⟩ := hc
      rw [judged (.inr hm) ha]
      have ignored : s.judgeExchange x e = s.exchangeReport x e .ignored := by
        unfold State.judgeExchange; dsimp only; rw [hm, hd, hb]; exact if_pos hcr
      rw [ignored]
      exact State.exchangeReport_only x e _ s
    · obtain ⟨hm, hd, rfl⟩ := hc
      rw [judged (.inr hm) ha]
      exact State.judgeExchange_clearIn hz hb hm hd hcr
    · obtain ⟨hm, hd, rfl⟩ := ho
      obtain ⟨h1, h2, h3⟩ := State.takeExchange_outOf hr hz hb hm hd
      exact ⟨h1, h2, h3.kept⟩
    · by_cases hoc : e.meaning = .offer ∨ e.meaning = .cancel
      · by_cases han : announced
        · rw [judged hoc han]
          exact State.judgeExchange_reports hb ha hc
        · rw [offers hoc, State.announced_of_unannounced hr han]
          exact State.exchangeReport_only x e _ s
      · rw [not_or] at hoc
        exact State.takeExchange_reports hf hz hb hoc.1 hoc.2 hm hrm ho

/-! ### The handle -/

/-- Nothing but the sections, the notifications and what an evaluation reaches. -/
def OnlyAsked (s t : State) : Prop := ∃ se no, OnlyEval { s with sections := se, notices := no } t

theorem OnlySections.asked {s t : State} (h : OnlySections s t) : OnlyAsked s t := by
  obtain ⟨se, l, f, fr, rfl⟩ := h
  exact ⟨se, s.notices, l, f, fr, rfl⟩

theorem OnlyAsking.asked {s t : State} (h : OnlyAsking s t) : OnlyAsked s t := by
  obtain ⟨se, no, h⟩ := h
  exact ⟨se, no, h.eval⟩

theorem OnlyAsked.trans {s t u : State} (h : OnlyAsked s t) (g : OnlyAsked t u) : OnlyAsked s u := by
  obtain ⟨_, _, _, _, _, rfl⟩ := h
  obtain ⟨se, no, l, f, fr, rfl⟩ := g
  exact ⟨se, no, l, f, fr, rfl⟩

theorem OnlyAsked.kept {s t : State} (h : OnlyAsked s t) :
    OnlyEval { s with sections := t.sections, notices := t.notices } t := by
  obtain ⟨_, _, _, _, _, rfl⟩ := h
  exact ⟨_, _, _, rfl⟩

/-- R142: a handle held, under a rule that can still complete (`again`) or not. -/
def SectionState.held (again : Bool) (r : SectionState) : SectionState := { r with outOfCorr := true, retest := again }

/-- The handle and its contacts are the same. -/
def SectionState.SameHandle (r u : SectionState) : Prop :=
  u.blockedMade = r.blockedMade ∧ u.clearMade = r.clearMade ∧ u.trainMade = r.trainMade ∧ u.handle = r.handle ∧
    u.movingSince = r.movingSince

theorem SectionState.SameHandle.refl (r : SectionState) : r.SameHandle r := ⟨rfl, rfl, rfl, rfl, rfl⟩

theorem SectionState.SameHandle.trans {r u v : SectionState} (h : r.SameHandle u) (g : u.SameHandle v) : r.SameHandle v := by
  obtain ⟨h1, h2, h3, h4, h5⟩ := h
  obtain ⟨g1, g2, g3, g4, g5⟩ := g
  exact ⟨g1.trans h1, g2.trans h2, g3.trans h3, g4.trans h4, g5.trans h5⟩

namespace State

/-- R141: a handle at a position that does not correspond to the state, taken outside STORING. -/
def handleMove (s : State) (x : SectionId) (b : BlockState) : State :=
  match b, (s.sectn x).handle with
  | .offeredIn, .lineClear =>
    if s.clearAllowed x then s.enterState x .clearIn .handle [] else s.holdHandle x true
  | .clearIn, .trainOnLine => s.enterState x .onLineIn .handle []
  | .clearIn, .lineBlocked =>
    if (s.sectn x).cancelReceived then s.enterState x .blocked .handle [] else s.holdHandle x true
  | .onLineIn, .lineBlocked => (s.holdHandle x true).blockBackTest x
  | _, _ => s.holdHandle x false

variable {x : SectionId} {s : State}

theorem holdHandle_onlyRecords (x : SectionId) (b : Bool) (s : State) : OnlyRecords s (s.holdHandle x b) :=
  (onlyRecords_updSect x _ s).trans (State.outReport_only x _).records

theorem holdHandle_sectn (b : Bool) (y : SectionId) : (s.holdHandle x b).sectn y =
    if y = x then (s.sectn x).held b else s.sectn y :=
  ((State.outReport_only x _).sectn_eq y).trans (State.sectn_updSect x y _ s)

theorem blockBackTest_of_unfitted (hr : s.sectionRec x = none) : s.blockBackTest x = s := by
  unfold State.blockBackTest; rw [hr]

/-- R143: the block-back test asks once, or does nothing. -/
theorem blockBackTest_cases (x : SectionId) (s : State) : s.blockBackTest x = s ∨
    ∃ rec, s.sectionRec x = some rec ∧ s.blockBack x rec ∧
      s.blockBackTest x = (s.updSect x SectionState.asked).sendNotice (.block x) rec.arrival.toNat := by
  cases hr : s.sectionRec x with
  | none => exact .inl (blockBackTest_of_unfitted hr)
  | some rec =>
    by_cases h : s.blockBack x rec
    · exact .inr ⟨rec, rfl, h, blockBackTest_of_asks hr h⟩
    · exact .inl (blockBackTest_of_not_asks hr h)

theorem sectn_sendNotice (c : Consumer) (q : Nat) (y : SectionId) (s : State) : (s.sendNotice c q).sectn y = s.sectn y := rfl

theorem blockBackTest_onlyAsking (x : SectionId) (s : State) : OnlyAsking s (s.blockBackTest x) := by
  rcases blockBackTest_cases x s with h | ⟨rec, -, -, h⟩ <;> rw [h]
  · exact (OnlyLink.refl s).records.asking
  · exact onlyAsking_asked _ _ _

theorem blockBackTest_sameHandle (x : SectionId) (s : State) : (s.sectn x).SameHandle ((s.blockBackTest x).sectn x) := by
  rcases blockBackTest_cases x s with h | ⟨rec, -, -, h⟩ <;> rw [h]
  · exact .refl _
  · rw [sectn_sendNotice, State.sectn_updSect_same]; exact ⟨rfl, rfl, rfl, rfl, rfl⟩

/-! #### R141: a handle at a position -/

theorem handleEvent_unstated (hs : (s.sectn x).state = none) : s.handleEvent x = s := by
  unfold State.handleEvent; dsimp only; rw [hs]

section Stated

variable {b : BlockState} (hb : (s.sectn x).state = some b)
include hb

theorem handleEvent_frozen (hz : (s.sectn x).frozen = true) : s.handleEvent x = s.outReport x := by
  unfold State.handleEvent; dsimp only; rw [hb]; exact if_pos hz

variable (hz : (s.sectn x).frozen = false)
include hz

theorem handleEvent_corresponds (hh : (s.sectn x).handle = handleFor b) : s.handleEvent x = s.correspond x := by
  unfold State.handleEvent; dsimp only; rw [hb]; dsimp only
  rw [if_neg (by simp [hz]), if_pos hh]

theorem handleEvent_storing (hh : (s.sectn x).handle ≠ handleFor b) (hst : s.isStoring = true) :
    s.handleEvent x = s.holdHandle x false := by
  unfold State.handleEvent; dsimp only; rw [hb]; dsimp only
  rw [if_neg (by simp [hz]), if_neg hh, if_pos hst]

/-- R141: the four rules that change the section, and the hold of every other position. -/
theorem handleEvent_moves (hh : (s.sectn x).handle ≠ handleFor b) (hst : s.isStoring = false) :
    s.handleEvent x = s.handleMove x b := by
  unfold State.handleEvent; dsimp only; rw [hb]; dsimp only
  rw [if_neg (by simp [hz]), if_neg hh]
  exact if_neg (by simp [hst])

end Stated

/-- R140 to R142: a handle taken reaches its section, the monitor and the evaluator, and leaves the handle. -/
theorem handleEvent_spec (x : SectionId) (s : State) : OnlyAsked s (s.handleEvent x) ∧
    OtherSections x s (s.handleEvent x) ∧ (s.sectn x).SameHandle ((s.handleEvent x).sectn x) := by
  have records : ∀ {t : State}, OnlyRecords s t → OnlyAsked s t := fun h => h.sections.asked
  have link : ∀ {t : State}, OnlyLink s t → OnlyAsked s t ∧ OtherSections x s t ∧ (s.sectn x).SameHandle (t.sectn x) :=
    fun {t} h => ⟨records h.records, h.otherSections x, by rw [h.sectn_eq]; exact ⟨rfl, rfl, rfl, rfl, rfl⟩⟩
  have hold : ∀ r, OnlyAsked s (s.holdHandle x r) ∧ OtherSections x s (s.holdHandle x r) ∧
      (s.sectn x).SameHandle ((s.holdHandle x r).sectn x) := fun r =>
    ⟨records (holdHandle_onlyRecords x r s), fun y hy => by rw [holdHandle_sectn, if_neg hy],
      by rw [holdHandle_sectn, if_pos rfl]; exact ⟨rfl, rfl, rfl, rfl, rfl⟩⟩
  have enter : ∀ a w, OnlyAsked s (s.enterState x a w []) ∧ OtherSections x s (s.enterState x a w []) ∧
      (s.sectn x).SameHandle ((s.enterState x a w []).sectn x) := fun a w =>
    ⟨(enterState_onlySections x a w [] s).asked, otherSections_enterState x a w [] s,
      by rw [enterState_sectn_same]; exact ⟨rfl, rfl, rfl, rfl, rfl⟩⟩
  cases hb : (s.sectn x).state with
  | none => rw [handleEvent_unstated hb]; exact link (OnlyLink.refl s)
  | some b =>
    cases hz : (s.sectn x).frozen with
    | true => rw [handleEvent_frozen hb hz]; exact link (State.outReport_only x s)
    | false =>
      by_cases hh : (s.sectn x).handle = handleFor b
      · rw [handleEvent_corresponds hb hz hh]
        refine ⟨records (correspond_onlyRecords x s), fun y hy => ?_, ?_⟩
        · rw [State.correspond_sectn x y b s hb, if_neg hy]
        · rw [State.correspond_sectn x x b s hb, if_pos rfl]; exact ⟨rfl, rfl, rfl, rfl, rfl⟩
      · cases hst : s.isStoring with
        | true => rw [handleEvent_storing hb hz hh hst]; exact hold false
        | false =>
          rw [handleEvent_moves hb hz hh hst]
          unfold handleMove
          split
          · split
            · exact enter _ _
            · exact hold true
          · exact enter _ _
          · split
            · exact enter _ _
            · exact hold true
          · obtain ⟨h1, h2, h3⟩ := hold true
            refine ⟨h1.trans (blockBackTest_onlyAsking x _).asked, h2.trans (otherSections_blockBackTest x _), ?_⟩
            exact h3.trans (blockBackTest_sameHandle x _)
          · exact hold false

end State

/-! ### O46: handle contacts, and a handle too long in movement -/

/-- R140: a section's record as its handle contacts are read. -/
def SectionState.readAs (bl cl tr : Bool) (now : Time) (r : SectionState) : SectionState :=
  { r with blockedMade := bl, clearMade := cl, trainMade := tr, handle := handleOf bl cl tr, retest := false,
           movingSince := if handleOf bl cl tr = .moving then some now else none }

theorem handleOf_eq (bl cl tr : Bool) : handleOf bl cl tr =
    if bl = false ∧ cl = false ∧ tr = false then .moving
    else if bl = true ∧ cl = false ∧ tr = false then .lineBlocked
    else if bl = false ∧ cl = true ∧ tr = false then .lineClear
    else if bl = false ∧ cl = false ∧ tr = true then .trainOnLine
    else .unreadable := by cases bl <;> cases cl <;> cases tr <;> rfl

theorem handleOf_moving (bl cl tr : Bool) : handleOf bl cl tr = .moving ↔ bl = false ∧ cl = false ∧ tr = false := by
  cases bl <;> cases cl <;> cases tr <;> decide

/-- R140: the contacts of a handle after a change of one of them. -/
def SectionState.contacts (k : HandleContact) (made : Bool) (r : SectionState) : Bool × Bool × Bool :=
  (if k = .lineBlocked then made else r.blockedMade, if k = .lineClear then made else r.clearMade,
    if k = .trainOnLine then made else r.trainMade)

theorem State.updSect_congr {x : SectionId} {f g : SectionState → SectionState} {s : State}
    (h : f (s.sectn x) = g (s.sectn x)) : s.updSect x f = s.updSect x g := by
  unfold State.updSect; rw [h]

theorem exec_handleContactChange (x : SectionId) (k : HandleContact) (made : Bool) (s : State) :
    exec (.handleContactChange x k made) s = .next
      (let c := (s.sectn x).contacts k made
       if c.1 = (s.sectn x).blockedMade ∧ c.2.1 = (s.sectn x).clearMade ∧ c.2.2 = (s.sectn x).trainMade then s
       else
         let u := s.updSect x (SectionState.readAs c.1 c.2.1 c.2.2 s.now)
         if handleOf c.1 c.2.1 c.2.2 = .unreadable ∧ (s.sectn x).handle = .unreadable then u else u.takeHandle x) := by
  refine congrArg Host.Outcome.next ?_
  cases k <;>
    simp only [SectionState.contacts, if_true, if_false, reduceCtorEq, true_and, and_true] <;>
    simp only [eq_comm (a := made)] <;> rfl

namespace State

/-- R140, R142: a handle of a fitted section with a state that is not frozen is held. -/
def holdsHandle (s : State) (x : SectionId) : Prop :=
  s.sectionFitted x = true ∧ (s.sectn x).state ≠ none ∧ (s.sectn x).frozen = false

variable {x : SectionId} {s : State}

theorem takeHandle_moving (h : (s.sectn x).handle = .moving) : s.takeHandle x = s := by
  unfold takeHandle; rw [h]; exact ite_self s

theorem takeHandle_event (hf : s.sectionFitted x = true) (hm : (s.sectn x).handle ≠ .moving)
    (hu : (s.sectn x).handle ≠ .unreadable) : s.takeHandle x = s.handleEvent x := by
  unfold takeHandle; rw [if_pos hf]
  cases h : (s.sectn x).handle with
  | moving => exact absurd h hm
  | unreadable => exact absurd h hu
  | lineBlocked | lineClear | trainOnLine => rfl

theorem takeHandle_unfitted (hf : ¬s.sectionFitted x = true) : s.takeHandle x = s := if_neg hf

/-- R140, R142: an UNREADABLE handle is held where its section holds handles, and at most reported elsewhere. -/
theorem takeHandle_unreadable (h : (s.sectn x).handle = .unreadable) :
    (s.holdsHandle x → s.takeHandle x = s.holdHandle x false) ∧ (¬s.holdsHandle x → OnlyLink s (s.takeHandle x)) := by
  by_cases hf : s.sectionFitted x = true
  · have held : s.takeHandle x = s.handleHeld x := by unfold takeHandle; rw [if_pos hf, h]
    rw [held]
    unfold handleHeld holdsHandle; dsimp only
    cases (s.sectn x).state with
    | none => exact ⟨fun hn => absurd rfl hn.2.1, fun _ => OnlyLink.refl s⟩
    | some b =>
      cases hz : (s.sectn x).frozen with
      | true => exact ⟨fun hn => (nomatch hn.2.2), fun _ => State.outReport_only x s⟩
      | false => exact ⟨fun _ => rfl, fun hn => absurd ⟨hf, nofun, rfl⟩ hn⟩
  · rw [takeHandle_unfitted hf]
    exact ⟨fun hn => absurd hn.1 hf, fun _ => OnlyLink.refl s⟩

theorem takeHandle_spec (x : SectionId) (s : State) : OnlyAsked s (s.takeHandle x) ∧
    OtherSections x s (s.takeHandle x) ∧ (s.sectn x).SameHandle ((s.takeHandle x).sectn x) := by
  have stays : OnlyAsked s s ∧ OtherSections x s s ∧ (s.sectn x).SameHandle (s.sectn x) :=
    ⟨(OnlyLink.refl s).records.sections.asked, fun _ _ => rfl, .refl _⟩
  by_cases hf : s.sectionFitted x = true
  · cases h : (s.sectn x).handle with
    | moving => rw [takeHandle_moving h]; exact stays
    | unreadable =>
      obtain ⟨holds, stands⟩ := takeHandle_unreadable h
      by_cases hn : s.holdsHandle x
      · rw [holds hn]
        refine ⟨(holdHandle_onlyRecords x false s).sections.asked, fun y hy => ?_, ?_⟩
        · rw [holdHandle_sectn, if_neg hy]
        · rw [holdHandle_sectn, if_pos rfl]; exact ⟨rfl, rfl, rfl, rfl, rfl⟩
      · refine ⟨(stands hn).records.sections.asked, (stands hn).otherSections x, ?_⟩
        rw [(stands hn).sectn_eq]; exact .refl _
    | lineBlocked | lineClear | trainOnLine =>
      rw [takeHandle_event hf (by rw [h]; nofun) (by rw [h]; nofun)]
      exact handleEvent_spec x s
  · rw [takeHandle_unfitted hf]; exact stays

theorem handleDue_iff (s : State) (x : SectionId) : s.handleDue x = true ↔
    (s.sectn x).handle = .moving ∧ ∃ m, (s.sectn x).movingSince = some m ∧ m + 500 ≤ s.now := by
  unfold handleDue; dsimp only
  cases (s.sectn x).movingSince with
  | none => simp
  | some m =>
    simp only [Config.handleMovingLimit, Option.some.injEq, exists_eq_left', Bool.and_eq_true, beq_iff_eq]
    exact and_congr_right fun _ => decide_eq_true_iff

end State

/-- Settles O46: the record as read, and then the handle as an event or held. -/
theorem handles : Obligations.Handles := by
  unfold Obligations.Handles
  refine ⟨fun s x k made => ?_, fun s x => ?_⟩
  · intro bl cl tr
    have taken := exec_handleContactChange x k made s
    refine ⟨fun h1 h2 h3 => taken.trans (congrArg Host.Outcome.next (if_pos ⟨h1, h2, h3⟩)), fun h => ?_⟩
    intro read held
    have done := taken.trans (congrArg Host.Outcome.next (if_neg h))
    dsimp only [SectionState.contacts] at done
    let u := s.updSect x (SectionState.readAs bl cl tr s.now)
    have own : u.sectn x = (s.sectn x).readAs bl cl tr s.now := State.sectn_updSect_same x _ s
    have unreadable : handleOf bl cl tr = .unreadable → u.sectn x = read := fun hu => by
      rw [own]; unfold SectionState.readAs; rw [hu]; rfl
    have records : OnlyRecords s u := onlyRecords_updSect x _ s
    have others : OtherSections x s u := otherSections_updSect x _ s
    let t := if handleOf bl cl tr = .unreadable ∧ (s.sectn x).handle = .unreadable then u else u.takeHandle x
    have stays : handleOf bl cl tr = .unreadable ∧ (s.sectn x).handle = .unreadable → t = u := fun hc => if_pos hc
    have goes : ¬(handleOf bl cl tr = .unreadable ∧ (s.sectn x).handle = .unreadable) → t = u.takeHandle x := fun hc => if_neg hc
    have spec : OnlyAsked s t ∧ OtherSections x s t ∧ (u.sectn x).SameHandle (t.sectn x) := by
      obtain ⟨h1, h2, h3⟩ := State.takeHandle_spec x u
      by_cases hc : handleOf bl cl tr = .unreadable ∧ (s.sectn x).handle = .unreadable
      · rw [stays hc]; exact ⟨records.sections.asked, others, .refl _⟩
      · rw [goes hc]; exact ⟨records.sections.asked.trans h1, others.trans h2, h3⟩
    refine ⟨t, done, ?_⟩
    obtain ⟨asked, other, hb, hc, ht, hh, hm⟩ := spec
    rw [own] at hb hc ht hh hm
    refine ⟨hb, hc, ht, hh.trans (handleOf_eq bl cl tr), ?_, fun h1 h2 => ?_, fun h1 => ?_, fun h1 => ?_, other, asked.kept⟩
    · rw [hm]; unfold SectionState.readAs
      simp only [handleOf_moving]
    · rw [stays ⟨hh.symm.trans h2, h1⟩]; rfl
    · have hmv : handleOf bl cl tr = .moving := hh.symm.trans h1
      rw [goes fun hc => by rw [hmv] at hc; exact absurd hc.1 (by decide),
        State.takeHandle_moving (by rw [own]; exact hmv)]
      refine State.updSect_congr ?_
      unfold SectionState.readAs; rw [hmv]; rfl
    · have hun : handleOf bl cl tr = .unreadable := hh.symm.trans h1
      have handle_u : (u.sectn x).handle = .unreadable := by rw [own]; exact hun
      obtain ⟨holds, stands⟩ := State.takeHandle_unreadable handle_u
      have holds_iff : u.holdsHandle x ↔ s.sectionFitted x = true ∧ (s.sectn x).state ≠ none ∧ (s.sectn x).frozen = false := by
        unfold State.holdsHandle; rw [own]; rfl
      refine ⟨fun hheld => ?_, fun hno => ?_, ?_⟩
      · obtain ⟨hf, hs, hz, hne⟩ := hheld
        rw [goes fun hc => hne hc.2, holds (holds_iff.2 ⟨hf, hs, hz⟩), State.holdHandle_sectn, if_pos rfl, unreadable hun]
        rfl
      · by_cases hc : handleOf bl cl tr = .unreadable ∧ (s.sectn x).handle = .unreadable
        · rw [stays hc, unreadable hun]
        · have hnot : ¬u.holdsHandle x := fun hu => by
            obtain ⟨hf, hs, hz⟩ := holds_iff.1 hu
            exact hno ⟨hf, hs, hz, fun hq => hc ⟨hun, hq⟩⟩
          rw [goes hc, (stands hnot).sectn_eq, unreadable hun]
      · by_cases hc : handleOf bl cl tr = .unreadable ∧ (s.sectn x).handle = .unreadable
        · rw [stays hc]; exact records.kept
        · rw [goes hc]
          by_cases hu : u.holdsHandle x
          · rw [holds hu]; exact (records.trans (State.holdHandle_onlyRecords x false u)).kept
          · exact (records.trans (stands hu).records).kept
  · intro due
    have iff : s.handleDue x = true ↔ due := s.handleDue_iff x
    have taken : exec (.handleMovingTimeout x) s = .next (if s.handleDue x then
        (s.updSect x fun r => { r with handle := .unreadable, movingSince := none }).takeHandle x else s) := rfl
    refine ⟨fun h => by rw [taken, if_neg (mt iff.1 h)], fun h => ?_⟩
    rw [if_pos (iff.2 h)] at taken
    let u := s.updSect x fun r => { r with handle := .unreadable, movingSince := none }
    have own : u.sectn x = (fun r : SectionState => { r with handle := .unreadable, movingSince := none }) (s.sectn x) :=
      State.sectn_updSect_same x _ s
    have records : OnlyRecords s u := onlyRecords_updSect x _ s
    obtain ⟨holds, stands⟩ := State.takeHandle_unreadable (x := x) (s := u) (by rw [own])
    have kept : ∀ {t : State}, OnlyRecords s t → ∃ l, t = { s with link := l, sections := t.sections } := fun ht => by
      obtain ⟨se, l, rfl⟩ := ht; exact ⟨l, rfl⟩
    refine ⟨_, taken, ?_⟩
    change (State.sectn (u.takeHandle x) x).handle = _ ∧ _
    by_cases hu : u.holdsHandle x
    · have sectn : (u.takeHandle x).sectn x = (u.sectn x).held false := by
        rw [holds hu, State.holdHandle_sectn, if_pos rfl]
      rw [own] at sectn
      refine ⟨congrArg SectionState.handle sectn, congrArg SectionState.movingSince sectn, (congrArg SectionState.state sectn).trans rfl,
        (congrArg SectionState.drive sectn).trans rfl, fun _ _ _ => (congrArg SectionState.outOfCorr sectn).trans rfl, fun y hy => ?_, kept ?_⟩
      · exact (State.takeHandle_spec x u).2.1 y hy |>.trans (sectn_updSect_of_ne hy _ s)
      · rw [show (u.takeHandle x) = _ from holds hu]
        exact records.trans (State.holdHandle_onlyRecords x false u)
    · have sectn : (u.takeHandle x).sectn x = u.sectn x := (stands hu).sectn_eq x
      rw [own] at sectn
      refine ⟨congrArg SectionState.handle sectn, congrArg SectionState.movingSince sectn, (congrArg SectionState.state sectn).trans rfl,
        (congrArg SectionState.drive sectn).trans rfl, fun hf hs hz => absurd ⟨hf, by rw [own]; exact hs, by rw [own]; exact hz⟩ hu, fun y hy => ?_, kept ?_⟩
      · exact (State.takeHandle_spec x u).2.1 y hy |>.trans (sectn_updSect_of_ne hy _ s)
      · exact records.trans (stands hu).records

/-! ### O47: a handle that reaches a position -/

theorem onlySections_notices {s t : State} (h : OnlySections s t) : t.notices = s.notices := by
  obtain ⟨_, _, _, _, rfl⟩ := h; rfl

theorem onlyRecords_notices {s t : State} (h : OnlyRecords s t) : t.notices = s.notices := onlySections_notices h.sections

namespace State

/-- R141: the test of a LINE CLEAR handle in OFFERED_IN. -/
theorem clearAllowed_iff {x : SectionId} {s : State} {rec : SectionRec} (hr : s.sectionRec x = some rec) :
    s.clearAllowed x = true ↔
      (∃ cls, (s.sectn x).offered = some cls ∧ rec.classes.getLsbD cls = true) ∧
      (s.lever rec.home.toNat).position = .normal ∧
      (rec.clearing = absent ∨ (s.track rec.clearing.toNat).state = .clear) := by
  unfold clearAllowed; rw [hr]
  cases (s.sectn x).offered with
  | none => simp
  | some k => simp [and_assoc]

/-- R144: a frozen section reports the handle and nothing else changes. -/
theorem handleEvent_of_frozen {x : SectionId} {s : State} {b : BlockState} (hb : (s.sectn x).state = some b)
    (hz : (s.sectn x).frozen = true) :
    (s.handleEvent x).sectn x = s.sectn x ∧ (s.handleEvent x).notices = s.notices := by
  rw [handleEvent_frozen hb hz]
  obtain ⟨l, h⟩ := State.outReport_only x s
  exact ⟨(State.outReport_only x s).sectn_eq x, by rw [h]⟩

/-- R140, R142: a record whose handle, at a position, makes or loses correspondence with the state. -/
def settled (r : SectionState) (b : BlockState) : SectionState := { r with outOfCorr := decide (handleFor b ≠ r.handle) }

section Position

variable {x : SectionId} {s : State} {b : BlockState} (hb : (s.sectn x).state = some b)
  (hz : (s.sectn x).frozen = false) (hr : (s.sectn x).retest = false) (hm : (s.sectn x).handle ≠ .moving)
include hb hz hr hm

omit hr in
theorem handleEvent_settles_of_corresponds (hh : (s.sectn x).handle = handleFor b) :
    (s.handleEvent x).sectn x = settled (s.sectn x) b ∧ (s.handleEvent x).notices = s.notices := by
  rw [handleEvent_corresponds hb hz hh]
  refine ⟨?_, onlyRecords_notices (correspond_onlyRecords x s)⟩
  rw [State.correspond_sectn x x b s hb, if_pos rfl, if_neg hm]
  unfold settled
  rw [decide_eq_false (p := (s.sectn x).handle ≠ handleFor b) (fun h => h hh),
    decide_eq_false (p := handleFor b ≠ (s.sectn x).handle) (fun h => h hh.symm)]

omit hz hb hm in
theorem holdHandle_settles (hh : (s.sectn x).handle ≠ handleFor b) :
    (s.holdHandle x false).sectn x = settled (s.sectn x) b ∧ (s.holdHandle x false).notices = s.notices := by
  refine ⟨?_, onlyRecords_notices (holdHandle_onlyRecords x false s)⟩
  rw [holdHandle_sectn, if_pos rfl]
  unfold settled SectionState.held
  rw [decide_eq_true hh.symm, hr]

/-- R147: in STORING a handle is held, but at the corresponding position. -/
theorem handleEvent_of_storing (hst : s.isStoring = true) :
    (s.handleEvent x).sectn x = settled (s.sectn x) b ∧ (s.handleEvent x).notices = s.notices := by
  by_cases hh : (s.sectn x).handle = handleFor b
  · exact handleEvent_settles_of_corresponds hb hz hm hh
  · rw [handleEvent_storing hb hz hh hst]; exact holdHandle_settles hr hh

/-- R141, R142: which handle the four rules act on, and what it leaves. -/
theorem handleEvent_rules {rec : SectionRec} (hrec : s.sectionRec x = some rec)
    (hst : s.isStoring = false) :
    let r := s.sectn x
    let t := s.handleEvent x
    let waits := r.held true
    (b = .offeredIn → r.handle = .lineClear → s.clearAllowed x = true → t.sectn x = r.entered .clearIn ∧ t.notices = s.notices) ∧
    (b = .offeredIn → r.handle = .lineClear → s.clearAllowed x = false → t.sectn x = waits ∧ t.notices = s.notices) ∧
    (b = .clearIn → r.handle = .trainOnLine → t.sectn x = r.entered .onLineIn ∧ t.notices = s.notices) ∧
    (b = .clearIn → r.handle = .lineBlocked → r.cancelReceived = true →
      t.sectn x = r.entered .blocked ∧ t.notices = s.notices) ∧
    (b = .clearIn → r.handle = .lineBlocked → r.cancelReceived = false → t.sectn x = waits ∧ t.notices = s.notices) ∧
    (b = .onLineIn → r.handle = .lineBlocked →
      (s.blockBack x rec → t.sectn x = waits.asked ∧
        t.notices = s.notices ++ [{ consumer := .block x, seq := rec.arrival.toNat, epoch := s.epoch }]) ∧
      (¬s.blockBack x rec → t.sectn x = waits ∧ t.notices = s.notices)) ∧
    (¬(b = .offeredIn ∧ r.handle = .lineClear) → ¬(b = .clearIn ∧ (r.handle = .trainOnLine ∨ r.handle = .lineBlocked)) →
      ¬(b = .onLineIn ∧ r.handle = .lineBlocked) → t.sectn x = settled r b ∧ t.notices = s.notices) := by
  intro r t waits
  have moves : r.handle ≠ handleFor b → t = s.handleMove x b := fun hh => handleEvent_moves hb hz hh hst
  have enters : ∀ a, (s.enterState x a .handle []).sectn x = r.entered a ∧ (s.enterState x a .handle []).notices = s.notices :=
    fun a => ⟨enterState_sectn_same x a _ _ s, onlySections_notices (enterState_onlySections x a _ _ s)⟩
  have holds : (s.holdHandle x true).sectn x = waits ∧ (s.holdHandle x true).notices = s.notices :=
    ⟨by rw [holdHandle_sectn, if_pos rfl], onlyRecords_notices (holdHandle_onlyRecords x true s)⟩
  refine ⟨fun h1 h2 h3 => ?_, fun h1 h2 h3 => ?_, fun h1 h2 => ?_, fun h1 h2 h3 => ?_, fun h1 h2 h3 => ?_,
    fun h1 h2 => ?_, fun h1 h2 h3 => ?_⟩
  · subst h1
    have move : s.handleMove x .offeredIn = s.enterState x .clearIn .handle [] := by
      unfold handleMove; rw [show (s.sectn x).handle = _ from h2]; exact if_pos h3
    rw [moves (by rw [h2]; decide), move]; exact enters _
  · subst h1
    have move : s.handleMove x .offeredIn = s.holdHandle x true := by
      unfold handleMove; rw [show (s.sectn x).handle = _ from h2]; exact if_neg (by rw [h3]; nofun)
    rw [moves (by rw [h2]; decide), move]; exact holds
  · subst h1
    have move : s.handleMove x .clearIn = s.enterState x .onLineIn .handle [] := by
      unfold handleMove; rw [show (s.sectn x).handle = _ from h2]
    rw [moves (by rw [h2]; decide), move]; exact enters _
  · subst h1
    have move : s.handleMove x .clearIn = s.enterState x .blocked .handle [] := by
      unfold handleMove; rw [show (s.sectn x).handle = _ from h2]; exact if_pos h3
    rw [moves (by rw [h2]; decide), move]; exact enters _
  · subst h1
    have move : s.handleMove x .clearIn = s.holdHandle x true := by
      unfold handleMove; rw [show (s.sectn x).handle = _ from h2]; exact if_neg (by rw [h3]; nofun)
    rw [moves (by rw [h2]; decide), move]; exact holds
  · subst h1
    have move : s.handleMove x .onLineIn = (s.holdHandle x true).blockBackTest x := by
      unfold handleMove; rw [show (s.sectn x).handle = _ from h2]
    rw [moves (by rw [h2]; decide), move]
    have rec_eq : (s.holdHandle x true).sectionRec x = some rec :=
      ((holdHandle_onlyRecords x true s).sectionRec_eq x).trans hrec
    obtain ⟨l, same⟩ := State.outReport_only x (s.updSect x (SectionState.held true))
    have back : (s.holdHandle x true).blockBack x rec ↔ s.blockBack x rec := by
      unfold blockBack
      rw [holds.1, show (s.holdHandle x true).seqn rec.arrival.toNat = s.seqn rec.arrival.toNat by
        rw [show s.holdHandle x true = _ from same]; rfl]
      exact Iff.rfl
    refine ⟨fun h => ?_, fun h => ?_⟩
    · rw [blockBackTest_of_asks rec_eq (back.2 h)]
      refine ⟨?_, ?_⟩
      · rw [sectn_sendNotice, State.sectn_updSect_same, holds.1]
      · refine congrArg₂ (· ++ ·) holds.2 ?_
        rw [show s.holdHandle x true = _ from same]; rfl
    · rw [blockBackTest_of_not_asks rec_eq (mt back.1 h)]; exact holds
  · by_cases hh : r.handle = handleFor b
    · exact handleEvent_settles_of_corresponds hb hz hm hh
    · have move : s.handleMove x b = s.holdHandle x false := by
        unfold handleMove
        split
        · rename_i hc; exact absurd ⟨rfl, hc⟩ h1
        · rename_i hc; exact absurd ⟨rfl, .inl hc⟩ h2
        · rename_i hc; exact absurd ⟨rfl, .inr hc⟩ h2
        · rename_i hc; exact absurd ⟨rfl, hc⟩ h3
        · rfl
      rw [moves hh, move]; exact holdHandle_settles hr hh

end Position

end State

/-- R140: the contacts that give a position give that handle. -/
theorem handleOf_position {bl cl tr : Bool} {pos : Handle}
    (h : (bl = true ∧ cl = false ∧ tr = false ∧ pos = .lineBlocked) ∨
      (bl = false ∧ cl = true ∧ tr = false ∧ pos = .lineClear) ∨
      (bl = false ∧ cl = false ∧ tr = true ∧ pos = .trainOnLine)) :
    handleOf bl cl tr = pos ∧ pos ≠ .moving ∧ pos ≠ .unreadable := by
  rcases h with ⟨rfl, rfl, rfl, rfl⟩ | ⟨rfl, rfl, rfl, rfl⟩ | ⟨rfl, rfl, rfl, rfl⟩ <;> exact ⟨rfl, nofun, nofun⟩

/-- Settles O47: the record as read, and then the rules of `handleEvent`. -/
theorem handleRules : Obligations.HandleRules := by
  unfold Obligations.HandleRules
  intro s x rec k made pos b hrec hb bl cl tr hne hpos allowed blockBack
  obtain ⟨hof, hmv, hun⟩ := handleOf_position hpos
  have taken := (exec_handleContactChange x k made s).trans (congrArg Host.Outcome.next (if_neg hne))
  dsimp only at taken
  rw [show handleOf ((s.sectn x).contacts k made).1 ((s.sectn x).contacts k made).2.1 ((s.sectn x).contacts k made).2.2 = pos
    from hof, if_neg fun hc => hun hc.1] at taken
  let u := s.updSect x (SectionState.readAs bl cl tr s.now)
  have own : u.sectn x = (s.sectn x).readAs bl cl tr s.now := State.sectn_updSect_same x _ s
  have read_eq : (s.sectn x).readAs bl cl tr s.now = 
      (fun r : SectionState =>
        { r with blockedMade := bl, clearMade := cl, trainMade := tr, retest := false, movingSince := none, handle := pos })
      (s.sectn x) := by
    unfold SectionState.readAs; rw [hof, if_neg hmv]
  have hub : (u.sectn x).state = some b := by rw [own]; exact hb
  have hur : (u.sectn x).retest = false := by rw [own]; rfl
  have huh : (u.sectn x).handle = pos := by rw [own, read_eq]
  have hrec_u : u.sectionRec x = some rec := hrec
  have event : u.takeHandle x = u.handleEvent x :=
    State.takeHandle_event ((s.sectionFitted_iff x).2 ⟨rec, hrec⟩) (by rw [huh]; exact hmv) (by rw [huh]; exact hun)
  refine ⟨u.handleEvent x, taken.trans (congrArg Host.Outcome.next event), ?_⟩
  beta_reduce
  intro read waits settles
  have own_read : u.sectn x = read := own.trans read_eq
  obtain ⟨asked, others, -⟩ := State.handleEvent_spec x u
  refine ⟨fun hz => ?_, fun hz hst => ?_, fun hz hst => ?_, (otherSections_updSect x _ s).trans others,
    ((onlyRecords_updSect x _ s).sections.asked.trans asked).kept⟩
  · obtain ⟨h1, h2⟩ := State.handleEvent_of_frozen (x := x) (s := u) hub (by rw [own]; exact hz)
    exact ⟨h1.trans own_read, h2⟩
  · have huz : (u.sectn x).frozen = false := by rw [own]; exact hz
    obtain ⟨h1, h2⟩ := State.handleEvent_of_storing (x := x) (s := u) hub huz hur (by rw [huh]; exact hmv)
      (decide_eq_true hst)
    exact ⟨h1.trans (by rw [own_read]; rfl), h2⟩
  · have huz : (u.sectn x).frozen = false := by rw [own]; exact hz
    have may : u.clearAllowed x = true ↔ allowed := by
      refine (State.clearAllowed_iff hrec_u).trans ?_
      rw [own]; exact Iff.rfl
    have back : u.blockBack x rec ↔ blockBack := by
      unfold State.blockBack; rw [own]
      exact ⟨fun ⟨h1, h2, h3, _⟩ => ⟨h1, h2, h3⟩, fun ⟨h1, h2, h3⟩ => ⟨h1, h2, h3, hz⟩⟩
    obtain ⟨r1, r2, r3, r4, r5, r6, r7⟩ := State.handleEvent_rules (x := x) (s := u) hub huz hur (by rw [huh]; exact hmv) hrec_u ((State.isStoring_eq_false s).2 hst)
    rw [own_read] at r1 r2 r3 r4 r5 r6 r7
    have not_may : ¬allowed → u.clearAllowed x = false := fun h => Bool.eq_false_iff.2 (mt may.1 h)
    refine ⟨fun h1 h2 h3 => (r1 h1 h2 (may.2 h3)).1, fun h1 h2 h3 => (r2 h1 h2 (not_may h3)).1,
      fun h1 h2 => (r3 h1 h2).1, fun h1 h2 h3 => (r4 h1 h2 h3).1, fun h1 h2 h3 => (r5 h1 h2 h3).1,
      fun h1 h2 => ⟨fun h => (r6 h1 h2).1 (back.2 h), fun h => ((r6 h1 h2).2 (mt back.1 h)).1⟩,
      fun h1 h2 h3 => (r7 h1 h2 h3).1, fun h => ?_⟩
    by_cases c1 : b = .offeredIn ∧ pos = .lineClear
    · by_cases ha : allowed
      · exact (r1 c1.1 c1.2 (may.2 ha)).2
      · exact (r2 c1.1 c1.2 (not_may ha)).2
    · by_cases c2 : b = .clearIn ∧ (pos = .trainOnLine ∨ pos = .lineBlocked)
      · obtain ⟨hb', hp | hp⟩ := c2
        · exact (r3 hb' hp).2
        · cases hc : (s.sectn x).cancelReceived with
          | true => exact (r4 hb' hp hc).2
          | false => exact (r5 hb' hp hc).2
      · by_cases c3 : b = .onLineIn ∧ pos = .lineBlocked
        · exact ((r6 c3.1 c3.2).2 fun hk => h ⟨c3.1, c3.2, back.1 hk⟩).2
        · exact (r7 c1 c2 c3).2

/-! ### Predicates of the supervisor -/

/-- A predicate of the supervisor that ends, raises and orders keep. -/
structure Listed (P : Supervisor → Prop) : Prop where
  endFault : ∀ c o s, P (State.faults s) → P (s.endFault c o).faults
  entered : ∀ c o now u m f, P f → P (Supervisor.entered c o now u m f)
  sounded : ∀ c now u f, P f → P (Supervisor.sounded c now u f)
  register : ∀ r o s, P (State.faults s) → P (s.register r o).faults

theorem Listed.enterRaise {P : Supervisor → Prop} (h : Listed P) (c : FaultClass) (o : Nat) (m : Bool) {s : State}
    (hs : P s.faults) : P (s.enterRaise c o m).faults := by
  rw [State.enterRaise_faults]; exact h.sounded _ _ _ _ (h.entered _ _ _ _ _ _ hs)

theorem Listed.ordering {P : Supervisor → Prop} (h : Listed P) :
    Ordering (fun _ => True) (fun s => P s.faults) (fun s => P s.faults) where
  toSettling := Steady.settling
    { congr := fun s t hf _ hs => by rw [hf]; exact hs
      endFault := h.endFault }
  enterRaise c o m _ := h.enterRaise c o m
  enterRaiseInside c o m _ := h.enterRaise c o m
  register := h.register
  registerInside := h.register
  supply _ _ := id
  mark _ _ := id
  markInside _ _ := id
  failUnread _ _ _ := id
  fail _ _ := id
  freeze _ _ := id

/-- R153: no end, raise or order changes the masks. -/
theorem listed_masked (v : BitVec 16) : Listed fun f => f.masked = v where
  endFault c o s hs := by
    obtain ⟨g, -, h⟩ := s.endFault_faults c o
    rw [h]; exact hs
  entered c o now u m f hf := by
    unfold Supervisor.entered; split
    · exact hf
    · split
      · exact hf
      · split <;> exact hf
  sounded _ _ _ _ := id
  register r o s hs := by cases r <;> exact hs

/-- R157: no two entries of the class and the object differ in being ACTIVE. -/
def Supervisor.agree (c : FaultClass) (o : Nat) (f : Supervisor) : Prop :=
  ∀ e ∈ f.entries, ∀ g ∈ f.entries, e.is c o = true → g.is c o = true → e.active = g.active

theorem FaultEntry.recur_is (c : FaultClass) (o : Nat) (now : Time) (u m : Bool) (e : FaultEntry) :
    (e.recur now u m).is c o = e.is c o := rfl

/-- R157, R158: a raise makes no new entry but its own. -/
theorem Supervisor.mem_entered {c : FaultClass} {o : Nat} {now : Time} {u m : Bool} {f : Supervisor} {e : FaultEntry}
    (he : e ∈ (f.entered c o now u m).entries) : e.is c o = true ∨ e ∈ f.entries := by
  have new : (newEntry c o now u m).is c o = true := (FaultEntry.is_iff c o _).2 ⟨rfl, rfl⟩
  revert he
  unfold Supervisor.entered; split
  · intro he
    obtain ⟨g, hg, rfl⟩ := List.mem_map.1 he
    split
    · rename_i hi; exact .inl hi
    · exact .inr hg
  · split
    · intro he
      rcases List.mem_append.1 he with he | he
      · exact .inr he
      · rw [List.mem_singleton.1 he]; exact .inl new
    · split
      · intro he
        rcases List.mem_append.1 he with he | he
        · exact .inr (List.mem_of_mem_eraseP he)
        · rw [List.mem_singleton.1 he]; exact .inl new
      · exact .inr

/-- R157, R158: the entries of a raise are all as it makes them. -/
theorem Supervisor.active_of_mem_entered {c : FaultClass} {o : Nat} {now : Time} {u m : Bool} {f : Supervisor} {e : FaultEntry}
    (he : e ∈ (f.entered c o now u m).entries) (hi : e.is c o = true) : e.active = !m := by
  have none : f.entryOf c o = none → ∀ g ∈ f.entries, ¬g.is c o = true := fun h g hg => List.find?_eq_none.1 h g hg
  revert he
  unfold Supervisor.entered; split
  · intro he
    obtain ⟨g, hg, rfl⟩ := List.mem_map.1 he
    by_cases hgi : g.is c o = true
    · rw [if_pos hgi]; rfl
    · rw [if_neg hgi] at hi; exact absurd hi hgi
  · rename_i hn
    split
    · intro he
      rcases List.mem_append.1 he with he | he
      · exact absurd hi (none hn e he)
      · rw [List.mem_singleton.1 he]; rfl
    · split
      · intro he
        rcases List.mem_append.1 he with he | he
        · exact absurd hi (none hn e (List.mem_of_mem_eraseP he))
        · rw [List.mem_singleton.1 he]; rfl
      · exact fun he => absurd hi (none hn e he)

theorem listed_agree (c : FaultClass) (o : Nat) : Listed (Supervisor.agree c o) where
  endFault d p s hs := by
    unfold State.endFault; split
    · exact hs
    · split
      · rw [State.report_faults]
        intro e he g hg hei hgi
        obtain ⟨e, he', rfl⟩ := List.mem_map.1 he
        obtain ⟨g, hg', rfl⟩ := List.mem_map.1 hg
        have is_eq : ∀ x : FaultEntry, (if x.is d p then { x with active := false } else x).is c o = x.is c o := fun x => by
          split <;> rfl
        rw [is_eq] at hei hgi
        have same : ∀ x : FaultEntry, x.is c o = true → x.is d p = decide (c = d ∧ o = p) := fun x hx => by
          obtain ⟨rfl, rfl⟩ := (FaultEntry.is_iff c o x).1 hx
          exact Bool.eq_iff_iff.2 ((FaultEntry.is_iff d p x).trans decide_eq_true_iff.symm)
        rw [same e hei, same g hgi]
        split
        · rfl
        · exact hs e he' g hg' hei hgi
      · exact hs
  entered d p now u m f hf := by
    by_cases h : d = c ∧ p = o
    · obtain ⟨rfl, rfl⟩ := h
      intro e he g hg hei hgi
      exact (Supervisor.active_of_mem_entered he hei).trans (Supervisor.active_of_mem_entered hg hgi).symm
    · have old : ∀ x ∈ (f.entered d p now u m).entries, x.is c o = true → x ∈ f.entries := fun x hx hi =>
        (Supervisor.mem_entered hx).resolve_left fun hd => h <| by
          obtain ⟨h1, h2⟩ := (FaultEntry.is_iff c o x).1 hi
          obtain ⟨h3, h4⟩ := (FaultEntry.is_iff d p x).1 hd
          exact ⟨h3.symm.trans h1, h4.symm.trans h2⟩
      exact fun e he g hg hei hgi => hf e (old e he hei) g (old g hg hgi) hei hgi
  sounded _ _ _ _ := id
  register r o s hs := by cases r <;> exact hs

theorem State.listLawful_agree {s : State} (h : s.listLawful) (c : FaultClass) (o : Nat) : s.faults.agree c o := by
  intro e he g hg hei hgi
  obtain ⟨-, distinct, -⟩ := h
  by_contra hne
  have symm : Std.Symm fun e f : FaultEntry => ¬(e.cls = f.cls ∧ e.object = f.object) :=
    ⟨fun _ _ hab hba => hab ⟨hba.1.symm, hba.2.symm⟩⟩
  obtain ⟨h1, h2⟩ := (FaultEntry.is_iff c o e).1 hei
  obtain ⟨h3, h4⟩ := (FaultEntry.is_iff c o g).1 hgi
  exact distinct.forall he hg (fun h => hne (h ▸ rfl)) ⟨h1.trans h3.symm, h2.trans h4.symm⟩

/-- A condition that is over in a list whose entries agree is over in each of them. -/
theorem State.faultOver_iff_of_agree {s : State} {c : FaultClass} {o : Nat} (h : s.faults.agree c o) :
    s.faultOver c o ↔ ∀ e ∈ s.faults.entries, e.is c o = true → e.active = false := by
  refine ⟨fun ho e he hi => ?_, fun ha e he => ha e (List.mem_of_find?_eq_some he) (List.find?_some he)⟩
  cases hf : s.faults.entryOf c o with
  | none => exact absurd hi (List.find?_eq_none.1 hf e he)
  | some g => exact (h e he g (List.mem_of_find?_eq_some hf) hi (List.find?_some hf)).trans (ho g hf)

/-- R157: a raise of another condition leaves one that is over. -/
theorem State.enterRaise_keeps_over {c d : FaultClass} {o p : Nat} {m : Bool} {s : State} (other : ¬(c = d ∧ o = p))
    (ha : s.faults.agree d p) (h : s.faultOver d p) : (s.enterRaise c o m).faultOver d p := by
  refine (State.faultOver_iff_of_agree ((listed_agree d p).enterRaise c o m ha)).2 fun e he hi => ?_
  rw [State.enterRaise_faults] at he
  refine (State.faultOver_iff_of_agree ha).1 h e ((Supervisor.mem_entered he).resolve_left fun hc => other ?_) hi
  obtain ⟨h1, h2⟩ := (FaultEntry.is_iff d p e).1 hi
  obtain ⟨h3, h4⟩ := (FaultEntry.is_iff c o e).1 hc
  exact ⟨h3.symm.trans h1, h4.symm.trans h2⟩

/-- R155: a condition whose class is not masked is unmasked. -/
theorem Supervisor.unmaskedFor_of_unmasked {c : FaultClass} {o : Nat} {f : Supervisor}
    (h : f.masked.getLsbD c.number = false) : f.unmaskedFor c o = true := by
  rw [Supervisor.unmaskedFor_eq, h]; simp

/-! ### O43: the samples of an indicator line -/

/-- R148: the record of a section, frozen or not. -/
def SectionState.withFrozen (z : Bool) (r : SectionState) : SectionState := { r with frozen := z }

namespace State

/-- R156: a raise that may freeze its section, in its parts. -/
theorem raiseWith_of_freeze {c : FaultClass} (hc : c.order = some .freeze) (m : Bool) (x : SectionId) (s : State) :
    s.raiseWith m c (secCode x).toNat =
      if s.faults.unmaskedFor c (secCode x).toNat = true then
        ((s.enterRaise c (secCode x).toNat m).register .freeze (secCode x).toNat).freezeSection x
      else s.enterRaise c (secCode x).toNat m := by
  split
  · rename_i hu
    have code : secOfCode (secCode x).toNat = some x := (secOfCode_toNat _ x).2 rfl
    rw [raiseWith_of_order hc hu]; simp only [deliver, code]
  · rename_i hu
    unfold raiseWith; rw [hc, Bool.eq_false_iff.2 hu]; rfl

theorem freezeSection_onlySections (x : SectionId) (s : State) : OnlySections s (s.freezeSection x) := by
  unfold freezeSection; split
  · exact (OnlyLink.refl s).records.sections
  · exact ((onlyRecords_updSect x _ s).trans (report_only _ _ _ _ _).records).sections.trans (evaluate_only _ _).sections

theorem evaluate_position (cause : LockCause) (n : Nat) (s : State) :
    ((s.evaluate cause).lever n).position = (s.lever n).position := by
  obtain ⟨_, _, _, _, _, _, h⟩ := evaluate_lever_same cause s n
  rw [h]

theorem freezeSection_position (x : SectionId) (n : Nat) (s : State) :
    ((s.freezeSection x).lever n).position = (s.lever n).position := by
  unfold freezeSection; split
  · rfl
  · rw [evaluate_position, State.lever_of_onlyFaults (report_only _ _ _ _ _).faults]; rfl

section Freeze

variable {c : FaultClass} (hc : c.order = some .freeze) (m : Bool) (x : SectionId) (s : State)
include hc

theorem freezeRaise_onlySections : OnlySections s (s.raiseWith m c (secCode x).toNat) := by
  rw [raiseWith_of_freeze hc]
  have entered : OnlyFaults s (s.enterRaise c (secCode x).toNat m) := enterRaise_only _ _ _ s
  split
  · exact (entered.trans (register_only _ _ _)).eval.sections.trans (freezeSection_onlySections x _)
  · exact entered.eval.sections

theorem freezeRaise_position (n : Nat) : ((s.raiseWith m c (secCode x).toNat).lever n).position = (s.lever n).position := by
  rw [raiseWith_of_freeze hc]
  have entered : OnlyFaults s (s.enterRaise c (secCode x).toNat m) := enterRaise_only _ _ _ s
  split
  · rw [freezeSection_position, State.lever_of_onlyFaults (entered.trans (register_only _ _ _))]
  · rw [State.lever_of_onlyFaults entered]

theorem freezeRaise_sectn (y : SectionId) : (s.raiseWith m c (secCode x).toNat).sectn y =
    if y = x ∧ s.faults.unmaskedFor c (secCode x).toNat = true then (s.sectn x).frozenBy else s.sectn y := by
  rw [raiseWith_of_freeze hc]
  have entered : OnlyFaults s (s.enterRaise c (secCode x).toNat m) := enterRaise_only _ _ _ s
  split
  · rename_i hu
    rw [freezeSection_sectn, (entered.trans (register_only _ _ _)).sectn_eq, (entered.trans (register_only _ _ _)).sectn_eq]
    simp [hu]
  · rename_i hu
    rw [entered.sectn_eq]; simp [hu]

/-- R156: the register of freezes takes the section of an unmasked raise. -/
theorem freezeRaise_frozenSet (hu : s.faults.unmaskedFor c (secCode x).toNat = true) :
    (s.raiseWith m c (secCode x).toNat).faults.frozenSet.getLsbD (secCode x).toNat = true := by
  rw [raiseWith_of_order hc hu, (deliver_register .freeze _ _).2.2]
  exact (bit_or_shift _ _ _ (show (secCode x).toNat < 4 by cases x <;> decide)).trans (by simp)

end Freeze

/-! #### The edge of INDICATOR_MISMATCH -/

/-- What the edge leaves: the sections, but for the freeze of `x`, and the positions of the levers. -/
structure Edged (x : SectionId) (s t : State) : Prop where
  only : OnlySections s t
  position : ∀ n, (t.lever n).position = (s.lever n).position
  sectn : ∃ z, ((s.sectn x).frozen = true → z = true) ∧ t.sectn x = (s.sectn x).withFrozen z
  others : OtherSections x s t

variable {x : SectionId} {s : State}

theorem OnlyFaults.edged {t : State} (h : OnlyFaults s t) : Edged x s t where
  only := h.eval.sections
  position n := by rw [State.lever_of_onlyFaults h]
  sectn := ⟨(s.sectn x).frozen, id, h.sectn_eq x⟩
  others y _ := h.sectn_eq y

theorem mismatchEdge_edged (x : SectionId) (was : Bool) (s : State) : Edged x s (s.mismatchEdge x was) := by
  unfold mismatchEdge; dsimp only; split
  · refine ⟨freezeRaise_onlySections rfl _ x s, fun n => freezeRaise_position rfl _ x s n, ?_, fun y hy => ?_⟩
    · change ∃ z, _ ∧ State.sectn (s.raiseWith false .indicatorMismatch (secCode x).toNat) x = _
      rw [freezeRaise_sectn rfl]; split
      · exact ⟨true, fun _ => rfl, rfl⟩
      · exact ⟨(s.sectn x).frozen, id, rfl⟩
    · exact (freezeRaise_sectn rfl false x s y).trans (if_neg fun h => hy h.1)
  · split
    · exact OnlyFaults.edged (endFault_only _ _ s)
    · exact OnlyFaults.edged (OnlyFaults.refl s)

/-- R148: a cause that comes to stand raises INDICATOR_MISMATCH, and freezes the section where it is unmasked. -/
theorem mismatchEdge_begins (h : (s.sectn x).mismatch = true) :
    s.mismatchEdge x false = s.raise .indicatorMismatch (secCode x).toNat := by
  unfold mismatchEdge; dsimp only; rw [h]; rfl

theorem mismatchEdge_stands (h : (s.sectn x).mismatch = true) : s.mismatchEdge x true = s := by
  unfold mismatchEdge; dsimp only; rw [h]; rfl

theorem mismatchEdge_ends (h : (s.sectn x).mismatch = false) :
    s.mismatchEdge x true = s.endFault .indicatorMismatch (secCode x).toNat := by
  unfold mismatchEdge; dsimp only; rw [h]; rfl

theorem mismatchEdge_absent (h : (s.sectn x).mismatch = false) : s.mismatchEdge x false = s := by
  unfold mismatchEdge; dsimp only; rw [h]; rfl

/-! #### INDICATOR_MISMATCH is over where no cause stands -/

/-- R148, R157: where no cause stands the condition is over, and the list is one that tells. -/
def mismatchTold (s : State) (x : SectionId) : Prop :=
  s.faults.agree .indicatorMismatch (secCode x).toNat ∧
  ((s.sectn x).mismatch = false → s.faultOver .indicatorMismatch (secCode x).toNat)

theorem mismatchEdge_told {was : Bool} (ha : s.faults.agree .indicatorMismatch (secCode x).toNat)
    (h : was = false → s.faultOver .indicatorMismatch (secCode x).toNat) : (s.mismatchEdge x was).mismatchTold x := by
  have agree : (s.mismatchEdge x was).faults.agree .indicatorMismatch (secCode x).toNat :=
    (listed_agree _ _).ordering.raising.mismatchEdge x was ha
  obtain ⟨z, -, hz⟩ := (mismatchEdge_edged x was s).sectn
  refine ⟨agree, fun hm => ?_⟩
  have none : (s.sectn x).mismatch = false := by rw [hz] at hm; exact hm
  cases was with
  | true => rw [mismatchEdge_ends none]; exact endFault_over _ _ s
  | false => rw [mismatchEdge_absent none]; exact h rfl

/-- A step that keeps the record's causes, keeps what is told when it keeps what is over. -/
theorem mismatchTold.keep {t : State} (h : s.mismatchTold x) (hm : (t.sectn x).mismatch = (s.sectn x).mismatch)
    (ha : s.faults.agree .indicatorMismatch (secCode x).toNat → t.faults.agree .indicatorMismatch (secCode x).toNat)
    (ho : s.faultOver .indicatorMismatch (secCode x).toNat → t.faultOver .indicatorMismatch (secCode x).toNat) :
    t.mismatchTold x := by
  obtain ⟨agree, ended⟩ := h
  exact ⟨ha agree, fun h => ho (ended (hm ▸ h))⟩

theorem mismatchTold.updSect (h : s.mismatchTold x) {f : SectionState → SectionState}
    (hf : (f (s.sectn x)).mismatch = (s.sectn x).mismatch) : (s.updSect x f).mismatchTold x :=
  h.keep (by rw [State.sectn_updSect_same, hf]) id id

theorem mismatchTold.link {t : State} (h : s.mismatchTold x) (ht : OnlyLink s t) : t.mismatchTold x := by
  obtain ⟨l, rfl⟩ := ht; exact h

theorem enterState_told (b : BlockState) (w : StateCause) (rs : List (Nat × List Byte)) (h : s.mismatchTold x) :
    (s.enterState x b w rs).mismatchTold x := by
  obtain ⟨agree, ended⟩ := h
  unfold enterState; dsimp only
  generalize hu : s.updSect x _ = u
  have edge : (u.mismatchEdge x (s.sectn x).mismatch).mismatchTold x :=
    mismatchEdge_told (by rw [← hu]; exact agree) (by rw [← hu]; exact ended)
  have reported := (edge.link (State.sectReport_only x 1 [optBlock (s.sectn x).state, b.code, w.code] _)).link
    (State.sectReports_only x rs _)
  generalize State.sectReports x rs _ = v at reported ⊢
  have corresponds : (v.correspond x).mismatchTold x := by
    unfold correspond; dsimp only; split
    · exact reported
    · split
      · exact reported
      · split
        · split
          · exact (reported.updSect rfl).link (State.backReport_only _ _)
          · exact reported
        · exact (reported.updSect rfl).link (State.outReport_only _ _)
  exact corresponds.keep (by rw [(State.evaluate_only _ _).sectn_eq]) (fun ha => (listed_agree _ _).ordering.evaluate _ _ ha)
    (evaluate_keeps_over _)

/-- R137: what every step of a measured polarity keeps. -/
theorem followPolarity_keeps {P : State → Prop} (report : ∀ r d u, P u → P (State.sectReport x r d u))
    (early : ∀ z u, P u → P (State.updSect x (fun r => { r with earlyClear := z }) u))
    (enter : ∀ b w rs, P s → P (s.enterState x b w rs)) (c : Bool) (hs : P s) : P (s.followPolarity x c) := by
  have reports : ∀ rs (u : State), P u → P (u.sectReports x rs) := fun rs => by
    induction rs with
    | nil => exact fun _ => id
    | cons r rs ih => exact fun u hu => ih _ (report _ _ u hu)
  unfold followPolarity setEarlyClear; dsimp only; split
  · exact reports _ _ hs
  · split
    · exact report _ _ _ (early true _ (reports _ _ hs))
    · exact enter _ _ _ hs
    · split
      · exact report _ _ _ (early false _ (reports _ _ hs))
      · exact reports _ _ hs
    · exact enter _ _ _ hs
    · exact enter _ _ _ hs
    · exact enter _ _ _ hs
    · exact enter _ _ _ hs
    · exact enter _ _ _ hs
    · exact enter _ _ _ hs
    · exact early true _ (enter _ _ _ hs)
    · exact enter _ _ _ hs
    · exact reports _ _ hs

theorem takePolarity_told (c : Bool) (h : s.mismatchTold x) : (s.takePolarity x c).mismatchTold x := by
  have followed : (s.followPolarity x c).mismatchTold x :=
    followPolarity_keeps (P := fun u => u.mismatchTold x) (fun r d u hu => hu.link (State.sectReport_only _ _ _ _))
      (fun z u hu => hu.updSect rfl) (fun b w rs => enterState_told b w rs) c h
  unfold takePolarity; dsimp only; split
  · refine followed.keep ?_ (fun ha => (listed_agree _ _).ordering.raising.irregular x ha) fun ho => ?_
    · rw [irregular_sectn]; split <;> rfl
    · exact raiseWith_keeps_over (enterRaise_keeps_over (fun hc => (nomatch hc.1)) followed.1 ho)
  · exact followed

end State

/-- R128: the out-of-scale run and the scale cause after a sample. -/
def SectionState.scaled (out : Bool) (r : SectionState) : SectionState :=
  if out then { r with scaleRun := min 3 (r.scaleRun + 1), scaleCause := r.scaleCause || decide (2 ≤ r.scaleRun) }
  else { r with scaleRun := 0, scaleCause := false }

/-- R129: the mismatch run and the drive cause after a sample of a driven line. -/
def SectionState.checked (p : Polarity) (cand : Option Polarity) (r : SectionState) : SectionState :=
  if r.measured ≠ p ∧ cand ≠ some p then
    { r with mismatchRun := min 3 (r.mismatchRun + 1), driveCause := r.driveCause || decide (2 ≤ r.mismatchRun) }
  else { r with mismatchRun := 0, driveCause := false }

/-- R129: the check against the drive, of a line that is driven. -/
def SectionState.compared (cand : Option Polarity) (r : SectionState) : SectionState :=
  match r.drive.polarity with
  | none => r
  | some p => r.checked p cand

theorem SectionState.checked_scale (p : Polarity) (cand : Option Polarity) (r : SectionState) :
    (r.checked p cand).scaleCause = r.scaleCause := by
  unfold SectionState.checked; split <;> rfl

theorem SectionState.followed_mismatch (b : BlockState) (m : Polarity) (r : SectionState)
    (h : (r.followed b m).mismatch = true) : r.mismatch = true := by
  have cleared : ∀ u : SectionState, (u.clearedEarly b m).mismatch = u.mismatch := fun _ => rfl
  unfold SectionState.followed at h
  rw [cleared] at h
  split at h
  · exact h
  · obtain ⟨he, hm⟩ := State.entered_eq (polarityNext b m) r
    rw [← he] at h; exact hm h

/-- A bank with a record put where it stands is the bank. -/
theorem Bank.put_at_self {α : Type} [Inhabited α] {n : Nat} (b : Bank α n) (k : Nat) :
    Bank.put b k (Bank.at b k) = b := by
  cases k with
  | zero => rfl
  | succ j =>
    refine Vector.ext fun i hi => ?_
    by_cases hj : j = i
    · subst j
      simp [Bank.put, Bank.at, hi]
    · simp [Bank.put, Vector.getElem_setIfInBounds_ne, hj]

namespace State

theorem updSect_of_same {x : SectionId} {f : SectionState → SectionState} {s : State} (h : f (s.sectn x) = s.sectn x) :
    s.updSect x f = s := by
  unfold State.updSect; rw [h]
  exact congrArg (fun b => { s with sections := b }) (Bank.put_at_self s.sections (secNo x))

theorem scaleStage_eq (x : SectionId) (out : Bool) (s : State) :
    s.scaleStage x out = (s.updSect x (SectionState.scaled out)).mismatchEdge x (s.sectn x).mismatch := rfl

theorem driveStage_eq (x : SectionId) (cand : Option Polarity) (s : State) : s.driveStage x cand =
    (s.updSect x (SectionState.compared cand)).mismatchEdge x (s.sectn x).mismatch := by
  unfold driveStage; dsimp only
  cases hp : (s.sectn x).drive.polarity with
  | none =>
    have same : SectionState.compared cand (s.sectn x) = s.sectn x := by unfold SectionState.compared; rw [hp]
    rw [updSect_of_same same]
    cases hm : (s.sectn x).mismatch with
    | true => exact (mismatchEdge_stands hm).symm
    | false => exact (mismatchEdge_absent hm).symm
  | some p =>
    refine congrArg (fun u : State => u.mismatchEdge x (s.sectn x).mismatch) (State.updSect_congr ?_)
    unfold SectionState.compared; rw [hp]; rfl

end State

namespace State

/-! #### INDICATOR_MISMATCH is shown where a cause comes to stand -/

/-- R148, R156: where a cause stands the condition is shown, and the section is frozen if the class is not masked. -/
def mismatchShown (s : State) (x : SectionId) (masks : BitVec 16) : Prop :=
  s.faults.masked = masks ∧ ((s.sectn x).mismatch = true → s.faultShown .indicatorMismatch (secCode x).toNat ∧
    (masks.getLsbD FaultClass.indicatorMismatch.number = false →
      (s.sectn x).frozen = true ∧ s.faults.frozenSet.getLsbD (secCode x).toNat = true))

variable {x : SectionId} {s : State} {v : BitVec 16}

/-- R148: a sample's update of the causes, and its edge. -/
theorem mismatchShown.edge (h : s.mismatchShown x v) {f : SectionState → SectionState}
    (hf : (f (s.sectn x)).frozen = (s.sectn x).frozen) :
    ((s.updSect x f).mismatchEdge x (s.sectn x).mismatch).mismatchShown x v := by
  obtain ⟨masks, shows⟩ := h
  have masked : ((s.updSect x f).mismatchEdge x (s.sectn x).mismatch).faults.masked = v :=
    (listed_masked v).ordering.raising.mismatchEdge (s := s.updSect x f) x _ masks
  refine ⟨masked, fun hm => ?_⟩
  obtain ⟨z, -, hz⟩ := (mismatchEdge_edged x (s.sectn x).mismatch (s.updSect x f)).sectn
  have stands : ((s.updSect x f).sectn x).mismatch = true := by rw [hz] at hm; exact hm
  cases hwas : (s.sectn x).mismatch with
  | true =>
    rw [mismatchEdge_stands stands]
    obtain ⟨shown, frozen⟩ := shows hwas
    refine ⟨shown, fun hk => ⟨?_, (frozen hk).2⟩⟩
    rw [State.sectn_updSect_same, hf]; exact (frozen hk).1
  | false =>
    rw [mismatchEdge_begins stands]
    refine ⟨raise_shown _ _ _, fun hk => ?_⟩
    have unmasked : (s.updSect x f).faults.unmaskedFor .indicatorMismatch (secCode x).toNat = true :=
      Supervisor.unmaskedFor_of_unmasked (masks ▸ hk)
    refine ⟨?_, freezeRaise_frozenSet rfl _ _ _ unmasked⟩
    exact congrArg SectionState.frozen ((freezeRaise_sectn rfl false x _ x).trans (if_pos ⟨rfl, unmasked⟩))

/-- R149: an entry into a state leaves what is shown where a cause still stands. -/
theorem mismatchShown.enter (h : s.mismatchShown x v) (b : BlockState) (w : StateCause) (rs : List (Nat × List Byte)) :
    (s.enterState x b w rs).mismatchShown x v := by
  obtain ⟨masks, shows⟩ := h
  refine ⟨(listed_masked v).ordering.enterState x b w rs masks, fun hm => ?_⟩
  rw [enterState_sectn_same] at hm
  obtain ⟨entered, earlier⟩ := State.entered_eq b (s.sectn x)
  have arrives : SectionState.mismatch ((fun r : SectionState =>
      { (r.entering b).driven (driveOf (some b)) with state := some b, retest := false }) (s.sectn x)) = true :=
    (congrArg SectionState.mismatch entered).trans hm
  have was : (s.sectn x).mismatch = true := earlier arrives
  obtain ⟨shown, frozen⟩ := shows was
  refine ⟨?_, fun hk => ⟨?_, ?_⟩⟩
  · rw [enterState_eq]
    have stands : ((s.sectn x).mismatch && !((s.updSect x fun r =>
        { (r.entering b).driven (driveOf (some b)) with state := some b, retest := false }).sectn x).mismatch) = false := by
      rw [State.sectn_updSect_same, was, arrives]; rfl
    rw [stands]
    refine evaluate_keeps_shown _ (by decide) ?_
    have link : ∀ {u w : State}, OnlyLink u w → u.faultShown .indicatorMismatch (secCode x).toNat →
        w.faultShown .indicatorMismatch (secCode x).toNat := fun h hs => by obtain ⟨l, rfl⟩ := h; exact hs
    have records : ∀ {u w : State}, OnlyRecords u w → u.faultShown .indicatorMismatch (secCode x).toNat →
        w.faultShown .indicatorMismatch (secCode x).toNat := fun h hs => by obtain ⟨se, l, rfl⟩ := h; exact hs
    exact records (correspond_onlyRecords x _) (link ((State.sectReport_only _ _ _ _).trans (State.sectReports_only _ _ _)) shown)
  · rw [enterState_sectn_same]; exact (frozen hk).1
  · exact ((steady_frozenSet _).settling.enterState x b w rs rfl).symm ▸ (frozen hk).2

/-! #### The stages of a sample -/

/-- R142: a sample finds a handle held at LINE CLEAR in OFFERED_IN, and its re-test accepts it. -/
def sampleAccepts (s : State) (x : SectionId) : Prop :=
  (s.sectn x).state = some .offeredIn ∧ s.retestable x ∧ (s.sectn x).handle = .lineClear ∧ s.clearAllowed x = true

theorem sampleRetest_of_accepts (h : s.sampleAccepts x) : s.sampleRetest x = s.enterState x .clearIn .handle [] := by
  obtain ⟨hs, hr, hh, hc⟩ := h
  unfold sampleRetest
  rw [if_pos hs, retest_offeredIn none hr hs hh, if_pos hc]; rfl

theorem sampleRetest_of_not_accepts (h : ¬s.sampleAccepts x) : s.sampleRetest x = s := by
  unfold sampleRetest
  by_cases hs : (s.sectn x).state = some .offeredIn
  · rw [if_pos hs]
    by_cases hr : s.retestable x
    · by_cases hh : (s.sectn x).handle = .lineClear
      · rw [retest_offeredIn none hr hs hh, if_neg fun hc => h ⟨hs, hr, hh, hc⟩]; rfl
      · rw [retest_other none (fun h => hh h.2) (fun h => by rw [hs] at h; exact nomatch h.1)
          (fun h => by rw [hs] at h; exact nomatch h.1)]; rfl
    · rw [retest_of_not_retestable none hr]; rfl
  · rw [if_neg hs]

theorem acceptsTrain_eq (s : State) {rec : SectionRec} (hr : s.sectionRec x = some rec) :
    s.clearAllowed x = s.acceptsTrain x rec := by
  unfold clearAllowed acceptsTrain; rw [hr]
  cases (s.sectn x).offered <;> rfl

theorem Edged.trans {t u : State} (h : Edged x s t) (g : Edged x t u) : Edged x s u where
  only := h.only.trans g.only
  position n := (g.position n).trans (h.position n)
  sectn := by
    obtain ⟨z, hz, h⟩ := h.sectn
    obtain ⟨w, hw, g⟩ := g.sectn
    exact ⟨w, fun hf => hw (by rw [h]; exact hz hf), by rw [g, h]; rfl⟩
  others := h.others.trans g.others

/-- R127, R128: the measured polarity of a sample, taken. -/
theorem measureStage_spec (x : SectionId) (cand : Option Polarity) (r : Sample) (s : State) :
    ((s.measureStage x cand r).sectn x).scaleRun = (s.sectn x).scaleRun ∧
    ((s.measureStage x cand r).sectn x).scaleCause = (s.sectn x).scaleCause ∧
    (((s.measureStage x cand r).sectn x).mismatch = true → (s.sectn x).mismatch = true) ∧
    OtherSections x s (s.measureStage x cand r) ∧ OnlySections s (s.measureStage x cand r) := by
  unfold measureStage polarityChanged; dsimp only
  generalize hu : s.updSect x _ = u
  have kept : ∀ y : SectionState, (y.confirm cand).scaleRun = y.scaleRun ∧ (y.confirm cand).scaleCause = y.scaleCause ∧
      (y.confirm cand).mismatch = y.mismatch := fun y => by
    unfold SectionState.confirm; split
    · exact ⟨rfl, rfl, rfl⟩
    · split
      · exact ⟨rfl, rfl, rfl⟩
      · split
        · dsimp only; split <;> exact ⟨rfl, rfl, rfl⟩
        · exact ⟨rfl, rfl, rfl⟩
  have own : u.sectn x = (fun y : SectionState => ({ y with lastRaw := r } : SectionState).confirm cand) (s.sectn x) := by
    rw [← hu, State.sectn_updSect_same]
  obtain ⟨h1, h2, h3⟩ := kept { s.sectn x with lastRaw := r }
  have u1 : (u.sectn x).scaleRun = (s.sectn x).scaleRun := by rw [own]; exact h1
  have u2 : (u.sectn x).scaleCause = (s.sectn x).scaleCause := by rw [own]; exact h2
  have u3 : (u.sectn x).mismatch = (s.sectn x).mismatch := by rw [own]; exact h3
  have others : OtherSections x s u := hu ▸ otherSections_updSect x _ s
  have only : OnlySections s u := hu ▸ (onlyRecords_updSect x _ s).sections
  split
  · exact ⟨u1, u2, fun h => u3 ▸ h, others, only⟩
  · by_cases hs : (u.sectn x).frozen = true ∨ (u.sectn x).state = none
    · have link : OnlyLink u (u.takePolarity x true) := by
        rw [takePolarity_stands hs]; exact State.sectReports_only x _ u
      rw [link.sectn_eq]
      exact ⟨u1, u2, fun h => u3 ▸ h, others.trans (link.otherSections x), only.trans link.records.sections⟩
    · obtain ⟨hz, hst⟩ := not_or.1 hs
      obtain ⟨b, hb⟩ := Option.ne_none_iff_exists'.1 hst
      have sectn := takePolarity_sectn hb (Bool.eq_false_iff.2 hz) true
      have scale : ((u.sectn x).followed b (u.sectn x).measured).scaleRun = (u.sectn x).scaleRun ∧
          ((u.sectn x).followed b (u.sectn x).measured).scaleCause = (u.sectn x).scaleCause := by
        unfold SectionState.followed SectionState.clearedEarly; dsimp only; split <;> exact ⟨rfl, rfl⟩
      refine ⟨?_, ?_, fun h => ?_, others.trans fun y hy => by rw [sectn, if_neg hy], only.trans ?_⟩
      · rw [sectn, if_pos rfl, ← u1]; exact scale.1
      · rw [sectn, if_pos rfl, ← u2]; exact scale.2
      · rw [sectn, if_pos rfl] at h
        rw [← u3]; exact SectionState.followed_mismatch b _ _ h
      · unfold takePolarity; dsimp only; split
        · exact (followPolarity_onlySections x true u).trans (freezeRaise_onlySections (c := .blockIrregular) rfl true x _)
        · exact followPolarity_onlySections x true u

/-- R127 to R129: the two checks of a sample. -/
def sampleChecked (x : SectionId) (out : Bool) (cand : Option Polarity) (s : State) : State :=
  (s.scaleStage x out).driveStage x cand

theorem sampleChecked_spec (x : SectionId) (out : Bool) (cand : Option Polarity) (s : State) :
    ∃ z, ((s.sectn x).frozen = true → z = true) ∧
      (s.sampleChecked x out cand).sectn x = (((s.sectn x).scaled out).compared cand).withFrozen z ∧
      OtherSections x s (s.sampleChecked x out cand) ∧ OnlySections s (s.sampleChecked x out cand) ∧
      ∀ n, ((s.sampleChecked x out cand).lever n).position = (s.lever n).position := by
  unfold sampleChecked
  obtain ⟨only1, position1, ⟨z, hz, sectn1⟩, others1⟩ :=
    mismatchEdge_edged x (s.sectn x).mismatch (s.updSect x (SectionState.scaled out))
  rw [← scaleStage_eq] at only1 position1 sectn1 others1
  generalize s.scaleStage x out = u at *
  obtain ⟨only2, position2, ⟨w, hw, sectn2⟩, others2⟩ :=
    mismatchEdge_edged x (u.sectn x).mismatch (u.updSect x (SectionState.compared cand))
  rw [← driveStage_eq] at only2 position2 sectn2 others2
  rw [State.sectn_updSect_same] at hz sectn1 hw sectn2
  have frozen1 : ((s.sectn x).scaled out).frozen = (s.sectn x).frozen := by unfold SectionState.scaled; split <;> rfl
  have frozen2 : ∀ r : SectionState, (r.compared cand).frozen = r.frozen := fun r => by
    unfold SectionState.compared SectionState.checked; split
    · rfl
    · split <;> rfl
  have freeze2 : ∀ (r : SectionState) (z w : Bool), ((r.withFrozen z).compared cand).withFrozen w =
      (r.compared cand).withFrozen w := fun r z w => by
    unfold SectionState.compared SectionState.checked SectionState.withFrozen; dsimp only; split
    · rfl
    · split <;> rfl
  refine ⟨w, fun hf => hw ?_, ?_, ?_, ?_, fun n => (position2 n).trans (position1 n)⟩
  · rw [frozen2, sectn1]; exact hz (frozen1.trans hf)
  · rw [sectn2, sectn1, freeze2]
  · exact ((otherSections_updSect x _ s).trans others1).trans ((otherSections_updSect x _ u).trans others2)
  · exact ((onlyRecords_updSect x _ s).sections.trans only1).trans ((onlyRecords_updSect x _ u).sections.trans only2)

end State

/-- R127, R128: the candidate of a sample, and the measured polarity that it confirms. -/
theorem candidate_spec (rec : SectionRec) (present : Polarity) (r : Sample) :
    (r.toNat ≤ 3 ∨ 1020 ≤ r.toNat → State.sampleCandidate rec present r = none) ∧
    (3 < r.toNat → r.toNat < 1020 → State.sampleCandidate rec present r = some
      (if 512 + rec.onLevel.toNat ≤ r.toNat then .positive
       else if r.toNat + rec.onLevel.toNat ≤ 512 then .negative
       else if 512 ≤ r.toNat + rec.offLevel.toNat ∧ r.toNat ≤ 512 + rec.offLevel.toNat then .none
       else present)) := by
  have scale : outOfScale r = true ↔ r.toNat ≤ 3 ∨ 1020 ≤ r.toNat := by simp [outOfScale]
  refine ⟨fun hr => if_pos (scale.2 hr), fun h1 h2 => ?_⟩
  unfold State.sampleCandidate
  rw [if_neg fun hs => by have := scale.1 hs; omega]
  unfold candidateOf; dsimp only
  congr 1
  refine if_congr (by omega) rfl (if_congr (by omega) rfl (if_congr (by omega) rfl rfl))

theorem confirm_spec (y : SectionState) (cand : Option Polarity) :
    ((cand = none ∨ cand = some y.measured) → y.confirm cand = { y with candidate := none, candRun := 0 }) ∧
    (∀ p, cand = some p → p ≠ y.measured → y.candidate ≠ some p →
      y.confirm cand = { y with candidate := some p, candRun := 1 }) ∧
    (∀ p, cand = some p → p ≠ y.measured → y.candidate = some p → y.candRun < 2 →
      y.confirm cand = { y with candRun := y.candRun + 1 }) ∧
    (∀ p, cand = some p → p ≠ y.measured → y.candidate = some p → 2 ≤ y.candRun →
      y.confirm cand = { y with measured := p, candidate := none, candRun := 0 }) := by
  refine ⟨fun h => ?_, fun p hp hm hc => ?_, fun p hp hm hc hr => ?_, fun p hp hm hc hr => ?_⟩
  · rcases h with rfl | rfl
    · rfl
    · exact if_pos rfl
  · subst hp
    unfold SectionState.confirm; dsimp only; rw [if_neg hm, if_neg hc]; rfl
  · subst hp
    unfold SectionState.confirm; dsimp only; rw [if_neg hm, if_pos hc, if_neg (by omega), ← hc]
  · subst hp
    unfold SectionState.confirm; dsimp only; rw [if_neg hm, if_pos hc, if_pos (by omega)]

theorem confirm_raw (cand : Option Polarity) (r : Sample) (y : SectionState) :
    ({ y with lastRaw := r } : SectionState).confirm cand = { y.confirm cand with lastRaw := r } := by
  unfold SectionState.confirm; dsimp only; split
  · rfl
  · split
    · rfl
    · split
      · split <;> rfl
      · rfl

theorem scaled_frozen (b : Bool) (r : SectionState) : (r.scaled b).frozen = r.frozen := by
  unfold SectionState.scaled; split <;> rfl

theorem compared_frozen (cand : Option Polarity) (r : SectionState) : (r.compared cand).frozen = r.frozen := by
  unfold SectionState.compared SectionState.checked; split
  · rfl
  · split <;> rfl

theorem compared_scale (cand : Option Polarity) (r : SectionState) :
    (r.compared cand).scaleRun = r.scaleRun ∧ (r.compared cand).scaleCause = r.scaleCause := by
  unfold SectionState.compared SectionState.checked; split
  · exact ⟨rfl, rfl⟩
  · split <;> exact ⟨rfl, rfl⟩

/-- R129: the mismatch run and the drive cause after the two checks of a sample. -/
theorem compared_drive (o : Bool) (cand : Option Polarity) (b : SectionState) :
    let w := (b.scaled o).compared cand
    (b.drive.polarity = none → w.mismatchRun = b.mismatchRun ∧ w.driveCause = b.driveCause) ∧
    (∀ p, b.drive.polarity = some p →
      (b.measured = p ∨ cand = some p → w.mismatchRun = 0 ∧ w.driveCause = false) ∧
      (b.measured ≠ p → cand ≠ some p → w.mismatchRun = min 3 (b.mismatchRun + 1) ∧
        (w.driveCause = true ↔ b.driveCause = true ∨ 2 ≤ b.mismatchRun))) := by
  have scale : ∃ m d, b.scaled o = { b with scaleRun := m, scaleCause := d } := by
    unfold SectionState.scaled; split <;> exact ⟨_, _, rfl⟩
  obtain ⟨m, d, h⟩ := scale
  rw [h]
  unfold SectionState.compared; dsimp only
  refine ⟨fun hp => by rw [hp]; exact ⟨rfl, rfl⟩, fun p hp => ⟨fun hm => ?_, fun hm hc => ?_⟩⟩ <;> rw [hp] <;>
    unfold SectionState.checked <;> dsimp only
  · rw [if_neg fun hc => hm.elim hc.1 hc.2]; exact ⟨rfl, rfl⟩
  · rw [if_pos ⟨hm, hc⟩]; exact ⟨rfl, by simp⟩

theorem SectionState.mismatch_iff (r : SectionState) : r.mismatch = true ↔ r.scaleCause = true ∨ r.driveCause = true :=
  Bool.or_eq_true _ _ ▸ Iff.rfl

/-- R127 to R129: the checks of a sample write the runs and the causes alone. -/
theorem compared_scaled_eq (o : Bool) (cand : Option Polarity) (b : SectionState) : (b.scaled o).compared cand =
    { b with scaleRun := ((b.scaled o).compared cand).scaleRun, scaleCause := ((b.scaled o).compared cand).scaleCause,
             mismatchRun := ((b.scaled o).compared cand).mismatchRun,
             driveCause := ((b.scaled o).compared cand).driveCause } := by
  have scale : ∃ m d, b.scaled o = { b with scaleRun := m, scaleCause := d } := by
    unfold SectionState.scaled; split <;> exact ⟨_, _, rfl⟩
  obtain ⟨m, d, h⟩ := scale
  rw [h]
  unfold SectionState.compared SectionState.checked; dsimp only; split
  · rfl
  · split <;> rfl

namespace State

variable {x : SectionId} {s : State}

theorem mismatchTold.edge (h : s.mismatchTold x) (f : SectionState → SectionState) :
    ((s.updSect x f).mismatchEdge x (s.sectn x).mismatch).mismatchTold x := by
  obtain ⟨agree, ended⟩ := h
  exact mismatchEdge_told (s := s.updSect x f) agree ended

theorem mismatchTold.measure (h : s.mismatchTold x) (cand : Option Polarity) (r : Sample) :
    (s.measureStage x cand r).mismatchTold x := by
  have confirmed : (s.updSect x fun y => ({ y with lastRaw := r } : SectionState).confirm cand).mismatchTold x := by
    refine h.updSect ?_
    rw [confirm_raw]
    unfold SectionState.confirm SectionState.mismatch; dsimp only; split
    · rfl
    · split
      · rfl
      · split
        · split <;> rfl
        · rfl
  unfold measureStage polarityChanged; dsimp only; split
  · exact confirmed
  · exact takePolarity_told true confirmed

end State

/-- Settles O43. -/
theorem measuredPolarity : Obligations.MeasuredPolarity := by
  unfold Obligations.MeasuredPolarity
  refine ⟨fun rec present r y cand _ => ?_, fun s x rec r hrec => ?_⟩
  · obtain ⟨h1, h2⟩ := candidate_spec rec present r
    exact ⟨h1, h2, confirm_spec y cand⟩
  · intro a cand confirmed judged b out t c followed enters obj
    have scale : outOfScale r = true ↔ out := by simp [outOfScale, out]
    have judged_eq : s.measureStage x cand r = judged := by
      have same := funext (confirm_raw cand r)
      unfold State.measureStage State.polarityChanged
      rw [same]
    have sample : t = (judged.sampleChecked x (outOfScale r) cand).sampleRetest x := by
      unfold t State.sectionSample; rw [hrec, ← judged_eq]; rfl
    obtain ⟨run, cause, mismatch, others1, only1⟩ := State.measureStage_spec x cand r s
    rw [judged_eq] at run cause mismatch others1 only1
    obtain ⟨z, hz, sectn, others2, only2, position⟩ := State.sampleChecked_spec x (outOfScale r) cand judged
    generalize hu : judged.sampleChecked x (outOfScale r) cand = u at *
    have shown : ¬a.mismatch = true → t.mismatchShown x s.faults.masked := fun ha => by
      have masked : judged.faults.masked = s.faults.masked :=
        judged_eq ▸ (listed_masked s.faults.masked).ordering.raising.measureStage x cand r rfl
      have start : judged.mismatchShown x s.faults.masked := ⟨masked, fun hm => absurd (mismatch hm) ha⟩
      have checked : u.mismatchShown x s.faults.masked := by
        rw [← hu]; unfold State.sampleChecked
        rw [State.driveStage_eq, State.scaleStage_eq]
        exact (start.edge (scaled_frozen _ _)).edge (compared_frozen _ _)
      rw [sample]
      by_cases h : u.sampleAccepts x
      · rw [State.sampleRetest_of_accepts h]; exact checked.enter _ _ _
      · rw [State.sampleRetest_of_not_accepts h]; exact checked
    have told : s.listLawful → a.mismatch = true → t.mismatchTold x := fun hl ha => by
      have start : s.mismatchTold x := ⟨State.listLawful_agree hl _ _, fun hn => by rw [show a.mismatch = false from hn] at ha; exact nomatch ha⟩
      have measured : judged.mismatchTold x := judged_eq ▸ start.measure cand r
      have checked : u.mismatchTold x := by
        rw [← hu]; unfold State.sampleChecked
        rw [State.driveStage_eq, State.scaleStage_eq]
        exact (measured.edge _).edge _
      rw [sample]
      by_cases h : u.sampleAccepts x
      · rw [State.sampleRetest_of_accepts h]; exact State.enterState_told _ _ _ checked
      · rw [State.sampleRetest_of_not_accepts h]; exact checked
    have rec_u : u.sectionRec x = some rec := ((only1.trans only2).sectionRec_eq x).trans hrec
    set w := (b.scaled (outOfScale r)).compared cand with hw
    have own : u.sectn x = w.withFrozen z := sectn
    have w_eq : w = { b with
        scaleRun := w.scaleRun, scaleCause := w.scaleCause, mismatchRun := w.mismatchRun, driveCause := w.driveCause } :=
      compared_scaled_eq _ _ b
    have followed_eq : followed = b.drive.polarity := by unfold followed; cases b.drive <;> rfl
    have accepted : judged.acceptsTrain x rec = u.clearAllowed x := by
      rw [State.acceptsTrain_eq u rec_u]
      unfold State.acceptsTrain
      rw [position, own, w_eq, show u.track rec.clearing.toNat = judged.track rec.clearing.toNat by
        obtain ⟨_, _, _, _, rfl⟩ := only2; rfl]
      rfl
    have storing : u.isStoring = false ↔ s.store.part ≠ .storing := by
      rw [State.isStoring_eq_false]
      obtain ⟨_, _, _, _, rfl⟩ := only1.trans only2
      exact Iff.rfl
    have frozen_c : c.frozen = z := by
      unfold c; rw [sample]
      by_cases h : u.sampleAccepts x
      · rw [State.sampleRetest_of_accepts h, State.enterState_sectn_same, own]; rfl
      · rw [State.sampleRetest_of_not_accepts h, own]; rfl
    have accepts : enters ↔ u.sampleAccepts x := by
      unfold enters State.sampleAccepts State.retestable
      rw [frozen_c, accepted, storing, own, w_eq]
      exact ⟨fun ⟨h1, h2, h3, h4, h5, h6⟩ => ⟨h1, ⟨h2, h4, h5⟩, h3, h6⟩,
        fun ⟨h1, ⟨h2, h4, h5⟩, h3, h6⟩ => ⟨h1, h2, h3, h4, h5, h6⟩⟩
    have entered : enters → c = (w.withFrozen z).entered .clearIn := fun h => by
      unfold c; rw [sample, State.sampleRetest_of_accepts (accepts.1 h), State.enterState_sectn_same, own]
    have stands : ¬enters → c = w.withFrozen z := fun h => by
      unfold c; rw [sample, State.sampleRetest_of_not_accepts (mt accepts.2 h), own]
    have scales : c.scaleRun = (b.scaled (outOfScale r)).scaleRun ∧ c.scaleCause = (b.scaled (outOfScale r)).scaleCause := by
      rw [← (compared_scale cand (b.scaled (outOfScale r))).1, ← (compared_scale cand (b.scaled (outOfScale r))).2]
      by_cases h : enters
      · rw [entered h]; exact ⟨rfl, rfl⟩
      · rw [stands h]; exact ⟨rfl, rfl⟩
    obtain ⟨off, driven⟩ := compared_drive (outOfScale r) cand b
    refine ⟨fun h => ?_, fun h => ?_, fun hf h => ?_, fun p hf h => ?_, fun h => ?_, fun h => ?_, fun hc ha => ?_,
      fun hl ha hc => ?_, ?_, ?_⟩
    · rw [scales.1, scales.2, scale.2 h]
      change min 3 (b.scaleRun + 1) = _ ∧ ((b.scaleCause || decide (2 ≤ b.scaleRun)) = true ↔ _)
      rw [show b.scaleRun = a.scaleRun from run, show b.scaleCause = a.scaleCause from cause]
      exact ⟨rfl, by simp⟩
    · rw [scales.1, scales.2, Bool.eq_false_iff.2 (mt scale.1 h)]; exact ⟨rfl, rfl⟩
    · rw [stands h]; exact off (followed_eq ▸ hf)
    · rw [stands h]; exact driven p (followed_eq ▸ hf)
    · have frozen : b.frozen = z := by
        obtain ⟨-, -, -, hz', -⟩ := h
        cases hb : b.frozen with
        | true => exact (hz hb).symm
        | false => exact (frozen_c.symm.trans hz').symm
      have entered_c := entered h
      rw [w_eq, ← frozen] at entered_c
      rw [entered_c]; rfl
    · have stands_c := stands h
      rw [w_eq] at stands_c
      rw [stands_c]; rfl
    · obtain ⟨-, shows⟩ := shown (mt a.mismatch_iff.1 ha)
      exact shows (c.mismatch_iff.2 hc)
    · exact (told hl (a.mismatch_iff.2 ha)).2 (Bool.eq_false_iff.2 (mt c.mismatch_iff.1 hc))
    · have others := others1.trans others2
      rw [sample]
      by_cases h : u.sampleAccepts x
      · rw [State.sampleRetest_of_accepts h]; exact others.trans (otherSections_enterState x _ _ _ u)
      · rw [State.sampleRetest_of_not_accepts h]; exact others
    · have only := (only1.trans only2).orders
      rw [sample]
      by_cases h : u.sampleAccepts x
      · rw [State.sampleRetest_of_accepts h]; exact only.trans (State.enterState_onlySections x _ _ _ u).orders
      · rw [State.sampleRetest_of_not_accepts h]; exact only

/-! ### O25: the end of PROVING -/

/-- R146: a section's record at its start state: the state, its drive and its flags. -/
def SectionState.startedAt (r : SectionState) : SectionState :=
  let b := State.startStateOf r.handle r.measured
  { r.driven (driveOf (some b.1)) with
    state := some b.1, releaseUsed := b.2, earlyClear := false, cancelReceived := false, outSent := false,
    offered := none, retest := false }

/-- R146: a section's record at the end of PROVING. -/
def SectionState.provedAt (r : SectionState) : SectionState :=
  if r.handle = handleFor (State.startStateOf r.handle r.measured).1 then r.startedAt else r.startedAt.held false

namespace State

theorem startSection_sectn (x y : SectionId) (s : State) : (s.startSection x).sectn y =
    if y = x then (if s.sectionFitted x = true then (s.sectn x).provedAt else s.sectn x) else s.sectn y := by
  unfold startSection
  by_cases hf : s.sectionFitted x = true
  · rw [if_pos hf, if_pos hf]; dsimp only
    rw [(evaluate_only _ _).sectn_eq]
    have reported : OnlyLink (s.updSect x SectionState.startedAt)
        ((s.updSect x SectionState.startedAt).sectReport x 8 [2, (s.sectn x).handle.code, (s.sectn x).measured.code]) :=
      State.sectReport_only x 8 _ _
    unfold SectionState.provedAt
    by_cases hh : (s.sectn x).handle = handleFor (startStateOf (s.sectn x).handle (s.sectn x).measured).1
    · rw [if_pos hh, if_pos hh]
      exact (reported.sectn_eq y).trans (State.sectn_updSect x y _ s)
    · rw [if_neg hh, if_neg hh, holdHandle_sectn]
      have own : ∀ z, _ = (s.updSect x SectionState.startedAt).sectn z := fun z => reported.sectn_eq z
      split
      · exact congrArg (SectionState.held false) ((own x).trans (State.sectn_updSect_same x _ s))
      · rename_i hy; exact (own y).trans (sectn_updSect_of_ne hy _ s)
  · rw [if_neg hf, if_neg hf]; split
    · subst y; rfl
    · rfl

theorem startSection_only (x : SectionId) (s : State) : OnlyOrders s (s.startSection x) := by
  unfold startSection; split
  · dsimp only
    have started : ∀ f d, OnlyOrders s ((s.updSect x f).sectReport x 8 d) := fun f d =>
      (updSect_only x f s).trans (sectReport_only _ _ _ _).orders
    refine OnlyOrders.trans ?_ (evaluate_only _ _).orders
    split
    · exact started _ _
    · exact (started _ _).trans (holdHandle_only _ _ _)
  · exact OnlyOrders.refl s

theorem startSections_sectn (x : SectionId) (s : State) : s.startSections.sectn x =
    if s.sectionFitted x = true then (s.sectn x).provedAt else s.sectn x := by
  have fold := forEach_get (get := sectn) (env := sectionFitted)
    (g := fun y fitted r => if fitted y = true then r.provedAt else r) (f := startSection) allSections (by decide)
    (fun x _ s y => startSection_sectn x y s) (fun x _ s => funext fun y => by
      obtain ⟨_, _, _, _, _, _, h⟩ := startSection_only x s
      rw [h]; rfl) s x
  rw [if_pos (mem_allSections x)] at fold
  exact fold

/-- R146: the start state, from the handle and the measured polarity. -/
theorem startStateOf_eq (h : Handle) (m : Polarity) :
    (startStateOf h m).1 = (if h = .trainOnLine ∨ h = .lineClear then .onLineIn
      else if m = .positive then .clearOut else if m = .negative then .onLineOut else .blocked) ∧
    (startStateOf h m).2 = decide ((startStateOf h m).1 = .clearOut) := by
  cases h <;> cases m <;> exact ⟨rfl, rfl⟩

theorem provedAt_spec (r : SectionState) : r.provedAt.state = some (startStateOf r.handle r.measured).1 ∧
    r.provedAt.drive = driveOf (some (startStateOf r.handle r.measured).1) ∧
    r.provedAt.releaseUsed = (startStateOf r.handle r.measured).2 := by
  have started : r.startedAt.drive = driveOf (some (startStateOf r.handle r.measured).1) := SectionState.driven_drive _ r
  unfold SectionState.provedAt; split
  · exact ⟨rfl, started, rfl⟩
  · exact ⟨rfl, started, rfl⟩

theorem provingDue_iff (s : State) : s.provingDue = true ↔ s.store.part = .proving ∧ s.store.entered + 3000 ≤ s.now := by
  unfold provingDue
  rw [Bool.and_eq_true, beq_iff_eq]
  exact and_congr_right fun _ => decide_eq_true_iff

end State

/-- Settles O25. -/
theorem provingEnd : Obligations.ProvingEnd := by
  intro s
  have taken : exec .provingEnd s = .next (if s.provingDue then s.endProving else s) := rfl
  refine ⟨fun h => by rw [taken, if_neg (mt s.provingDue_iff.1 h)], fun hp he => ?_⟩
  rw [if_pos (s.provingDue_iff.2 ⟨hp, he⟩)] at taken
  refine ⟨_, taken, ?_⟩
  unfold State.endProving; dsimp only
  have start := State.startSections_only s
  have sectn := fun x => State.startSections_sectn x s
  generalize s.startSections = u at start sectn ⊢
  obtain ⟨l, f, fr, tr, sq, se, hu⟩ := start
  have report : OnlyLink (u.setStore { u.store with part := .running, entered := u.now })
      ((u.setStore { u.store with part := .running, entered := u.now }).partReport 5 []) := State.report_only _ _ _ _ _
  generalize State.partReport 5 [] _ = v at report ⊢
  have eval : OnlyEval (u.setStore { u.store with part := .running, entered := u.now }) (v.evaluate .partState) :=
    report.eval.trans (State.evaluate_only _ v)
  have own : ∀ x, (v.evaluate .partState).sectn x = u.sectn x := fun x => eval.sectn_eq x
  have store : (v.evaluate .partState).store = { s.store with part := .running, entered := s.now } := by
    rw [eval.store_eq, hu]; rfl
  refine ⟨store, fun x hf => ?_, fun x hf => ?_, State.evaluate_verdictsFresh _ v, fun n hn hk => ?_, ?_⟩
  · rw [own, sectn, if_pos hf]
    obtain ⟨h1, h2, h3⟩ := State.provedAt_spec (s.sectn x)
    obtain ⟨h4, h5⟩ := State.startStateOf_eq (s.sectn x).handle (s.sectn x).measured
    rw [h1, h2, h3, h5, h4]
    exact ⟨rfl, rfl, rfl⟩
  · rw [own, sectn, if_neg (by simp [hf])]
  · have locked : v.hasLock n = true := by
      obtain ⟨_, rfl⟩ := report
      rw [hu]; exact hk
    rw [State.evaluate_command .partState hn locked, State.evaluate_wantsFree]
  · rw [store]
    obtain ⟨l', f', fr', he⟩ := eval
    rw [he, hu]
    exact ⟨l', f', fr', tr, sq, se, rfl⟩

/-! ### O38: circuits taken out of use and put back -/

/-- R74: a sequence broken. -/
def SequenceState.broken (r : SequenceState) : SequenceState := { r with step := 0, stepTime := none }

/-- R80: a sequence after the entry of a circuit. -/
def SequenceState.enteredBy (rec : Option SequenceRec) (t : Nat) (r : SequenceState) : SequenceState :=
  if ∃ q, rec = some q ∧ q.lists t = true ∧ 1 ≤ r.step then r.broken else r

theorem SequenceState.enteredBy_of_broken {rec : Option SequenceRec} {t : Nat} {r : SequenceState}
    (h : ∃ q, rec = some q ∧ q.lists t = true ∧ 1 ≤ r.step) : r.enteredBy rec t = r.broken := if_pos h

theorem SequenceState.enteredBy_of_not {rec : Option SequenceRec} {t : Nat} {r : SequenceState}
    (h : ¬∃ q, rec = some q ∧ q.lists t = true ∧ 1 ≤ r.step) : r.enteredBy rec t = r := if_neg h

theorem SequenceState.step_enteredBy {rec : SequenceRec} {t : Nat} (h : rec.lists t = true) (r : SequenceState) :
    (r.enteredBy (some rec) t).step = 0 := by
  unfold SequenceState.enteredBy; split
  · rfl
  · rename_i hn
    by_contra h0
    exact hn ⟨rec, rfl, h, Nat.one_le_iff_ne_zero.2 h0⟩

namespace State

theorem entrySeq_seqn (t : Nat) (w : BreakCause) {q : Nat} (hq : sequenceOk q = true) (s : State) (p : Nat) :
    (s.entrySeq t w q).seqn p = if p = q then (s.seqn q).enteredBy (s.seqRec q) t else s.seqn p := by
  have stays : s.seqn p = if p = q then s.seqn q else s.seqn p := by
    split
    · subst p; rfl
    · rfl
  unfold entrySeq
  cases hr : s.seqRec q with
  | none => rw [SequenceState.enteredBy_of_not (fun ⟨_, h, _⟩ => nomatch h)]; exact stays
  | some rec =>
    dsimp only
    by_cases h : rec.lists t = true ∧ 1 ≤ (s.seqn q).step
    · rw [if_pos (by simp [h]), SequenceState.enteredBy_of_broken ⟨rec, rfl, h⟩]
      unfold breakSequence; dsimp only
      rw [(State.report_only _ _ _ _ _).eval.seqn_eq]
      split
      · subst p; exact seqn_updSeq_same hq _ s
      · rename_i hp; exact seqn_updSeq_of_ne hp _ s
    · rw [if_neg (by simpa using h), SequenceState.enteredBy_of_not fun ⟨_, h1, h2⟩ => h (Option.some.inj h1 ▸ h2)]; exact stays

theorem entrySeq_only (t : Nat) (w : BreakCause) (q : Nat) (s : State) : OnlyOrders s (s.entrySeq t w q) := by
  unfold entrySeq; split
  · exact OnlyOrders.refl s
  · split
    · exact breakSequence_only q w s
    · exact OnlyOrders.refl s

/-- R80: each sequence takes the entry on its own. -/
theorem entryHanded_seqn (t : Nat) (w : BreakCause) {q : Nat} (hq : sequenceOk q = true) (s : State) :
    (s.entryHanded t w).seqn q = (s.seqn q).enteredBy (s.seqRec q) t := by
  have fold := forEach_get (get := seqn) (env := seqRec) (g := fun p recs r => r.enteredBy (recs p) t)
    (f := entrySeq t w) allSequences (by decide)
    (fun p hp s y => entrySeq_seqn t w (mem_allSequences.1 hp) s y) (fun p _ s => funext fun y => by
      obtain ⟨_, _, _, _, _, _, h⟩ := entrySeq_only t w p s
      rw [h]; rfl) s q
  rw [if_pos (mem_allSequences.2 hq)] at fold
  exact fold

theorem track_of_tracks {s t : State} (h : t.tracks = s.tracks) (n : Nat) : t.track n = s.track n := by
  unfold State.track; rw [h]

theorem track_updTrack_same {n : Nat} (h1 : 1 ≤ n) (h24 : n ≤ 24) (f : TrackState → TrackState) (s : State) :
    (s.updTrack n f).track n = f (s.track n) := by rw [track_updTrack, if_pos ⟨rfl, h1, h24⟩]

theorem track_updTrack_of_ne {n m : Nat} (h : m ≠ n) (f : TrackState → TrackState) (s : State) :
    (s.updTrack n f).track m = s.track m := by rw [track_updTrack, if_neg fun hc => h hc.1]

theorem trackReport_tracks (t row : Nat) (alt : List Byte) (b : Occupancy) (s : State) :
    (s.trackReport t row alt b).tracks = s.tracks := State.report_tracks _ _ _ _ _

/-- R58: the circuit out of use, and the sequences that its entry breaks. -/
theorem takeOutOfUse_tracks (t : Nat) (s : State) (h : (s.track t).state ≠ .outOfUse) :
    (s.takeOutOfUse t).tracks = (s.updTrack t fun x => { x with state := .outOfUse }).tracks ∧
    ∀ q, sequenceOk q = true → (s.takeOutOfUse t).seqn q = (s.seqn q).enteredBy (s.seqRec q) t := by
  generalize hu : s.updTrack t (fun x => { x with state := .outOfUse }) = u
  have reported : ∀ v, OnlyEval u v → (v.entryHanded t .outOfUse).tracks = u.tracks ∧
      ∀ q, sequenceOk q = true → (v.entryHanded t .outOfUse).seqn q = (s.seqn q).enteredBy (s.seqRec q) t := fun v hv => by
    refine ⟨?_, fun q hq => ?_⟩
    · rw [entryHanded_tracks]; obtain ⟨_, _, _, rfl⟩ := hv; rfl
    · rw [entryHanded_seqn t .outOfUse hq, hv.seqn_eq]
      obtain ⟨_, _, _, rfl⟩ := hv
      rw [← hu]; rfl
  have report : OnlyEval u (u.trackReport t 3 [] (s.track t).state) := (report_only _ _ _ _ u).eval
  unfold takeOutOfUse; dsimp only; rw [hu]
  split
  · rename_i hc; exact absurd hc h
  · exact reported _ (report.trans (evaluate_only _ _))
  · exact reported _ report
  · exact reported _ report

theorem takeOutOfUse_stands (t : Nat) (s : State) (h : (s.track t).state = .outOfUse) : s.takeOutOfUse t = s := by
  unfold takeOutOfUse; dsimp only; rw [h]

/-- R59: a circuit put back in use. -/
theorem putInUse_tracks (t c : Nat) (s : State) : (s.putInUse t c).tracks =
    (s.updTrack t fun x => if x.failedMark = true then { x with state := .failed } else x.recover c).tracks := by
  unfold putInUse; dsimp only
  by_cases h : (s.track t).failedMark = true
  · rw [if_pos h, entryHanded_tracks, trackReport_tracks]
    unfold updTrack; dsimp only; rw [if_pos h]
  · rw [if_neg h, trackReport_tracks]
    unfold updTrack; dsimp only; rw [if_neg h]

end State

/-- Settles O38. -/
theorem trackRequests : Obligations.TrackRequests := by
  intro s b hr hs
  have out : exec (.trackOutOfUse [b]) s = .next (s.trackOutOfUse b.toNat) := congrArg _
    ((State.byteRequest_eq .trackOutOfUse _ hr).trans (State.unlessBusy_of_not_storing _ _ hs))
  have inUse : exec (.trackInUse [b]) s = .next (s.trackInUse b.toNat) := congrArg _
    ((State.byteRequest_eq .trackInUse _ hr).trans (State.unlessBusy_of_not_storing _ _ hs))
  have table : s.hasTable = true ↔ s.store.active ≠ none := Option.isSome_iff_ne_none
  have link : ∀ (u : State) k o d, OnlyLink u (u.answered k o d) := fun u k o d => ⟨_, rfl⟩
  unfold State.trackOutOfUse at out
  unfold State.trackInUse at inUse
  refine ⟨fun ha => ?_, fun ha hn => ?_, fun rec hrec ha h1 h24 => ?_⟩
  · rw [if_neg fun h => table.1 h ha] at out inUse
    exact ⟨out, inUse⟩
  · rw [if_pos (table.2 ha)] at out inUse
    rw [if_neg fun h => by rw [State.trackFitted, hn] at h; exact nomatch h] at out
    rw [hn] at inUse
    exact ⟨out, inUse⟩
  · rw [if_pos (table.2 ha)] at out inUse
    rw [if_pos ((s.trackFitted_iff b.toNat).2 ⟨rec, hrec⟩)] at out
    rw [hrec] at inUse; dsimp only at inUse
    refine ⟨⟨_, out, ?_⟩, fun ho => ?_, fun ho => ?_⟩
    · beta_reduce
      rw [State.accept_eq_answered]
      have only : OnlyOrders s (s.takeOutOfUse b.toNat) := State.takeOutOfUse_only _ s
      have supply : (s.takeOutOfUse b.toNat).frame.supplyOn = s.frame.supplyOn :=
        (steady_supplyOn s.frame.supplyOn).settling.takeOutOfUse _ ((s.trackFitted_iff b.toNat).2 ⟨rec, hrec⟩) rfl
      have track : ∀ m, (s.takeOutOfUse b.toNat).track m = (s.updTrack b.toNat fun x => { x with state := .outOfUse }).track m := by
        intro m
        by_cases ho : (s.track b.toNat).state = .outOfUse
        · rw [State.takeOutOfUse_stands _ _ ho, State.track_updTrack]; split
          · rename_i hm
            rw [hm.1, ← ho]
          · rfl
        · exact State.track_of_tracks (State.takeOutOfUse_tracks _ s ho).1 m
      refine ⟨?_, fun m hm => ?_, only.trans (link _ _ _ _).orders, supply, fun q qrec hq hok hc ho => ?_⟩
      · exact (track _).trans (State.track_updTrack_same h1 h24 _ s)
      · exact (track m).trans (State.track_updTrack_of_ne hm _ s)
      · have lists : qrec.lists b.toNat = true := List.any_eq_true.2 ⟨_, hc, by
          rw [byte_toNat, beq_iff_eq]⟩
        have seqn := (State.takeOutOfUse_tracks _ s ho).2 q hok
        rw [hq] at seqn
        exact (congrArg SequenceState.step seqn).trans (SequenceState.step_enteredBy lists _)
    · rw [if_neg ho] at inUse; exact inUse
    · rw [if_pos ho] at inUse
      refine ⟨_, inUse, ?_⟩
      beta_reduce
      rw [State.accept_eq_answered]
      have only : OnlyOrders s (s.putInUse b.toNat rec.clearCount.toNat) := State.putInUse_only _ _ s
      have track := State.track_of_tracks (State.putInUse_tracks b.toNat rec.clearCount.toNat s)
      refine ⟨?_, fun m hm => ?_, only.trans (link _ _ _ _).orders⟩
      · exact (track _).trans (State.track_updTrack_same h1 h24 _ s)
      · exact (track m).trans (State.track_updTrack_of_ne hm _ s)

/-! ### O40: the sequences -/

/-- R21: no step but a contact's moves a lever, so the contacts, the readback and the position stand. -/
theorem contactsStandBut {L : Nat → Prop} {n : Nat} (hn : ¬L n) (l : LeverState) :
    Ordering L (fun s => l.SameContacts (s.lever n)) (fun s => l.SameContacts (s.lever n)) := by
  have outer : ∀ s t : State, t.frame = s.frame → l.SameContacts (s.lever n) → l.SameContacts (t.lever n) :=
    fun s t h hs => by unfold State.lever; rw [h]; exact hs
  have faults : ∀ s t : State, OnlyFaults s t → l.SameContacts (s.lever n) → l.SameContacts (t.lever n) :=
    fun s t h hs => by rw [State.lever_of_onlyFaults h]; exact hs
  have lever : ∀ m f (s : State), (L m ∨ (s.lever m).SameContacts (f (s.lever m))) → l.SameContacts (s.lever n) →
      l.SameContacts ((s.updLever m f).lever n) := fun m f s hf hs => by
    rw [State.lever_updLever]; split
    · rename_i h
      obtain ⟨rfl, -⟩ := h
      obtain ⟨h1, h2, h3, h4, h5⟩ := hf.resolve_left hn
      obtain ⟨g1, g2, g3, g4, g5⟩ := hs
      exact ⟨h1.trans g1, h2.trans g2, h3.trans g3, h4.trans g4, h5.trans g5⟩
    · exact hs
  have rough : Rough L fun s => l.SameContacts (s.lever n) :=
    { report := fun c o e d s => faults s _ (State.report_only c o e d s).faults
      endFault := fun c o s => faults s _ (State.endFault_only c o s)
      lever := fun m f s _ => lever m f s
      track := fun _ _ s _ => outer s _ rfl
      seq := fun _ _ s _ => outer s _ rfl
      lock := fun _ _ s _ => outer s _ rfl
      sect := fun _ _ s _ _ => outer s _ rfl
      notice := fun _ _ s => outer s _ rfl }
  exact {
    rough := rough
    firm := rough.firm
    weaken := fun _ => id
    evaluate := fun c s hs => by
      obtain ⟨_, _, _, _, _, _, h⟩ := State.evaluate_lever_same c s n
      rw [h]; exact hs
    unfitted := fun m f s hm _ _ _ _ => lever m f s (.inl hm)
    enterRaise := fun c o m s => faults s _ (State.enterRaise_only c o m s)
    enterRaiseInside := fun c o m s => faults s _ (State.enterRaise_only c o m s)
    register := fun r o s => faults s _ (State.register_only r o s)
    registerInside := fun r o s => faults s _ (State.register_only r o s)
    supply := fun _ _ => id
    mark := fun _ s => outer s _ rfl
    markInside := fun _ s => outer s _ rfl
    failUnread := fun _ s _ => outer s _ rfl
    fail := fun _ s => outer s _ rfl
    freeze := fun _ s => outer s _ rfl }

theorem contactsStand (n : Nat) (l : LeverState) :
    Ordering (fun _ => False) (fun s => l.SameContacts (s.lever n)) (fun s => l.SameContacts (s.lever n)) :=
  contactsStandBut id l

theorem LeverState.SameContacts.refl (l : LeverState) : l.SameContacts l := ⟨rfl, rfl, rfl, rfl, rfl⟩

namespace State

/-! #### The setting of a latch, handed to the approach locks and the sections -/

/-- R94: the notification of a lock that learns of the setting of a latch. -/
def settingNotice (s : State) (q a : Nat) : Option Notice :=
  (s.approachRec a).bind fun rec =>
    if decide (rec.release.toNat = q) && ((s.lockn a).phase == .awaitRelease || (s.lockn a).phase == .timing) then
      s.askedOf a rec else none

theorem askedOf_congr {s t : State} {a : Nat} (rec : ApproachRec) (hl : t.lockn a = s.lockn a)
    (hq : ∀ q, (t.seqn q).latch = (s.seqn q).latch) (he : t.epoch = s.epoch) : t.askedOf a rec = s.askedOf a rec := by
  unfold askedOf; rw [hl, hq, he]

theorem settingNotice_congr {s t : State} {q a : Nat} (hr : t.approachRec a = s.approachRec a) (hl : t.lockn a = s.lockn a)
    (hq : ∀ q, (t.seqn q).latch = (s.seqn q).latch) (he : t.epoch = s.epoch) : t.settingNotice q a = s.settingNotice q a := by
  unfold settingNotice; rw [hr, hl]
  simp only [askedOf_congr _ hl hq he]

theorem releaseTest_of_not {a : Nat} {s : State} {rec : ApproachRec} (hr : s.approachRec a = some rec)
    (h : ¬(rec.release ≠ absent ∧ ((s.lockn a).phase = .awaitRelease ∨ (s.lockn a).phase = .timing))) :
    s.releaseTest a = s := by
  unfold releaseTest; rw [hr]
  exact if_neg fun hc => h ⟨hc.1, hc.2.1⟩

theorem settingAtLock_only (q a : Nat) (s : State) : OnlyLocks s (s.settingAtLock q a) := by
  unfold settingAtLock; split
  · exact OnlyLocks.refl s
  · split
    · exact releaseTest_onlyLocks a s
    · exact OnlyLocks.refl s

theorem settingAtLock_spec (q : Nat) {a : Nat} (ha : lockOk a = true) (s : State) :
    (∀ b, b ≠ a → (s.settingAtLock q a).lockn b = s.lockn b) ∧
    (s.settingAtLock q a).notices = s.notices ++ (s.settingNotice q a).toList := by
  unfold settingAtLock settingNotice
  cases hr : s.approachRec a with
  | none => exact ⟨fun _ _ => rfl, by simp⟩
  | some rec =>
    dsimp only
    rw [Option.bind_some]
    by_cases hq : rec.release ≠ absent ∧ rec.release.toNat = q
    · rw [if_pos hq]
      by_cases hp : (s.lockn a).phase = .awaitRelease ∨ (s.lockn a).phase = .timing
      · rw [if_pos (by simp [hq.2, hp])]
        exact (releaseTest_spec ha hr hp).2
      · rw [releaseTest_of_not hr fun h => hp h.2, if_neg (by simpa [hq.2] using hp)]
        exact ⟨fun _ _ => rfl, by simp⟩
    · rw [if_neg hq]
      refine ⟨fun _ _ => rfl, ?_⟩
      split
      · rename_i h
        have hq' : rec.release.toNat = q := of_decide_eq_true (Bool.and_eq_true_iff.1 h).1
        have habs : rec.release = absent := by by_contra hn; exact hq ⟨hn, hq'⟩
        unfold askedOf ApproachState.asks; rw [habs]; simp
      · simp

theorem settingAtLocks_spec (q : Nat) (s : State) : OnlyLocks s (s.settingAtLocks q) ∧
    (s.settingAtLocks q).notices = s.notices ++ allLocks.filterMap (s.settingNotice q) := by
  refine ⟨forEach_keeps (R := OnlyLocks) OnlyLocks.refl (fun h g => h.trans g) (settingAtLock_only q) allLocks s,
    forEach_notices allLocks (by decide) (fun a ha s => (settingAtLock_spec q (mem_allLocks.1 ha) s).2)
      (fun a ha s b hb => ?_) s⟩
  have only := settingAtLock_only q a s
  exact settingNotice_congr (only.approachRec_eq b) ((settingAtLock_spec q (mem_allLocks.1 ha) s).1 b hb)
    (fun p => by rw [only.seqn_eq]) only.epoch_eq

/-- R143: whether a section asks for the latch of sequence `q` as it is set. -/
def blockAsks (s : State) (q : Nat) (x : SectionId) (rec : SectionRec) : Prop :=
  rec.arrival.toNat = q ∧ (s.sectn x).state = some .onLineIn ∧ (s.sectn x).handle = .lineBlocked ∧
    s.retestable x ∧ (s.sectn x).outSent = true ∧ (s.sectn x).consumeAsked = false

/-- R142, R143: a section handed the setting of a latch that is set asks for it, or does nothing. -/
theorem settingAtSection_asks {q : Nat} {x : SectionId} {s : State} {rec : SectionRec} (hr : s.sectionRec x = some rec)
    (hl : (s.seqn q).latch = true) (h : s.blockAsks q x rec) :
    s.settingAtSection q x = (s.updSect x SectionState.asked).sendNotice (.block x) rec.arrival.toNat := by
  obtain ⟨hq, hs, hh, hre, ho, hc⟩ := h
  unfold settingAtSection; rw [hr]; dsimp only
  rw [if_pos ⟨hq, hs⟩, retest_onLineIn none hre hs hh]
  exact blockBackTest_of_asks hr ⟨ho, hq ▸ hl, hc, hre.2.1⟩

theorem settingAtSection_stands {q : Nat} {x : SectionId} {s : State}
    (h : ∀ rec, s.sectionRec x = some rec → ¬s.blockAsks q x rec) : s.settingAtSection q x = s := by
  unfold settingAtSection
  cases hr : s.sectionRec x with
  | none => rfl
  | some rec =>
    dsimp only
    by_cases hq : rec.arrival.toNat = q ∧ (s.sectn x).state = some .onLineIn
    · rw [if_pos hq]
      by_cases hre : s.retestable x
      · by_cases hh : (s.sectn x).handle = .lineBlocked
        · rw [retest_onLineIn none hre hq.2 hh]
          exact blockBackTest_of_not_asks hr fun ⟨ho, _, hc, _⟩ => h rec hr ⟨hq.1, hq.2, hh, hre, ho, hc⟩
        · rw [retest_other none (fun hc => by rw [hq.2] at hc; exact nomatch hc.1)
            (fun hc => by rw [hq.2] at hc; exact nomatch hc.1) (fun hc => hh hc.2)]; rfl
      · rw [retest_of_not_retestable none hre]; rfl
    · rw [if_neg hq]

theorem settingAtSection_only (q : Nat) (x : SectionId) (s : State) :
    OnlyAsking s (s.settingAtSection q x) ∧ OtherSections x s (s.settingAtSection q x) := by
  have stands : OnlyAsking s s ∧ OtherSections x s s := ⟨(OnlyLink.refl s).records.asking, fun _ _ => rfl⟩
  unfold settingAtSection
  cases hr : s.sectionRec x with
  | none => exact stands
  | some rec =>
    dsimp only; split
    · rename_i hq
      refine ⟨?_, otherSections_retestHandle x none s⟩
      by_cases hre : s.retestable x
      · by_cases hh : (s.sectn x).handle = .lineBlocked
        · rw [retest_onLineIn none hre hq.2 hh]; exact blockBackTest_onlyAsking x s
        · rw [retest_other none (fun hc => by rw [hq.2] at hc; exact nomatch hc.1)
            (fun hc => by rw [hq.2] at hc; exact nomatch hc.1) (fun hc => hh hc.2)]; exact stands.1
      · rw [retest_of_not_retestable none hre]; exact stands.1
    · exact stands

end State

theorem OnlyLocks.sectionRec_eq {s t : State} (h : OnlyLocks s t) (x : SectionId) : t.sectionRec x = s.sectionRec x := by
  unfold State.sectionRec State.table; rw [h.store_eq]

namespace State

/-- R143: the notification of a section that learns of the setting of sequence `q`'s latch. -/
def blockNotice (s : State) (q : Nat) (x : SectionId) : Option Notice :=
  match s.sectionRec x with
  | none => none
  | some rec =>
    let r := s.sectn x
    if rec.arrival.toNat = q ∧ r.state = some .onLineIn ∧ r.handle = .lineBlocked ∧ r.retest = true ∧
        r.frozen = false ∧ s.store.part ≠ .storing ∧ r.outSent = true ∧ r.consumeAsked = false then
      some { consumer := .block x, seq := q, epoch := s.epoch }
    else none

theorem blocksAsking_eq (s : State) (q : Nat) : s.blocksAsking q = allSections.filterMap (s.blockNotice q) := rfl

theorem blockNotice_of_asks {s : State} {q : Nat} {x : SectionId} {rec : SectionRec} (hr : s.sectionRec x = some rec)
    (h : s.blockAsks q x rec) : s.blockNotice q x = some { consumer := .block x, seq := q, epoch := s.epoch } := by
  obtain ⟨hq, hs, hh, ⟨h1, h2, h3⟩, ho, hc⟩ := h
  unfold blockNotice; rw [hr]
  exact if_pos ⟨hq, hs, hh, h1, h2, (isStoring_eq_false s).1 h3, ho, hc⟩

theorem blockNotice_of_not {s : State} {q : Nat} {x : SectionId}
    (h : ∀ rec, s.sectionRec x = some rec → ¬s.blockAsks q x rec) : s.blockNotice q x = none := by
  unfold blockNotice
  cases hr : s.sectionRec x with
  | none => rfl
  | some rec =>
    exact if_neg fun ⟨hq, hs, hh, h1, h2, h3, ho, hc⟩ =>
      h rec hr ⟨hq, hs, hh, ⟨h1, h2, (isStoring_eq_false s).2 h3⟩, ho, hc⟩

theorem blockNotice_congr {s t : State} {q : Nat} {x : SectionId} (hr : t.sectionRec x = s.sectionRec x)
    (hx : t.sectn x = s.sectn x) (hp : t.store.part = s.store.part) (he : t.epoch = s.epoch) :
    t.blockNotice q x = s.blockNotice q x := by
  unfold blockNotice; rw [hr, hx, hp, he]

/-- R143: a section that asks once the latch is set. -/
def latchedNotice (q : Nat) (s : State) (x : SectionId) : Option Notice :=
  if (s.seqn q).latch = true then s.blockNotice q x else none

theorem settingAtSection_notices (q : Nat) (x : SectionId) (s : State) :
    (s.settingAtSection q x).notices = s.notices ++ (latchedNotice q s x).toList := by
  by_cases h : ∃ rec, s.sectionRec x = some rec ∧ s.blockAsks q x rec
  · obtain ⟨rec, hr, asks⟩ := h
    unfold latchedNotice
    by_cases hl : (s.seqn q).latch = true
    · rw [settingAtSection_asks hr hl asks, if_pos hl, blockNotice_of_asks hr asks, ← asks.1]; rfl
    · rw [if_neg hl]
      obtain ⟨hq, hs, hh, hre, -⟩ := asks
      unfold settingAtSection; rw [hr]; dsimp only
      rw [if_pos ⟨hq, hs⟩, retest_onLineIn none hre hs hh]
      refine (congrArg State.notices (blockBackTest_of_not_asks hr fun hb => hl (hq ▸ hb.2.1))).trans ?_
      exact (List.append_nil _).symm
  · have none : ∀ rec, s.sectionRec x = some rec → ¬s.blockAsks q x rec := fun rec hr ha => h ⟨rec, hr, ha⟩
    rw [settingAtSection_stands none]
    unfold latchedNotice
    rw [blockNotice_of_not none, ite_self]
    exact (List.append_nil _).symm

/-- R142, R143: the sections in ON_LINE_IN that wait for a latch which is set ask for it, in their order. -/
theorem settingAtSections_spec (q : Nat) {s : State} (hl : (s.seqn q).latch = true) :
    OnlyAsking s (s.settingAtSections q) ∧ (s.settingAtSections q).notices = s.notices ++ s.blocksAsking q := by
  refine ⟨forEach_keeps (R := OnlyAsking) (fun s => (OnlyLink.refl s).records.asking) (fun h g => h.trans g)
    (fun x u => (settingAtSection_only q x u).1) allSections s, ?_⟩
  have fold := forEach_notices (f := settingAtSection q) (item := latchedNotice q) allSections (by decide)
    (fun x _ u => settingAtSection_notices q x u) (fun x _ u y hy => by
      obtain ⟨only, others⟩ := settingAtSection_only q x u
      have sectn := others y hy
      obtain ⟨se, no, l, h⟩ := only
      unfold latchedNotice
      rw [blockNotice_congr (s := u) (by rw [h]; rfl) sectn (by rw [h]) (by rw [h]), h]; rfl) s
  refine fold.trans (congrArg (s.notices ++ ·) ?_)
  rw [blocksAsking_eq]
  exact List.filterMap_congr fun x _ => if_pos hl

/-! #### The completion of a sequence -/

/-- R78: the latch of a completed sequence is set, and handed on to the locks and the sections. -/
theorem completeSeq_sets {q : Nat} (hq : sequenceOk q = true) {s : State} (hl : (s.seqn q).latch = false) :
    (∀ p, (s.completeSeq q).seqn p = if p = q then { s.seqn q with step := 0, stepTime := none, latch := true } else s.seqn p) ∧
    (s.completeSeq q).notices = s.notices ++ allLocks.filterMap
      ((s.updSeq q fun r => { r with latch := true }).settingNotice q) ++ s.blocksAsking q ∧
    (s.completeSeq q).verdictsFresh := by
  unfold completeSeq
  rw [if_neg (by simp [hl])]
  generalize hu : (s.updSeq q _).report .seq q 3 [0] = u
  have own : ∀ p, u.seqn p = if p = q then { s.seqn q with step := 0, stepTime := none, latch := true } else s.seqn p := fun p => by
    rw [← hu, (State.report_only _ _ _ _ _).eval.seqn_eq]
    split
    · subst p; exact seqn_updSeq_same hq _ s
    · rename_i hp; exact seqn_updSeq_of_ne hp _ s
  have rest : OnlyLink { s with seqs := u.seqs } u := by
    obtain ⟨l, h⟩ := State.report_only .seq q 3 [0] (s.updSeq q fun x => { x with step := 0, stepTime := none, latch := true })
    rw [← hu]; exact ⟨l, by rw [h]; rfl⟩
  have eval : OnlyEval { s with seqs := u.seqs } (u.evaluate .verdict) := rest.eval.trans (State.evaluate_only _ u)
  have fresh := State.evaluate_verdictsFresh .verdict u
  generalize u.evaluate .verdict = v at eval fresh ⊢
  obtain ⟨locks, told⟩ := settingAtLocks_spec q v
  have freshLocks := Locking.verdicts.firmly.settingAtLocks q fresh
  generalize v.settingAtLocks q = w at locks told freshLocks ⊢
  have seqn : ∀ p, w.seqn p = u.seqn p := fun p => (locks.seqn_eq p).trans (eval.seqn_eq p)
  obtain ⟨asking, asked⟩ := settingAtSections_spec q (s := w) (by rw [seqn, own, if_pos rfl])
  refine ⟨fun p => ?_, ?_, Locking.verdicts.lasting.settingAtSections q freshLocks⟩
  · rw [← own, ← seqn]
    obtain ⟨_, _, _, h⟩ := asking
    rw [h]; rfl
  · rw [asked, told, eval.notices_eq]
    have notice : v.settingNotice q = (s.updSeq q fun r => { r with latch := true }).settingNotice q := funext fun a => by
      refine settingNotice_congr ?_ (eval.lockn_eq a) (fun p => ?_) eval.epoch_eq
      · exact eval.locks.approachRec_eq a
      · rw [eval.seqn_eq]
        refine (congrArg SequenceState.latch (own p)).trans ?_
        split
        · subst p; rw [seqn_updSeq_same hq]
        · rename_i hp; rw [seqn_updSeq_of_ne hp]
    have blocks : w.blocksAsking q = s.blocksAsking q := by
      rw [blocksAsking_eq, blocksAsking_eq]
      refine List.filterMap_congr fun x _ => blockNotice_congr ?_ ?_ ?_ ?_
      · exact (locks.sectionRec_eq x).trans (eval.locks.sectionRec_eq x)
      · exact (locks.sectn_eq x).trans (eval.sectn_eq x)
      · rw [locks.store_eq, eval.store_eq]
      · rw [locks.epoch_eq, eval.epoch_eq]
    rw [notice, blocks]

theorem completeSeq_unused {q : Nat} (hq : sequenceOk q = true) {s : State} (hl : (s.seqn q).latch = true) :
    (∀ p, (s.completeSeq q).seqn p =
      if p = q then { s.seqn q with step := 0, stepTime := none, unused := true } else s.seqn p) ∧
    OnlyLink { s with seqs := (s.completeSeq q).seqs } (s.completeSeq q) := by
  unfold completeSeq
  rw [if_pos hl]
  generalize hf : (fun x : SequenceState => { x with step := 0, stepTime := none, unused := true }) = f
  obtain ⟨l, h⟩ := State.report_only .seq q 3 [1] (s.updSeq q f)
  refine ⟨fun p => ?_, l, by rw [h]; rfl⟩
  rw [h]
  change (s.updSeq q f).seqn p = _
  split
  · subst p; rw [seqn_updSeq_same hq, ← hf]
  · rename_i hp; exact seqn_updSeq_of_ne hp f s

end State

/-- R75: a sequence's record at a step. -/
def SequenceState.atStep (k : Nat) (at_ : Option Time) (r : SequenceState) : SequenceState := { r with step := k, stepTime := at_ }

namespace State

/-- R76, R78: a sequence completes, from a state that differs from `s` in its own step alone. -/
theorem completesSeq_of_step {q : Nat} (hq : sequenceOk q = true) {s u : State} {k : Nat} {m : Option Time}
    (hu : OnlyLink { s with seqs := u.seqs } u) (own : u.seqn q = (s.seqn q).atStep k m)
    (others : ∀ p, p ≠ q → u.seqn p = s.seqn p) : s.completesSeq q (u.completeSeq q) := by
  have latch : (u.seqn q).latch = (s.seqn q).latch := by rw [own]; rfl
  have only : OnlyField s (u.completeSeq q) := by
    obtain ⟨l, h⟩ := hu
    have step : OnlyField s u := by
      rw [h]; exact ⟨l, s.faults, s.frame, s.tracks, u.seqs, s.sections, s.locks, s.notices, rfl⟩
    exact step.trans (completeSeq_only q u)
  refine ⟨fun p hp => ?_, fun hl => ?_, fun hl => ?_⟩
  · cases hlu : (u.seqn q).latch with
    | true => rw [(completeSeq_unused hq hlu).1, if_neg hp, others p hp]
    | false => rw [(completeSeq_sets hq hlu).1, if_neg hp, others p hp]
  · obtain ⟨seqn, link⟩ := completeSeq_unused hq (latch.trans hl)
    refine ⟨by rw [seqn, if_pos rfl, own]; rfl, ?_⟩
    obtain ⟨_, h⟩ := hu
    obtain ⟨l, g⟩ := link
    exact ⟨l, by rw [g, h]⟩
  · obtain ⟨seqn, notices, fresh⟩ := completeSeq_sets hq (latch.trans hl)
    refine ⟨by rw [seqn, if_pos rfl, own]; rfl, ?_, fresh, only⟩
    have asked : (s.updSeq q fun r => { r with latch := true }).askedBy (fun a rec =>
        decide (rec.release.toNat = q) && ((s.lockn a).phase == .awaitRelease || (s.lockn a).phase == .timing)) =
        allLocks.filterMap ((s.updSeq q fun r => { r with latch := true }).settingNotice q) := askedBy_eq _ _
    have notice : (u.updSeq q fun r => { r with latch := true }).settingNotice q =
        (s.updSeq q fun r => { r with latch := true }).settingNotice q := funext fun a => by
      refine settingNotice_congr ?_ ?_ (fun p => ?_) ?_
      · obtain ⟨_, h⟩ := hu; rw [h]; rfl
      · obtain ⟨_, h⟩ := hu; rw [h]; rfl
      · by_cases hp : p = q
        · subst p; rw [seqn_updSeq_same hq, seqn_updSeq_same hq]
        · rw [seqn_updSeq_of_ne hp, seqn_updSeq_of_ne hp, others p hp]
      · obtain ⟨_, h⟩ := hu; rw [h]; rfl
    have blocks : u.blocksAsking q = s.blocksAsking q := by
      rw [blocksAsking_eq, blocksAsking_eq]
      obtain ⟨_, h⟩ := hu
      refine List.filterMap_congr fun x _ => blockNotice_congr ?_ ?_ ?_ ?_ <;> rw [h] <;> rfl
    have sent : u.notices = s.notices := by obtain ⟨_, h⟩ := hu; rw [h]
    rw [notices, notice, blocks, asked, sent]

variable {s : State} {t q : Nat} {rec : SequenceRec}

/-- R74: the gate lever is absent or proved Reverse. -/
theorem gateOpen_iff (s : State) (rec : SequenceRec) : s.gateOpen rec = true ↔
    rec.gate = absent ∨ (s.lever rec.gate.toNat).position = .reverse := by
  simp [gateOpen]

/-- Nothing but the record of sequence `q` and the link unit. -/
def OnlySeq (q : Nat) (s u : State) : Prop := (∀ p, p ≠ q → u.seqn p = s.seqn p) ∧ OnlyLink { s with seqs := u.seqs } u

theorem OnlySeq.trans {u v : State} (h : OnlySeq q s u) (g : OnlySeq q u v) : OnlySeq q s v := by
  obtain ⟨h1, _, h2⟩ := h
  obtain ⟨g1, l, g2⟩ := g
  exact ⟨fun p hp => (g1 p hp).trans (h1 p hp), l, by rw [g2, h2]⟩

theorem OnlySeq.refl (q : Nat) (s : State) : OnlySeq q s s := ⟨fun _ _ => rfl, s.link, rfl⟩

theorem onlySeq_report (q o r : Nat) (d : List Byte) (f : SequenceState → SequenceState) (s : State) :
    OnlySeq q s ((s.updSeq q f).report .seq o r d) := by
  obtain ⟨l, h⟩ := State.report_only .seq o r d (s.updSeq q f)
  exact ⟨fun p hp => by rw [h]; exact seqn_updSeq_of_ne hp f s, l, by rw [h]; rfl⟩

theorem seqn_report (hq : sequenceOk q = true) (o r : Nat) (d : List Byte) (f : SequenceState → SequenceState) (s : State) :
    ((s.updSeq q f).report .seq o r d).seqn q = f (s.seqn q) := by
  rw [(State.report_only _ _ _ _ _).eval.seqn_eq, seqn_updSeq_same hq]

/-- R74: an occupation of circuit `t` starts a sequence at step 0. -/
def starts (s : State) (t : Nat) (rec : SequenceRec) : Prop :=
  rec.circuitAt 1 = t ∧ (rec.gate = absent ∨ (s.lever rec.gate.toNat).position = .reverse)

theorem startSeq_of_starts (hq : sequenceOk q = true) (h : s.starts t rec) : OnlySeq q s (s.startSeq t q rec) ∧
    (s.startSeq t q rec).seqn q = (s.seqn q).atStep 1 (some s.now) := by
  obtain ⟨ht, hg⟩ := h
  unfold startSeq
  rw [if_pos ht, if_pos ((s.gateOpen_iff rec).2 hg)]
  exact ⟨onlySeq_report q q 1 _ _ s, seqn_report hq q 1 _ _ s⟩

theorem startSeq_of_not_starts (h : ¬s.starts t rec) : OnlyLink s (s.startSeq t q rec) := by
  unfold startSeq; split
  · rename_i ht
    rw [if_neg fun hg => h ⟨ht, (s.gateOpen_iff rec).1 hg⟩]
    exact State.report_only _ _ _ _ _
  · exact OnlyLink.refl s

theorem OnlyLink.onlySeq {u : State} (h : OnlyLink s u) (q : Nat) : OnlySeq q s u := by
  obtain ⟨l, rfl⟩ := h
  exact ⟨fun _ _ => rfl, l, rfl⟩

theorem breakSequence_spec (hq : sequenceOk q = true) (w : BreakCause) (s : State) : OnlySeq q s (s.breakSequence q w) ∧
    (s.breakSequence q w).seqn q = (s.seqn q).broken :=
  ⟨onlySeq_report q q 4 _ _ s, seqn_report hq q 4 _ _ s⟩

/-- R74: what an occupation leaves of a sequence that is taken at step 0, broken or not begun. -/
def afresh (s : State) (t q : Nat) (rec : SequenceRec) : SequenceState :=
  if rec.circuitAt 1 = t ∧ (rec.gate = absent ∨ (s.lever rec.gate.toNat).position = .reverse) then
    { s.seqn q with step := 1, stepTime := some s.now }
  else { s.seqn q with step := 0, stepTime := none }

theorem afresh_of_starts (h : s.starts t rec) : s.afresh t q rec = (s.seqn q).atStep 1 (some s.now) := if_pos h

theorem afresh_of_not_starts (h : ¬s.starts t rec) : s.afresh t q rec = (s.seqn q).broken := if_neg h

/-- R75: a broken sequence takes the occupation at step 0. -/
theorem breakAndStart (hq : sequenceOk q = true) (w : BreakCause) :
    ((s.breakSequence q w).startSeq t q rec).seqn q = s.afresh t q rec ∧
    OnlySeq q s ((s.breakSequence q w).startSeq t q rec) := by
  obtain ⟨only, own⟩ := breakSequence_spec hq w s
  have starts_iff : (s.breakSequence q w).starts t rec ↔ s.starts t rec := by
    obtain ⟨-, _, h⟩ := only
    unfold starts; rw [h]; rfl
  have now : (s.breakSequence q w).now = s.now := by obtain ⟨-, _, h⟩ := only; rw [h]
  by_cases h : s.starts t rec
  · obtain ⟨only2, own2⟩ := startSeq_of_starts hq (starts_iff.2 h)
    rw [afresh_of_starts h, own2, own, now]
    exact ⟨rfl, only.trans only2⟩
  · have link := startSeq_of_not_starts (q := q) (mt starts_iff.1 h)
    rw [afresh_of_not_starts h, link.eval.seqn_eq, own]
    exact ⟨rfl, only.trans (OnlyLink.onlySeq link q)⟩

/-! #### R74 to R77: what an occupation makes of a sequence -/

section Occupation

variable (hr : s.seqRec q = some rec)
include hr

theorem occupation_unlisted (hl : rec.lists t = false) : s.occupationAtSeq t q = s := by
  unfold occupationAtSeq; rw [hr]; exact if_pos hl

variable (hl : rec.lists t = true)
include hl

theorem occupation_idle (h : (s.seqn q).step = 0) : s.occupationAtSeq t q = s.startSeq t q rec := by
  unfold occupationAtSeq; rw [hr]; dsimp only
  rw [if_neg (by simp [hl]), if_pos h]

theorem occupation_advances (h : s.advances q t rec) : s.occupationAtSeq t q =
    let u := (s.updSeq q (SequenceState.atStep ((s.seqn q).step + 1) (some s.now))).report .seq q 1
      [byte ((s.seqn q).step + 1), byte t]
    if (s.seqn q).step + 1 = rec.circuits.length ∧ (s.track (rec.circuitAt 1)).state = .clear then u.completeSeq q else u := by
  obtain ⟨h1, h2, h3, h4⟩ := h
  have clear : ∀ n, s.trackClear n = true ↔ (s.track n).state = .clear := fun n => by simp [trackClear]
  unfold occupationAtSeq; rw [hr]; dsimp only
  rw [if_neg (by simp [hl]), if_neg (by omega), if_pos ⟨h2, h3⟩, if_neg (mt (clear _).1 h4)]
  refine if_congr (and_congr Iff.rfl ?_) rfl rfl
  have track : ∀ (f : SequenceState → SequenceState) d n, ((s.updSeq q f).report .seq q 1 d).track n = s.track n := fun f d n => by
    obtain ⟨l, h⟩ := State.report_only .seq q 1 d (s.updSeq q f)
    rw [h]; rfl
  refine Iff.trans ?_ (clear _)
  unfold trackClear; rw [track]

theorem occupation_breaks (hk : 1 ≤ (s.seqn q).step) (h : ¬s.advances q t rec) :
    ∃ w, s.occupationAtSeq t q = (s.breakSequence q w).startSeq t q rec := by
  unfold occupationAtSeq; rw [hr]; dsimp only
  rw [if_neg (by simp [hl]), if_neg (by omega)]
  by_cases hn : (s.seqn q).step < rec.size ∧ rec.circuitAt ((s.seqn q).step + 1) = t
  · rw [if_pos hn]
    have gap : s.trackClear (rec.circuitAt (s.seqn q).step) = true := by
      by_contra hc
      exact h ⟨hk, hn.1, hn.2, fun hs => hc (by unfold trackClear; rw [hs]; rfl)⟩
    rw [if_pos gap]; exact ⟨_, rfl⟩
  · rw [if_neg hn]; exact ⟨_, rfl⟩

end Occupation

theorem clearing_completes (hr : s.seqRec q = some rec)
    (h : 1 ≤ (s.seqn q).step ∧ (s.seqn q).step = rec.circuits.length ∧ rec.circuitAt 1 = t) :
    s.clearingAtSeq t q = s.completeSeq q := by
  unfold clearingAtSeq; rw [hr]; exact if_pos h

theorem clearing_stands (hr : s.seqRec q = some rec)
    (h : ¬(1 ≤ (s.seqn q).step ∧ (s.seqn q).step = rec.circuits.length ∧ rec.circuitAt 1 = t)) : s.clearingAtSeq t q = s := by
  unfold clearingAtSeq; rw [hr]; exact if_neg h

end State

/-- A fold whose steps each write the records of their own object leaves to each object what its own step makes of it. -/
theorem forEach_own {α β : Type} {get : State → α → β} {R : State → State → Prop} {f : α → State → State} (xs : List α)
    (hn : xs.Nodup) (same : ∀ x s, x ∈ xs → R s (f x s)) (trans : ∀ {s t u}, R s t → R t u → R s u) (refl : ∀ s, R s s)
    (others : ∀ x s y, x ∈ xs → y ≠ x → get (f x s) y = get s y)
    (congr : ∀ {s t}, R s t → ∀ y, y ∈ xs → get t y = get s y → get (f y t) y = get (f y s) y) {y : α} (hy : y ∈ xs) (s : State) :
    get (forEach xs f s) y = get (f y s) y := by
  have kept : ∀ ys : List α, (∀ x ∈ ys, x ∈ xs) → y ∉ ys → ∀ s, get (forEach ys f s) y = get s y := by
    intro ys
    induction ys with
    | nil => intro _ _ s; rfl
    | cons z ys ih =>
      intro hm hy s
      have hz : y ≠ z := fun h => hy (h ▸ List.mem_cons_self)
      have hys : y ∉ ys := fun h => hy (List.mem_cons_of_mem z h)
      rw [forEach_cons, ih (fun x hx => hm x (List.mem_cons_of_mem z hx)) hys, others z s y (hm z List.mem_cons_self) hz]
  have fold : ∀ ys : List α, (∀ x ∈ ys, x ∈ xs) → ys.Nodup → y ∈ ys → ∀ u, R s u → get u y = get s y →
      get (forEach ys f u) y = get (f y s) y := by
    intro ys
    induction ys with
    | nil => intro _ _ h; exact absurd h List.not_mem_nil
    | cons z ys ih =>
      intro hm hn hmem u hu hget
      obtain ⟨hz, hys⟩ := List.nodup_cons.1 hn
      have rest : ∀ x ∈ ys, x ∈ xs := fun x hx => hm x (List.mem_cons_of_mem z hx)
      rw [forEach_cons]
      by_cases hyz : y = z
      · subst hyz
        rw [kept ys rest hz, congr hu y hy hget]
      · have hy' : y ∈ ys := (List.mem_cons.1 hmem).resolve_left hyz
        have mz : z ∈ xs := hm z List.mem_cons_self
        exact ih rest hys hy' _ (trans hu (same z u mz)) ((others z u y mz hyz).trans hget)
  exact fold xs (fun _ => id) hn hy s (refl s) rfl

/-- What the sequences read of the field, and the store: the circuits, the positions of the levers, the time, the table. -/
def SameField (s t : State) : Prop :=
  t.tracks = s.tracks ∧ t.now = s.now ∧ t.store = s.store ∧ ∀ n, (t.lever n).position = (s.lever n).position

theorem SameField.refl (s : State) : SameField s s := ⟨rfl, rfl, rfl, fun _ => rfl⟩

theorem SameField.trans {s t u : State} (h : SameField s t) (g : SameField t u) : SameField s u := by
  obtain ⟨h1, h2, h3, h4⟩ := h
  obtain ⟨g1, g2, g3, g4⟩ := g
  exact ⟨g1.trans h1, g2.trans h2, g3.trans h3, fun n => (g4 n).trans (h4 n)⟩

namespace State

variable {s u : State} {t q : Nat} {rec : SequenceRec}

theorem OnlyLink.sameField (h : OnlyLink s u) : SameField s u := by
  obtain ⟨_, rfl⟩ := h; exact .refl s

theorem evaluate_sameField (c : LockCause) (s : State) : SameField s (s.evaluate c) := by
  have positions := fun n => evaluate_position c n s
  obtain ⟨_, _, _, h⟩ := State.evaluate_only c s
  refine ⟨?_, ?_, ?_, positions⟩ <;> rw [h]

theorem OnlySeq.sameField (h : OnlySeq q s u) : SameField s u := by
  obtain ⟨-, _, h⟩ := h
  rw [h]; exact ⟨rfl, rfl, rfl, fun _ => rfl⟩

theorem starts_congr (h : SameField s u) : u.starts t rec ↔ s.starts t rec := by
  obtain ⟨-, -, -, positions⟩ := h
  unfold starts; rw [positions]

theorem advances_congr (h : SameField s u) (own : u.seqn q = s.seqn q) : u.advances q t rec ↔ s.advances q t rec := by
  obtain ⟨tracks, -, -, -⟩ := h
  unfold advances State.track; rw [own, tracks]


theorem completeSeq_sameField (q : Nat) (s : State) : SameField s (s.completeSeq q) := by
  have positions : ∀ n, ((s.completeSeq q).lever n).position = (s.lever n).position := fun n =>
    ((contactsStand n (s.lever n)).completeSeq q (LeverState.SameContacts.refl _)).2.2.2.1
  have rest : ∃ l f fr sq se lo no, s.completeSeq q =
      { s with link := l, faults := f, frame := fr, seqs := sq, sections := se, locks := lo, notices := no } := by
    unfold completeSeq; split
    · obtain ⟨l, h⟩ := State.report_only .seq q 3 [1] (s.updSeq q fun x => { x with step := 0, stepTime := none, unused := true })
      exact ⟨l, _, _, _, _, _, _, h⟩
    · obtain ⟨l, h⟩ := State.report_only .seq q 3 [0] (s.updSeq q fun x => { x with step := 0, stepTime := none, latch := true })
      generalize State.report .seq q 3 [0] (s.updSeq q fun x => { x with step := 0, stepTime := none, latch := true }) = v at h ⊢
      have locks := (State.evaluate_only .verdict v).locks.trans (settingAtLocks_spec q (v.evaluate .verdict)).1
      generalize (v.evaluate .verdict).settingAtLocks q = w at locks ⊢
      have asking : OnlyAsking w (w.settingAtSections q) :=
        forEach_keeps (R := OnlyAsking) (fun s => (OnlyLink.refl s).records.asking) (fun h g => h.trans g)
          (fun x u => (settingAtSection_only q x u).1) allSections w
      obtain ⟨_, _, _, _, _, locks⟩ := locks
      obtain ⟨_, _, _, asking⟩ := asking
      rw [asking, locks, h]
      exact ⟨_, _, _, _, _, _, _, rfl⟩
  obtain ⟨_, _, _, _, _, _, _, h⟩ := rest
  refine ⟨?_, ?_, ?_, positions⟩ <;> rw [h]

theorem completeSeq_seqn (hq : sequenceOk q = true) (s : State) : (∀ p, p ≠ q → (s.completeSeq q).seqn p = s.seqn p) ∧
    (s.completeSeq q).seqn q = if (s.seqn q).latch = true then { s.seqn q with step := 0, stepTime := none, unused := true }
      else { s.seqn q with step := 0, stepTime := none, latch := true } := by
  cases hl : (s.seqn q).latch with
  | true =>
    obtain ⟨seqn, -⟩ := completeSeq_unused hq hl
    exact ⟨fun p hp => by rw [seqn, if_neg hp], by rw [seqn, if_pos rfl]; rfl⟩
  | false =>
    obtain ⟨seqn, -⟩ := completeSeq_sets hq hl
    exact ⟨fun p hp => by rw [seqn, if_neg hp], by rw [seqn, if_pos rfl]; rfl⟩

/-- R74 to R78: an occupation reaches the field through the completion alone, and no other sequence. -/
theorem occupationAtSeq_same (t : Nat) (hq : sequenceOk q = true) (s : State) :
    SameField s (s.occupationAtSeq t q) ∧ ∀ p, p ≠ q → (s.occupationAtSeq t q).seqn p = s.seqn p := by
  have only : ∀ {u : State}, OnlySeq q s u → SameField s u ∧ ∀ p, p ≠ q → u.seqn p = s.seqn p := fun h => ⟨h.sameField, h.1⟩
  have stays := only (OnlySeq.refl q s)
  cases hr : s.seqRec q with
  | none => unfold occupationAtSeq; rw [hr]; exact stays
  | some rec =>
    cases hl : rec.lists t with
    | false => rw [occupation_unlisted hr hl]; exact stays
    | true =>
      by_cases h0 : (s.seqn q).step = 0
      · rw [occupation_idle hr hl h0]
        by_cases hs : s.starts t rec
        · exact only (startSeq_of_starts hq hs).1
        · exact only (OnlyLink.onlySeq (startSeq_of_not_starts hs) q)
      · by_cases ha : s.advances q t rec
        · rw [occupation_advances hr hl ha]; dsimp only
          have step := only (onlySeq_report q q 1 [byte ((s.seqn q).step + 1), byte t]
            (SequenceState.atStep ((s.seqn q).step + 1) (some s.now)) s)
          split
          · exact ⟨step.1.trans (completeSeq_sameField q _), fun p hp => ((completeSeq_seqn hq _).1 p hp).trans (step.2 p hp)⟩
          · exact step
        · obtain ⟨w, hw⟩ := occupation_breaks hr hl (by omega) ha
          rw [hw]; exact only (breakAndStart hq w).2

/-- R74 to R78: what an occupation makes of a sequence depends on the field and on the sequence. -/
theorem occupationAtSeq_congr (t : Nat) (hq : sequenceOk q = true) (h : SameField s u) (own : u.seqn q = s.seqn q) :
    (u.occupationAtSeq t q).seqn q = (s.occupationAtSeq t q).seqn q := by
  have recs : u.seqRec q = s.seqRec q := by
    obtain ⟨-, -, store, -⟩ := h
    unfold seqRec State.table; rw [store]
  have now : u.now = s.now := h.2.1
  have tracks : ∀ n, u.track n = s.track n := fun n => by unfold State.track; rw [h.1]
  have fresh : ∀ rec, u.afresh t q rec = s.afresh t q rec := fun rec => by
    by_cases hs : s.starts t rec
    · rw [afresh_of_starts hs, afresh_of_starts ((starts_congr h).2 hs), own, now]
    · rw [afresh_of_not_starts hs, afresh_of_not_starts (mt (starts_congr h).1 hs), own]
  cases hr : s.seqRec q with
  | none => unfold occupationAtSeq; rw [recs, hr]; exact own
  | some rec =>
    have hu : u.seqRec q = some rec := recs.trans hr
    cases hl : rec.lists t with
    | false => rw [occupation_unlisted hr hl, occupation_unlisted hu hl, own]
    | true =>
      by_cases h0 : (s.seqn q).step = 0
      · rw [occupation_idle hr hl h0, occupation_idle hu hl (own ▸ h0)]
        by_cases hs : s.starts t rec
        · rw [(startSeq_of_starts hq hs).2, (startSeq_of_starts hq ((starts_congr h).2 hs)).2, own, now]
        · rw [(startSeq_of_not_starts hs).eval.seqn_eq, (startSeq_of_not_starts (mt (starts_congr h).1 hs)).eval.seqn_eq, own]
      · by_cases ha : s.advances q t rec
        · rw [occupation_advances hr hl ha, occupation_advances hu hl ((advances_congr h own).2 ha)]; dsimp only
          rw [tracks, own]
          split
          · rw [(completeSeq_seqn hq _).2, (completeSeq_seqn hq _).2, seqn_report hq, seqn_report hq, own, now]
          · rw [seqn_report hq, seqn_report hq, own, now]
        · obtain ⟨w, hw⟩ := occupation_breaks hr hl (by omega) ha
          obtain ⟨v, hv⟩ := occupation_breaks hu hl (by rw [own]; omega) (mt (advances_congr h own).1 ha)
          rw [hw, hv, (breakAndStart hq w).1, (breakAndStart hq v).1, fresh]

theorem clearingAtSeq_same (t : Nat) (hq : sequenceOk q = true) (s : State) :
    SameField s (s.clearingAtSeq t q) ∧ ∀ p, p ≠ q → (s.clearingAtSeq t q).seqn p = s.seqn p := by
  unfold clearingAtSeq; split
  · exact ⟨.refl s, fun _ _ => rfl⟩
  · dsimp only; split
    · exact ⟨completeSeq_sameField q s, (completeSeq_seqn hq s).1⟩
    · exact ⟨.refl s, fun _ _ => rfl⟩

theorem clearingAtSeq_congr (t : Nat) (hq : sequenceOk q = true) (h : SameField s u) (own : u.seqn q = s.seqn q) :
    (u.clearingAtSeq t q).seqn q = (s.clearingAtSeq t q).seqn q := by
  have recs : u.seqRec q = s.seqRec q := by
    obtain ⟨-, -, store, -⟩ := h
    unfold seqRec State.table; rw [store]
  unfold clearingAtSeq; rw [recs]
  cases s.seqRec q with
  | none => exact own
  | some rec =>
    dsimp only; rw [own]
    split
    · rw [(completeSeq_seqn hq u).2, (completeSeq_seqn hq s).2, own]
    · exact own

/-- R71: each sequence takes an occupation on its own. -/
theorem occupationHanded_seqn (t : Nat) (hq : sequenceOk q = true) (s : State) :
    (s.occupationHanded t).seqn q = (s.occupationAtSeq t q).seqn q :=
  forEach_own (get := seqn) (R := SameField) allSequences (by decide)
    (fun p s hp => (occupationAtSeq_same t (mem_allSequences.1 hp) s).1) SameField.trans SameField.refl
    (fun p s y hp hy => (occupationAtSeq_same t (mem_allSequences.1 hp) s).2 y hy)
    (fun h p hp own => occupationAtSeq_congr t (mem_allSequences.1 hp) h own) (mem_allSequences.2 hq) s

theorem clearingHanded_seqn (t : Nat) (hq : sequenceOk q = true) (s : State) :
    (s.clearingHanded t).seqn q = (s.clearingAtSeq t q).seqn q :=
  forEach_own (get := seqn) (R := SameField) allSequences (by decide)
    (fun p s hp => (clearingAtSeq_same t (mem_allSequences.1 hp) s).1) SameField.trans SameField.refl
    (fun p s y hp hy => (clearingAtSeq_same t (mem_allSequences.1 hp) s).2 y hy)
    (fun h p hp own => clearingAtSeq_congr t (mem_allSequences.1 hp) h own) (mem_allSequences.2 hq) s

end State

namespace State

variable {s u : State} {t q : Nat} {rec : SequenceRec}

/-- R63: without a change of a condition, a sample hands on its change of state alone. -/
theorem trackCondition_same (c : FaultClass) (t : Nat) (a : Bool) (s : State) : s.trackCondition c t a a = s := by
  unfold trackCondition; cases a <;> rfl

theorem clearingAtSection_only (t : Nat) (x : SectionId) (s : State) : OnlySections s (s.clearingAtSection t x) := by
  unfold clearingAtSection; split
  · exact (OnlyLink.refl s).records.sections
  · split
    · rename_i h
      have offered := h.2.2
      by_cases hre : s.retestable x
      · by_cases hh : (s.sectn x).handle = .lineClear
        · rw [retest_offeredIn none hre offered hh]; split
          · exact enterState_onlySections _ _ _ _ s
          · exact (OnlyLink.refl s).records.sections
        · rw [retest_other none (fun hc => hh hc.2) (fun hc => by rw [offered] at hc; exact nomatch hc.1)
            (fun hc => by rw [offered] at hc; exact nomatch hc.1)]
          exact (OnlyLink.refl s).records.sections
      · rw [retest_of_not_retestable none hre]; exact (OnlyLink.refl s).records.sections
    · exact (OnlyLink.refl s).records.sections

theorem clearingAtSections_onlySections (t : Nat) (s : State) : OnlySections s (s.clearingAtSections t) :=
  forEach_keeps (R := OnlySections) (fun s => (OnlyLink.refl s).records.sections) (fun h g => h.trans g)
    (clearingAtSection_only t) allSections s

theorem OnlySections.seqn_eq (h : OnlySections s u) (q : Nat) : u.seqn q = s.seqn q := by
  obtain ⟨_, _, _, _, rfl⟩ := h; rfl

end State

/-- Settles O40: the branches of the monitor's step, its completion, and the fold over the sequences. -/
theorem sequenceProgress : Obligations.SequenceProgress := by
  refine ⟨fun s t q rec hr hq => ?_, fun s t q rec hr hq => ?_, fun s t q rec why hr hq => ?_, fun s t q hq h1 h24 => ?_⟩
  · intro k u afresh others
    have kept : ∀ {v : State}, State.OnlySeq q s v → (∀ p, p ≠ q → v.seqn p = s.seqn p) ∧
        ∃ l, v = { s with link := l, seqs := v.seqs } := fun h => h
    refine ⟨fun hl => State.occupation_unlisted hr hl, fun hl => ⟨fun hk => ?_, fun ha => ?_, fun hk ha => ?_⟩⟩
    · have idle : u = s.startSeq t q rec := State.occupation_idle hr hl hk
      change u.seqn q = _ ∧ ((∀ p, p ≠ q → u.seqn p = s.seqn p) ∧ ∃ l, u = { s with link := l, seqs := u.seqs })
      by_cases hs : s.starts t rec
      · obtain ⟨only, own⟩ := State.startSeq_of_starts hq hs
        have fresh : afresh = (s.seqn q).atStep 1 (some s.now) := State.afresh_of_starts hs
        rw [idle, own, fresh]
        exact ⟨rfl, kept only⟩
      · have link := State.startSeq_of_not_starts (q := q) hs
        have fresh : afresh = (s.seqn q).broken := State.afresh_of_not_starts hs
        rw [idle, link.eval.seqn_eq, fresh]
        exact ⟨rfl, kept (State.OnlyLink.onlySeq link q)⟩
    · have step := State.occupation_advances hr hl ha
      dsimp only at step
      have only := State.onlySeq_report q q 1 [byte ((s.seqn q).step + 1), byte t]
        (SequenceState.atStep ((s.seqn q).step + 1) (some s.now)) s
      have own := State.seqn_report hq q 1 [byte ((s.seqn q).step + 1), byte t]
        (SequenceState.atStep ((s.seqn q).step + 1) (some s.now)) s
      refine ⟨fun hn => ?_, fun hn hc => ?_⟩
      · have stays : u = _ := step.trans (if_neg hn)
        change u.seqn q = _ ∧ ((∀ p, p ≠ q → u.seqn p = s.seqn p) ∧ ∃ l, u = { s with link := l, seqs := u.seqs })
        rw [stays]
        exact ⟨own, kept only⟩
      · have completes : u = _ := step.trans (if_pos ⟨hn, hc⟩)
        rw [completes]
        exact State.completesSeq_of_step hq only.2 own only.1
    · obtain ⟨w, hw⟩ := State.occupation_breaks hr hl hk ha
      have breaks : u = _ := hw
      change u.seqn q = _ ∧ ((∀ p, p ≠ q → u.seqn p = s.seqn p) ∧ ∃ l, u = { s with link := l, seqs := u.seqs })
      obtain ⟨own, only⟩ := State.breakAndStart (t := t) (rec := rec) (s := s) hq w
      rw [breaks]
      exact ⟨own, kept only⟩
  · intro k
    refine ⟨fun h1 h2 h3 => ?_, fun h => State.clearing_stands hr h⟩
    rw [State.clearing_completes hr ⟨h1, h2, h3⟩]
    exact State.completesSeq_of_step hq (k := (s.seqn q).step) (m := (s.seqn q).stepTime) ⟨s.link, rfl⟩ rfl fun _ _ => rfl
  · unfold State.entrySeq; rw [hr]; dsimp only
    refine ⟨fun hl hk => ?_, fun h => ?_⟩
    · rw [if_pos (by simp [hl, hk])]; rfl
    · rw [if_neg (by simpa using h)]
  · refine ⟨fun rec r hr => ?_, fun hs => ?_⟩
    · intro x y taken hchan hdeg
      have unhanded : s.trackSample t r =
          if x.state = .clear ∧ y.state = .occupied then (taken.trackReport t 1 [] x.state).occupationOf t
          else if x.state = .occupied ∧ y.state = .clear then (taken.trackReport t 2 [] x.state).clearingOf t
          else taken := by
        unfold State.trackSample; rw [hr]; dsimp only
        rw [show (s.track t).channelFault = ((s.track t).sample rec r).channelFault from hchan.symm,
          show (s.track t).degraded = ((s.track t).sample rec r).degraded from hdeg.symm, State.trackCondition_same,
          State.trackCondition_same]
      have report : ∀ row, OnlyLink taken (taken.trackReport t row [] x.state) := fun row => State.report_only _ _ _ _ _
      have field : ∀ row, SameField taken ((taken.trackReport t row [] x.state).evaluate .verdict) := fun row =>
        (State.OnlyLink.sameField (report row)).trans (State.evaluate_sameField _ _)
      have own : ∀ row, ((taken.trackReport t row [] x.state).evaluate .verdict).seqn q = taken.seqn q := fun row =>
        ((State.evaluate_only _ _).seqn_eq q).trans ((report row).eval.seqn_eq q)
      refine ⟨fun h1 h2 => ?_, fun h1 h2 => ?_, fun h => ?_⟩
      · rw [unhanded, if_pos ⟨h1, h2⟩]
        unfold State.occupationOf
        rw [(State.trackAtLocks_only t 0 _).eval.seqn_eq, State.occupationHanded_seqn t hq]
        exact State.occupationAtSeq_congr t hq (field 1) (own 1)
      · rw [unhanded, if_neg (fun h => by rw [h1] at h; exact nomatch h.1), if_pos ⟨h1, h2⟩]
        unfold State.clearingOf
        rw [(State.clearingAtSections_onlySections t _).seqn_eq, (State.trackAtLocks_only t 1 _).eval.seqn_eq,
          State.clearingHanded_seqn t hq]
        exact State.clearingAtSeq_congr t hq (field 2) (own 2)
      · rw [unhanded, if_neg (fun hc => by rw [h, hc.2] at hc; exact nomatch hc.1),
          if_neg (fun hc => by rw [h, hc.2] at hc; exact nomatch hc.1)]
        rfl
    · have entered : ∀ v : State, OnlyEval (s.updTrack t TrackState.failedBy) v →
          (v.entryHanded t .failed).seqn q = (s.entrySeq t .failed q).seqn q := fun v hv => by
        rw [State.entryHanded_seqn t .failed hq, State.entrySeq_seqn t .failed hq, if_pos rfl, hv.seqn_eq]
        obtain ⟨_, _, _, rfl⟩ := hv; rfl
      have report : ∀ d, OnlyEval (s.updTrack t TrackState.failedBy)
          ((s.updTrack t TrackState.failedBy).trackReport t 5 d (s.track t).state) := fun d =>
        (State.report_only _ _ _ _ _).eval
      unfold State.failTrack; dsimp only
      rcases hs with hs | hs
      · rw [hs]
        exact entered _ ((hs ▸ report [0]).trans (State.evaluate_only _ _))
      · rw [hs]
        exact entered _ (hs ▸ report [0])

/-! ### O37: the tests of a circuit -/

/-- R52 to R57: what a sample makes of a circuit's record, field by field. -/
theorem TrackState.sample_spec (rec : TrackRec) (r : Sample) (x : TrackState) :
    let c := rec.clearCount.toNat
    let k := classify rec.pick.toNat rec.drop.toNat r
    let a := nextAcc c k x.acc
    let y := x.sample rec r
    y.overRun = (if k = .overRange then min 3 (x.overRun + 1) else 0) ∧
    (k ≠ .overRange → y.channelFault = false) ∧
    (k = .overRange → x.overRun = 2 → y.channelFault = true) ∧
    (k = .overRange → x.overRun ≠ 2 → y.channelFault = x.channelFault) ∧
    (x.state = .clear → a + 4 ≤ c → y.state = .occupied ∧ y.acc = min a (c / 2)) ∧
    (x.state = .clear → c < a + 4 → y.state = .clear) ∧
    (x.state = .occupied → (y.state = .clear ↔ a = c)) ∧
    (x.state = .occupied → a ≠ c → y.state = .occupied) ∧
    (x.state = .outOfUse ∨ x.state = .failed → y.state = x.state) ∧
    (x.degraded = false → (y.degraded = true ↔ rec.degrade.toNat ≤ y.tally)) ∧
    (x.degraded = true → (y.degraded = false ↔ y.tally ≤ rec.degrade.toNat / 2)) ∧
    y.failedMark = x.failedMark := by
  intro c k a y
  have occ : ∀ b, x.state = b → (x.state == b) = true := fun b h => by rw [h]; cases b <;> rfl
  have not : ∀ b d, x.state = b → b ≠ d → (x.state == d) = false := fun b d h hn => by rw [h]; revert hn; cases b <;> cases d <;> decide
  have chan : y.channelFault = if k = .overRange then x.channelFault || decide (x.overRun = 2) else false := rfl
  have deg : y.degraded = if x.degraded then decide (rec.degrade.toNat / 2 < y.tally) else decide (rec.degrade.toNat ≤ y.tally) := rfl
  have state : y.state = if (x.state == .clear && decide (a + 4 ≤ c)) = true then .occupied
      else if (x.state == .occupied && decide (a = c)) = true then .clear else x.state := rfl
  have acc : y.acc = if (x.state == .clear && decide (a + 4 ≤ c)) = true then min a (c / 2) else a := rfl
  refine ⟨rfl, fun h => by rw [chan, if_neg h], fun h h2 => by rw [chan, if_pos h, decide_eq_true h2, Bool.or_true],
    fun h h2 => by rw [chan, if_pos h, decide_eq_false h2, Bool.or_false], fun h h2 => ?_, fun h h2 => ?_, fun h => ?_,
    fun h h2 => ?_, fun h => ?_, fun h => ?_, fun h => ?_, rfl⟩
  · have fires : (x.state == .clear && decide (a + 4 ≤ c)) = true := by rw [occ _ h, decide_eq_true h2]; rfl
    rw [state, acc, if_pos fires, if_pos fires]; exact ⟨rfl, rfl⟩
  · rw [state, decide_eq_false (by omega : ¬a + 4 ≤ c), Bool.and_false, if_neg Bool.false_ne_true,
      not _ .occupied h nofun, Bool.false_and, if_neg Bool.false_ne_true, h]
  · rw [state, not _ .clear h nofun, Bool.false_and, if_neg Bool.false_ne_true, occ _ h, Bool.true_and, h]
    by_cases hac : a = c
    · simp [hac]
    · simp [hac]
  · rw [state, not _ .clear h nofun, Bool.false_and, if_neg Bool.false_ne_true, decide_eq_false h2, Bool.and_false,
      if_neg Bool.false_ne_true, h]
  · rw [state]
    rcases h with h | h <;>
      rw [not _ .clear h nofun, Bool.false_and, if_neg Bool.false_ne_true, not _ .occupied h nofun, Bool.false_and,
        if_neg Bool.false_ne_true]
  · rw [deg, h, if_neg Bool.false_ne_true, decide_eq_true_iff]
  · rw [deg, h, if_pos rfl, decide_eq_false_iff_not, not_lt]

/-- Nothing but the circuits, the sequences and what an evaluation reaches. -/
def OnlyFails (s t : State) : Prop := ∃ tr sq, OnlyEval { s with tracks := tr, seqs := sq } t

namespace OnlyFails

theorem refl (s : State) : OnlyFails s s := ⟨s.tracks, s.seqs, OnlyEval.refl s⟩

theorem trans {s t u : State} (h : OnlyFails s t) (g : OnlyFails t u) : OnlyFails s u := by
  obtain ⟨_, _, _, _, _, rfl⟩ := h
  obtain ⟨tr, sq, l, f, fr, rfl⟩ := g
  exact ⟨tr, sq, l, f, fr, rfl⟩

theorem sectn_eq {s t : State} (h : OnlyFails s t) (x : SectionId) : t.sectn x = s.sectn x := by
  obtain ⟨_, _, _, _, _, rfl⟩ := h; rfl

end OnlyFails

theorem OnlyEval.fails {s t : State} (h : OnlyEval s t) : OnlyFails s t := ⟨s.tracks, s.seqs, h⟩

theorem OnlyFaults.fails {s t : State} (h : OnlyFaults s t) : OnlyFails s t := h.eval.fails

namespace State

theorem entryHanded_onlyFails (t : Nat) (w : BreakCause) (s : State) : OnlyFails s (s.entryHanded t w) := by
  refine forEach_keeps (R := OnlyFails) OnlyFails.refl (fun h g => h.trans g) (fun q u => ?_) _ s
  unfold entrySeq; split
  · exact OnlyFails.refl u
  · split
    · obtain ⟨l, h⟩ := (onlySeq_report q q 4 [w.code, byte (u.seqn q).step] (fun r => { r with step := 0, stepTime := none }) u).2
      exact ⟨u.tracks, _, l, u.faults, u.frame, h⟩
    · exact OnlyFails.refl u

theorem updTrack_onlyFails (t : Nat) (f : TrackState → TrackState) (s : State) : OnlyFails s (s.updTrack t f) :=
  ⟨(s.updTrack t f).tracks, s.seqs, s.link, s.faults, s.frame, rfl⟩

theorem failTrack_onlyFails (t : Nat) (s : State) : OnlyFails s (s.failTrack t) := by
  have report : ∀ f row d b, OnlyFails s ((s.updTrack t f).trackReport t row d b) := fun f row d b =>
    (updTrack_onlyFails t f s).trans (State.report_only _ _ _ _ _).faults.fails
  unfold failTrack; dsimp only; split
  · exact OnlyFails.refl s
  · exact report _ _ _ _
  · exact ((report _ _ _ _).trans (State.evaluate_only _ _).fails).trans (entryHanded_onlyFails _ _ _)
  · exact (report _ _ _ _).trans (entryHanded_onlyFails _ _ _)


end State

/-- R61: a circuit's record after the fail order. -/
def TrackState.failOrdered (x : TrackState) : TrackState :=
  if x.state = .failed then x else if x.state = .outOfUse then x.markedBy else x.failedBy

theorem TrackState.failOrdered_twice (x : TrackState) : x.failOrdered.failOrdered = x.failOrdered := by
  unfold TrackState.failOrdered
  by_cases hf : x.state = .failed
  · rw [if_pos hf, if_pos hf]
  · rw [if_neg hf]
    by_cases ho : x.state = .outOfUse
    · rw [if_pos ho, if_neg (by exact hf), if_pos (by exact ho)]; rfl
    · rw [if_neg ho]; exact if_pos rfl

theorem TrackState.failOrdered_spec (x : TrackState) : (x.state = .failed ∨ x.failOrdered.failedMark = true) ∧
    x.failOrdered.state = if x.state = .outOfUse then .outOfUse else .failed := by
  unfold TrackState.failOrdered
  by_cases hf : x.state = .failed
  · rw [if_pos hf, hf]; exact ⟨.inl rfl, rfl⟩
  · rw [if_neg hf]
    by_cases ho : x.state = .outOfUse
    · rw [if_pos ho, if_pos ho]; exact ⟨.inr rfl, ho⟩
    · rw [if_neg ho, if_neg ho]; exact ⟨.inr rfl, rfl⟩

/-- R156: the register of failures keeps what it holds. -/
theorem listed_failedSet (k : Nat) : Listed fun f => f.failedSet.getLsbD k = true where
  endFault c o s hs := by
    obtain ⟨g, -, h⟩ := s.endFault_faults c o
    rw [h]; exact hs
  entered c o now u m f hf := by
    unfold Supervisor.entered; split
    · exact hf
    · split
      · exact hf
      · split <;> exact hf
  sounded _ _ _ _ := id
  register r o s hs := by
    cases r with
    | frameCut | freeze => exact hs
    | fail => exact (BitVec.getLsbD_or ..).trans (by rw [hs]; rfl)

namespace State

variable {c : FaultClass} (hc : c.order = some .fail)
include hc

theorem raiseWith_of_fail (m : Bool) (t : Nat) (s : State) : s.raiseWith m c t =
    if s.faults.unmaskedFor c t = true then ((s.enterRaise c t m).register .fail t).failTrack t else s.enterRaise c t m := by
  split
  · rename_i hu
    exact raiseWith_of_order hc hu
  · rename_i hu
    unfold raiseWith; rw [hc, Bool.eq_false_iff.2 hu]; rfl

theorem failRaise_onlyFails (m : Bool) (t : Nat) (s : State) : OnlyFails s (s.raiseWith m c t) := by
  rw [raiseWith_of_fail hc]
  have entered : OnlyFaults s (s.enterRaise c t m) := enterRaise_only _ _ _ s
  split
  · exact (entered.trans (register_only _ _ _)).fails.trans (failTrack_onlyFails t _)
  · exact entered.fails

theorem failRaise_track (m : Bool) {t : Nat} (h1 : 1 ≤ t) (h24 : t ≤ 24) (n : Nat) (s : State) :
    (s.raiseWith m c t).track n =
      if n = t ∧ s.faults.unmaskedFor c t = true then (s.track t).failOrdered else s.track n := by
  rw [raiseWith_of_fail hc]
  have entered : OnlyFaults s (s.enterRaise c t m) := enterRaise_only _ _ _ s
  split
  · rename_i hu
    rw [failTrack_track, (entered.trans (register_only _ _ _)).track_eq, (entered.trans (register_only _ _ _)).track_eq]
    simp only [h1, h24, hu, and_true]; rfl
  · rename_i hu
    rw [entered.track_eq]; simp [hu]

theorem failRaise_failedSet (m : Bool) {t : Nat} (h1 : 1 ≤ t) (h24 : t ≤ 24) {s : State}
    (hu : s.faults.unmaskedFor c t = true) : (s.raiseWith m c t).faults.failedSet.getLsbD (t - 1) = true := by
  rw [raiseWith_of_order hc hu, (deliver_register .fail _ _).2.1]
  exact (bit_or_shift _ _ _ (show t - 1 < 24 by omega)).trans (by simp)

theorem trackCondition_onlyFails (t : Nat) (was is : Bool) (s : State) : OnlyFails s (s.trackCondition c t was is) := by
  unfold trackCondition; split
  · exact failRaise_onlyFails hc false t s
  · split
    · exact (State.endFault_only c t s).fails
    · exact OnlyFails.refl s

theorem trackCondition_track {t : Nat} (h1 : 1 ≤ t) (h24 : t ≤ 24) (was is : Bool) (n : Nat) (s : State) :
    (s.trackCondition c t was is).track n =
      if n = t ∧ was = false ∧ is = true ∧ s.faults.unmaskedFor c t = true then (s.track t).failOrdered else s.track n := by
  unfold trackCondition
  cases was with
  | true =>
    cases is with
    | true => simp
    | false => simpa using (State.endFault_only c t s).track_eq n
  | false =>
    cases is with
    | true => simpa using (show (s.raise c t).track n = _ from failRaise_track hc false h1 h24 n s)
    | false => simp

omit hc in
/-- R64: what a condition's change leaves of another condition that is shown, or over. -/
theorem trackCondition_keeps {d : FaultClass} (hd : d ≠ c) (hl : d ≠ .lockDrive) (t : Nat) (was is : Bool) {s : State} :
    (s.faultShown d t → (s.trackCondition c t was is).faultShown d t) ∧
    (s.faults.agree d t → s.faultOver d t → (s.trackCondition c t was is).faultOver d t) := by
  unfold trackCondition; split
  · exact ⟨fun h => raiseWith_keeps_shown (.inl hl) (enterRaise_keeps_shown nofun h),
      fun ha h => raiseWith_keeps_over (enterRaise_keeps_over (fun hcd => hd hcd.1.symm) ha h)⟩
  · split
    · exact ⟨fun h => endFault_keeps_shown (fun hcd => hd hcd.1) h, fun _ h => endFault_keeps_over _ _ h⟩
    · exact ⟨id, fun _ => id⟩

end State

namespace State

variable {s u : State}

theorem enterState_sameField (x : SectionId) (b : BlockState) (w : StateCause) (rs : List (Nat × List Byte)) (s : State) :
    SameField s (s.enterState x b w rs) := by
  have positions : ∀ n, ((s.enterState x b w rs).lever n).position = (s.lever n).position := fun n =>
    ((contactsStand n (s.lever n)).enterState x b w rs (LeverState.SameContacts.refl _)).2.2.2.1
  obtain ⟨_, _, _, _, h⟩ := enterState_onlySections x b w rs s
  refine ⟨?_, ?_, ?_, positions⟩ <;> rw [h]

/-- R142: what a section that is offered a train does where its clearing track becomes CLEAR. -/
theorem clearingAtSection_eq {t : Nat} {x : SectionId} {rec : SectionRec} (hr : s.sectionRec x = some rec)
    (hc : rec.clearing ≠ absent ∧ rec.clearing.toNat = t) (hs : (s.sectn x).state = some .offeredIn) :
    s.clearingAtSection t x = s.sampleRetest x := by
  unfold clearingAtSection sampleRetest; rw [hr, if_pos hs]
  exact if_pos ⟨hc.1, hc.2, hs⟩

theorem clearingAtSection_stands {t : Nat} {x : SectionId} (h : ¬∃ rec, s.sectionRec x = some rec ∧
    (rec.clearing ≠ absent ∧ rec.clearing.toNat = t) ∧ (s.sectn x).state = some .offeredIn) : s.clearingAtSection t x = s := by
  unfold clearingAtSection
  cases hr : s.sectionRec x with
  | none => rfl
  | some rec => exact if_neg fun ⟨h1, h2, h3⟩ => h ⟨rec, hr, ⟨h1, h2⟩, h3⟩

theorem clearingAtSection_same (t : Nat) (x : SectionId) (s : State) :
    SameField s (s.clearingAtSection t x) ∧ OtherSections x s (s.clearingAtSection t x) := by
  by_cases h : ∃ rec, s.sectionRec x = some rec ∧
      (rec.clearing ≠ absent ∧ rec.clearing.toNat = t) ∧ (s.sectn x).state = some .offeredIn
  · obtain ⟨rec, hr, hc, hs⟩ := h
    rw [clearingAtSection_eq hr hc hs]
    by_cases ha : s.sampleAccepts x
    · rw [sampleRetest_of_accepts ha]
      exact ⟨enterState_sameField _ _ _ _ s, otherSections_enterState _ _ _ _ s⟩
    · rw [sampleRetest_of_not_accepts ha]; exact ⟨.refl s, fun _ _ => rfl⟩
  · rw [clearingAtSection_stands h]; exact ⟨.refl s, fun _ _ => rfl⟩

theorem acceptsTrain_congr {x : SectionId} (rec : SectionRec) (h : SameField s u) (own : u.sectn x = s.sectn x) :
    u.acceptsTrain x rec = s.acceptsTrain x rec := by
  obtain ⟨tracks, -, -, positions⟩ := h
  unfold acceptsTrain State.track; rw [own, tracks, positions]

theorem SameField.sectionRec_eq (h : SameField s u) (x : SectionId) : u.sectionRec x = s.sectionRec x := by
  obtain ⟨-, -, store, -⟩ := h
  unfold sectionRec State.table; rw [store]

theorem sampleAccepts_congr {x : SectionId} {rec : SectionRec} (hr : s.sectionRec x = some rec) (h : SameField s u)
    (own : u.sectn x = s.sectn x) : u.sampleAccepts x ↔ s.sampleAccepts x := by
  have storing : u.isStoring = s.isStoring := by
    obtain ⟨-, -, store, -⟩ := h
    unfold isStoring; rw [store]
  unfold sampleAccepts retestable
  rw [acceptsTrain_eq u ((SameField.sectionRec_eq h x).trans hr), acceptsTrain_eq s hr, acceptsTrain_congr rec h own, own, storing]

theorem sampleRetest_sectn (x : SectionId) (s : State) : (s.sampleAccepts x → (s.sampleRetest x).sectn x = (s.sectn x).entered .clearIn) ∧
    (¬s.sampleAccepts x → (s.sampleRetest x).sectn x = s.sectn x) :=
  ⟨fun h => by rw [sampleRetest_of_accepts h, enterState_sectn_same], fun h => by rw [sampleRetest_of_not_accepts h]⟩

theorem clearingAtSection_congr {t : Nat} {x : SectionId} (h : SameField s u) (own : u.sectn x = s.sectn x) :
    (u.clearingAtSection t x).sectn x = (s.clearingAtSection t x).sectn x := by
  have recs := SameField.sectionRec_eq h x
  by_cases ho : ∃ rec, s.sectionRec x = some rec ∧
      (rec.clearing ≠ absent ∧ rec.clearing.toNat = t) ∧ (s.sectn x).state = some .offeredIn
  · obtain ⟨rec, hr, hc, hs⟩ := ho
    rw [clearingAtSection_eq hr hc hs, clearingAtSection_eq (recs.trans hr) hc (own ▸ hs)]
    have iff := sampleAccepts_congr hr h own
    by_cases ha : s.sampleAccepts x
    · rw [(sampleRetest_sectn x s).1 ha, (sampleRetest_sectn x u).1 (iff.2 ha), own]
    · rw [(sampleRetest_sectn x s).2 ha, (sampleRetest_sectn x u).2 (mt iff.1 ha), own]
  · rw [clearingAtSection_stands ho, clearingAtSection_stands (by rw [recs, own]; exact ho), own]

/-- R63: each section takes a clearing on its own. -/
theorem clearingAtSections_sectn (t : Nat) (x : SectionId) (s : State) :
    (s.clearingAtSections t).sectn x = (s.clearingAtSection t x).sectn x :=
  forEach_own (get := sectn) (R := SameField) allSections (by decide) (fun y s _ => (clearingAtSection_same t y s).1)
    SameField.trans SameField.refl (fun y s z _ hz => (clearingAtSection_same t y s).2 z hz)
    (fun h y _ own => clearingAtSection_congr h own) (mem_allSections x) s

/-! #### What an occupation and a clearing leave -/

theorem settingAtSections_sectn {q : Nat} {x : SectionId} (hs : (s.sectn x).state ≠ some .onLineIn) :
    (s.settingAtSections q).sectn x = s.sectn x := by
  refine forEach_inv (P := fun u => u.sectn x = s.sectn x) (fun y u hu => ?_) _ s rfl
  by_cases hy : x = y
  · subst y
    rw [settingAtSection_stands fun rec hr ha => hs (hu ▸ ha.2.1)]; exact hu
  · exact ((settingAtSection_only q y u).2 x hy).trans hu

theorem completeSeq_sectn (q : Nat) {x : SectionId} (hs : (s.sectn x).state ≠ some .onLineIn) :
    (s.completeSeq q).sectn x = s.sectn x := by
  have report : ∀ f d, ((s.updSeq q f).report .seq q 3 d).sectn x = s.sectn x := fun f d =>
    (State.report_only _ _ _ _ (s.updSeq q f)).eval.sectn_eq x
  unfold completeSeq; split
  · exact report _ _
  · generalize hv : ((s.updSeq q _).report .seq q 3 [0]).evaluate .verdict = v
    have own : v.sectn x = s.sectn x := by
      rw [← hv, (State.evaluate_only _ _).sectn_eq]; exact report _ _
    have locks := (settingAtLocks_spec q v).1.sectn_eq x
    rw [settingAtSections_sectn (by rw [locks, own]; exact hs), locks, own]

theorem clearingHanded_sectn (t : Nat) {x : SectionId} (hs : (s.sectn x).state ≠ some .onLineIn) :
    (s.clearingHanded t).sectn x = s.sectn x := by
  refine forEach_inv (P := fun u => u.sectn x = s.sectn x) (fun q u hu => ?_) _ s rfl
  unfold clearingAtSeq; split
  · exact hu
  · dsimp only; split
    · exact (completeSeq_sectn q (by rw [hu]; exact hs)).trans hu
    · exact hu

theorem clearingHanded_sameField (t : Nat) (s : State) : SameField s (s.clearingHanded t) :=
  forEach_inv_mem (P := SameField s) allSequences
    (fun _ hq _ hu => SameField.trans hu (clearingAtSeq_same t (mem_allSequences.1 hq) _).1) s (.refl s)

theorem occupationHanded_sameField (t : Nat) (s : State) : SameField s (s.occupationHanded t) :=
  forEach_inv_mem (P := SameField s) allSequences
    (fun _ hq _ hu => SameField.trans hu (occupationAtSeq_same t (mem_allSequences.1 hq) _).1) s (.refl s)

theorem occupationOf_sameField (t : Nat) (s : State) : SameField s (s.occupationOf t) :=
  SameField.trans (SameField.trans (evaluate_sameField _ s) (occupationHanded_sameField t _))
    (OnlyLink.sameField (State.trackAtLocks_only _ _ _))

/-- R63: a clearing up to the sections, which take it last. -/
def clearingUpTo (t : Nat) (s : State) : State := ((s.evaluate .verdict).clearingHanded t).trackAtLocks t 1

theorem clearingUpTo_sameField (t : Nat) (s : State) : SameField s (s.clearingUpTo t) :=
  SameField.trans (SameField.trans (evaluate_sameField _ s) (clearingHanded_sameField t _))
    (OnlyLink.sameField (State.trackAtLocks_only _ _ _))

theorem clearingUpTo_sectn (t : Nat) {x : SectionId} (hs : (s.sectn x).state ≠ some .onLineIn) :
    (s.clearingUpTo t).sectn x = s.sectn x := by
  have own := (State.evaluate_only .verdict s).sectn_eq x
  unfold clearingUpTo
  rw [(State.trackAtLocks_only _ _ _).sectn_eq, clearingHanded_sectn t (by rw [own]; exact hs), own]

theorem clearingOf_eq (t : Nat) (s : State) : s.clearingOf t = (s.clearingUpTo t).clearingAtSections t := rfl

theorem clearingOf_sameField (t : Nat) (s : State) : SameField s (s.clearingOf t) :=
  SameField.trans (clearingUpTo_sameField t s) (forEach_keeps (R := SameField) SameField.refl SameField.trans
    (fun x u => (clearingAtSection_same t x u).1) allSections _)

/-- R63, R142: a section offered a train whose clearing track becomes CLEAR. -/
theorem clearingOf_sectn {t : Nat} {x : SectionId} {rec : SectionRec} (hr : s.sectionRec x = some rec)
    (hc : rec.clearing ≠ absent ∧ rec.clearing.toNat = t) (hs : (s.sectn x).state = some .offeredIn) :
    (s.sampleAccepts x → (s.clearingOf t).sectn x = (s.sectn x).entered .clearIn) ∧
    (¬s.sampleAccepts x → (s.clearingOf t).sectn x = s.sectn x) := by
  have own := clearingUpTo_sectn (s := s) t (x := x) (by rw [hs]; nofun)
  have taken : (s.clearingOf t).sectn x = (s.sampleRetest x).sectn x := by
    rw [clearingOf_eq, clearingAtSections_sectn, clearingAtSection_congr (clearingUpTo_sameField t s) own,
      clearingAtSection_eq hr hc hs]
  rw [taken]
  exact sampleRetest_sectn x s

end State

namespace State

/-- R63: what a sample hands on of the change of a circuit's state, but for the conditions. -/
def trackHanded (t : Nat) (before after : Occupancy) (s : State) : State :=
  if before = .clear ∧ after = .occupied then (s.trackReport t 1 [] before).occupationOf t
  else if before = .occupied ∧ after = .clear then (s.trackReport t 2 [] before).clearingOf t
  else s

theorem trackSample_eq {t : Nat} {rec : TrackRec} {s : State} (hr : s.trackRec t = some rec) (r : Sample) :
    let x := s.track t
    let y := x.sample rec r
    s.trackSample t r = (((s.updTrack t fun _ => y).trackHanded t x.state y.state).trackCondition .trackChannel t
      x.channelFault y.channelFault).trackCondition .trackDegraded t x.degraded y.degraded := by
  intro x y
  unfold trackSample; rw [hr]; rfl

theorem trackHanded_sameField (t : Nat) (b a : Occupancy) (s : State) : SameField s (s.trackHanded t b a) := by
  have report : ∀ row, SameField s (s.trackReport t row [] b) := fun row => OnlyLink.sameField (State.report_only _ _ _ _ s)
  unfold trackHanded; split
  · exact SameField.trans (report 1) (occupationOf_sameField t _)
  · split
    · exact SameField.trans (report 2) (clearingOf_sameField t _)
    · exact .refl s

theorem trackHanded_keeps {P : Supervisor → Prop} (h : Listed P) (t : Nat) (b a : Occupancy) {s : State} (hs : P s.faults) :
    P (s.trackHanded t b a).faults := by
  have report : ∀ row, P (s.trackReport t row [] b).faults := fun row => by
    unfold trackReport; rw [State.report_faults]; exact hs
  unfold trackHanded; split
  · exact h.ordering.occupationOf t (report 1)
  · split
    · exact h.ordering.clearingOf t (report 2)
    · exact hs

end State

/-- Settles O37. -/
theorem circuitTests : Obligations.CircuitTests := by
  refine ⟨TrackState.sample_spec, fun s n rec r hr h1 h24 => ?_⟩
  intro x y taken t begins
  have sample : t = ((taken.trackHanded n x.state y.state).trackCondition .trackChannel n x.channelFault
      y.channelFault).trackCondition .trackDegraded n x.degraded y.degraded := State.trackSample_eq hr r
  have taken_own : taken.track n = y := State.track_updTrack_same h1 h24 _ s
  have handed_own : (taken.trackHanded n x.state y.state).track n = y :=
    (State.track_of_tracks (State.trackHanded_sameField n x.state y.state taken).1 n).trans taken_own
  have handed_masked : (taken.trackHanded n x.state y.state).faults.masked = s.faults.masked :=
    State.trackHanded_keeps (listed_masked s.faults.masked) n _ _ rfl
  have handed_agree : s.listLawful → ∀ c, (taken.trackHanded n x.state y.state).faults.agree c n := fun hl c =>
    State.trackHanded_keeps (listed_agree c n) n _ _ (State.listLawful_agree hl c n)
  generalize hu : taken.trackHanded n x.state y.state = u at *
  have names : ∀ c : FaultClass, c.order = some .fail → c.names n := fun c hc => FaultClass.names_track h1 (by rw [hc]; nofun)
  generalize hv : u.trackCondition .trackChannel n x.channelFault y.channelFault = v at *
  have v_masked : v.faults.masked = s.faults.masked := by
    rw [← hv]
    exact (listed_masked s.faults.masked).ordering.raising.trackCondition _ _ _ _ (names _ rfl) handed_masked
  have v_own := State.trackCondition_track (c := .trackChannel) rfl h1 h24 x.channelFault y.channelFault n u
  rw [hv, handed_own] at v_own
  have t_own := State.trackCondition_track (c := .trackDegraded) rfl h1 h24 x.degraded y.degraded n v
  rw [← sample] at t_own
  refine ⟨fun h2 h3 h4 => ?_, fun c hb => ?_, fun hl => ?_, fun hn => ?_, fun h2 h3 z zrec hz hzn hzs => ?_⟩
  · rw [sample, ← hv, h3, h4, State.trackCondition_same, State.trackCondition_same, ← hu]
    unfold State.trackHanded
    rw [if_neg (fun h => by rw [h2, h.2] at h; exact nomatch h.1), if_neg (fun h => by rw [h2, h.2] at h; exact nomatch h.1)]
  · suffices h : t.faultShown c n ∧ (s.faults.masked.getLsbD c.number = false →
        t.faults.failedSet.getLsbD (n - 1) = true ∧ t.track n = y.failOrdered) from
      ⟨h.1, fun hm => ⟨(h.2 hm).1, by rw [(h.2 hm).2]; exact y.failOrdered_spec⟩⟩
    have v_either : v.track n = y ∨ v.track n = y.failOrdered := by
      rw [v_own]; split
      · exact .inr rfl
      · exact .inl rfl
    have twice : (v.track n).failOrdered = y.failOrdered := by
      rcases v_either with h | h <;> rw [h]
      exact y.failOrdered_twice
    rcases hb with ⟨rfl, hb1, hb2⟩ | ⟨rfl, hb1, hb2⟩
    · have raised : v = u.raise .trackChannel n := by rw [← hv, hb1, hb2]; rfl
      refine ⟨?_, fun hm => ?_⟩
      · rw [sample]
        exact (State.trackCondition_keeps (c := .trackDegraded) (d := .trackChannel) (by decide) (by decide) n _ _).1 (by rw [raised]; exact State.raise_shown _ _ _)
      · have unmasked : u.faults.unmaskedFor .trackChannel n = true :=
          Supervisor.unmaskedFor_of_unmasked (by rw [handed_masked]; exact hm)
        have v_failed : v.track n = y.failOrdered := by rw [v_own, if_pos ⟨rfl, hb1, hb2, unmasked⟩]
        refine ⟨?_, ?_⟩
        · rw [sample]
          exact (listed_failedSet (n - 1)).ordering.raising.trackCondition _ _ _ _ (names _ rfl)
            (by rw [raised]; exact State.failRaise_failedSet rfl false h1 h24 unmasked)
        · rw [t_own]; split
          · exact twice
          · exact v_failed
    · have raised : t = v.raise .trackDegraded n := by rw [sample, hb1, hb2]; rfl
      refine ⟨by rw [raised]; exact State.raise_shown _ _ _, fun hm => ?_⟩
      have unmasked : v.faults.unmaskedFor .trackDegraded n = true :=
        Supervisor.unmaskedFor_of_unmasked (by rw [v_masked]; exact hm)
      exact ⟨by rw [raised]; exact State.failRaise_failedSet rfl false h1 h24 unmasked,
        by rw [t_own, if_pos ⟨rfl, hb1, hb2, unmasked⟩]; exact twice⟩
  · refine ⟨fun h2 h3 => ?_, fun h2 h3 => ?_⟩
    · have ended : v = u.endFault .trackChannel n := by rw [← hv, h2, h3]; rfl
      rw [sample]
      refine (State.trackCondition_keeps (c := .trackDegraded) (d := .trackChannel) (by decide) (by decide) n _ _).2 ?_ ?_
      · rw [← hv]
        exact (listed_agree _ _).ordering.raising.trackCondition _ _ _ _ (names _ rfl) (handed_agree hl _)
      · rw [ended]; exact State.endFault_over _ _ _
    · have ended : t = v.endFault .trackDegraded n := by rw [sample, h2, h3]; rfl
      rw [ended]; exact State.endFault_over _ _ _
  · rw [t_own, if_neg fun h => hn _ (.inr ⟨rfl, h.2.1, h.2.2.1⟩), v_own,
      if_neg fun h => hn _ (.inl ⟨rfl, h.2.1, h.2.2.1⟩)]
  · intro retests
    have cleared : u = (taken.trackReport n 2 [] x.state).clearingOf n := by
      rw [← hu]; unfold State.trackHanded
      rw [if_neg (fun h => by rw [h2] at h; exact nomatch h.1), if_pos ⟨h2, h3⟩]
    have report : OnlyLink taken (taken.trackReport n 2 [] x.state) := State.report_only _ _ _ _ _
    have present : zrec.clearing ≠ absent ∧ zrec.clearing.toNat = n :=
      ⟨fun h => by rw [h] at hzn; have : (absent : Byte).toNat = 255 := rfl; omega, hzn⟩
    have own : (taken.trackReport n 2 [] x.state).sectn z = s.sectn z := report.sectn_eq z
    have found : (taken.trackReport n 2 [] x.state).sectionRec z = some zrec := (report.records.sectionRec_eq z).trans hz
    have accepts : (taken.trackReport n 2 [] x.state).sampleAccepts z ↔ retests := by
      unfold State.sampleAccepts State.retestable
      rw [State.acceptsTrain_eq _ found, State.acceptsTrain_congr zrec (State.OnlyLink.sameField report) (report.sectn_eq z), own,
        State.isStoring_eq_false]
      have part : (taken.trackReport n 2 [] x.state).store.part = s.store.part := by obtain ⟨_, h⟩ := report; rw [h]; rfl
      rw [part]
      exact ⟨fun ⟨_, ⟨g1, g2, g3⟩, g4, g5⟩ => ⟨g1, g4, g2, g3, g5⟩, fun ⟨g1, g4, g2, g3, g5⟩ => ⟨hzs, ⟨g1, g2, g3⟩, g4, g5⟩⟩
    have sectn : t.sectn z = u.sectn z := by
      rw [sample, (State.trackCondition_onlyFails rfl n _ _ v).sectn_eq, ← hv,
        (State.trackCondition_onlyFails rfl n _ _ u).sectn_eq]
    obtain ⟨enters, stands⟩ := State.clearingOf_sectn found present (own ▸ hzs)
    rw [← cleared, own] at enters stands
    refine ⟨fun h => ?_, fun h => ?_⟩
    · rw [sectn, enters (accepts.2 h)]; exact ⟨rfl, rfl⟩
    · rw [sectn, stands (mt accepts.1 h)]

/-! ### O34: the scan pass -/

/-- R35: no step but a sample of the lock supply writes its run and its condition. -/
theorem supplyRunStands (a : Nat) (b : Bool) : Ordering (fun _ => True)
    (fun s => s.frame.lowRun = a ∧ s.frame.lockSupply = b) (fun s => s.frame.lowRun = a ∧ s.frame.lockSupply = b) := by
  have same : ∀ s t : State, t.frame = s.frame → s.frame.lowRun = a ∧ s.frame.lockSupply = b →
      t.frame.lowRun = a ∧ t.frame.lockSupply = b := fun s t h hs => by rw [h]; exact hs
  have faults : ∀ s t : State, OnlyFaults s t → s.frame.lowRun = a ∧ s.frame.lockSupply = b →
      t.frame.lowRun = a ∧ t.frame.lockSupply = b := fun s t h => same s t h.frame_eq
  have rough : Rough (fun _ => True) fun s => s.frame.lowRun = a ∧ s.frame.lockSupply = b :=
    { report := fun c o e d s => faults s _ (State.report_only c o e d s).faults
      endFault := fun c o s => faults s _ (State.endFault_only c o s)
      lever := fun _ _ _ _ _ => id
      track := fun _ _ _ _ => id
      seq := fun _ _ _ _ => id
      lock := fun _ _ _ _ => id
      sect := fun _ _ _ _ _ => id
      notice := fun _ _ _ => id }
  exact {
    rough := rough
    firm := rough.firm
    weaken := fun _ => id
    evaluate := fun c s hs => State.evaluate_keeps (P := fun s => s.frame.lowRun = a ∧ s.frame.lockSupply = b) rough.report
      (rough.endFault .lockDrive) (fun _ _ _ => id) c hs
    unfitted := fun _ _ _ _ _ _ _ _ => id
    enterRaise := fun c o m s => faults s _ (State.enterRaise_only c o m s)
    enterRaiseInside := fun c o m s => faults s _ (State.enterRaise_only c o m s)
    register := fun r o s => faults s _ (State.register_only r o s)
    registerInside := fun r o s => faults s _ (State.register_only r o s)
    supply := fun _ _ => id
    mark := fun _ _ => id
    markInside := fun _ _ => id
    failUnread := fun _ _ _ => id
    fail := fun _ _ => id
    freeze := fun _ _ => id }

/-- R127, R128: the raw value, the candidate and the measured polarity are the same. -/
def SectionState.SameLine (r u : SectionState) : Prop :=
  u.lastRaw = r.lastRaw ∧ u.measured = r.measured ∧ u.candidate = r.candidate ∧ u.candRun = r.candRun

theorem SectionState.SameLine.refl (r : SectionState) : r.SameLine r := ⟨rfl, rfl, rfl, rfl⟩

theorem SectionState.SameLine.trans {r u v : SectionState} (h : r.SameLine u) (g : u.SameLine v) : r.SameLine v := by
  obtain ⟨h1, h2, h3, h4⟩ := h
  obtain ⟨g1, g2, g3, g4⟩ := g
  exact ⟨g1.trans h1, g2.trans h2, g3.trans h3, g4.trans h4⟩

/-- Each section's line is as it was. -/
def SameLines (s t : State) : Prop := ∀ x, (s.sectn x).SameLine (t.sectn x)

theorem SameLines.trans {s t u : State} (h : SameLines s t) (g : SameLines t u) : SameLines s u := fun x => (h x).trans (g x)

theorem SameLines.refl (s : State) : SameLines s s := fun _ => .refl _

theorem sameLines_of_sectn {s t : State} (h : ∀ x, t.sectn x = s.sectn x) : SameLines s t := fun x => by
  rw [h]; exact .refl _

namespace State

theorem settingAtSection_sameLines (q : Nat) (x : SectionId) (s : State) : SameLines s (s.settingAtSection q x) := by
  intro y
  by_cases hy : y = x
  · subst y
    by_cases h : ∃ rec, s.sectionRec x = some rec ∧ s.blockAsks q x rec
    · obtain ⟨rec, hr, asks⟩ := h
      by_cases hl : (s.seqn q).latch = true
      · rw [settingAtSection_asks hr hl asks, sectn_sendNotice, State.sectn_updSect_same]; exact ⟨rfl, rfl, rfl, rfl⟩
      · obtain ⟨hq, hs, hh, hre, -⟩ := asks
        unfold settingAtSection; rw [hr]; dsimp only
        rw [if_pos ⟨hq, hs⟩, retest_onLineIn none hre hs hh]
        refine (congrArg (fun u : State => (s.sectn x).SameLine (u.sectn x))
          (blockBackTest_of_not_asks hr fun hb => hl (hq ▸ hb.2.1))).mpr (.refl _)
    · rw [settingAtSection_stands fun rec hr ha => h ⟨rec, hr, ha⟩]; exact .refl _
  · rw [(settingAtSection_only q x s).2 y hy]; exact .refl _

theorem clearingAtSection_sameLines (t : Nat) (x : SectionId) (s : State) : SameLines s (s.clearingAtSection t x) := by
  intro y
  by_cases hy : y = x
  · subst y
    by_cases h : ∃ rec, s.sectionRec x = some rec ∧
        (rec.clearing ≠ absent ∧ rec.clearing.toNat = t) ∧ (s.sectn x).state = some .offeredIn
    · obtain ⟨rec, hr, hc, hs⟩ := h
      rw [clearingAtSection_eq hr hc hs]
      by_cases ha : s.sampleAccepts x
      · rw [(sampleRetest_sectn x s).1 ha]; exact ⟨rfl, rfl, rfl, rfl⟩
      · rw [(sampleRetest_sectn x s).2 ha]; exact .refl _
    · rw [clearingAtSection_stands h]; exact .refl _
  · rw [(clearingAtSection_same t x s).2 y hy]; exact .refl _

theorem completeSeq_sameLines (q : Nat) (s : State) : SameLines s (s.completeSeq q) := by
  have report : ∀ f d, SameLines s ((s.updSeq q f).report .seq q 3 d) := fun f d => sameLines_of_sectn fun x =>
    (State.report_only _ _ _ _ (s.updSeq q f)).eval.sectn_eq x
  unfold completeSeq; split
  · exact report _ _
  · have reported := report (fun x => { x with step := 0, stepTime := none, latch := true }) [0]
    generalize State.report .seq q 3 [0] _ = v at reported ⊢
    have evaluated := reported.trans (sameLines_of_sectn (State.evaluate_only .verdict v).sectn_eq)
    have locked := evaluated.trans (sameLines_of_sectn (settingAtLocks_spec q (v.evaluate .verdict)).1.sectn_eq)
    exact locked.trans
      (forEach_keeps (R := SameLines) SameLines.refl SameLines.trans (settingAtSection_sameLines q) allSections _)

theorem occupationAtSeq_sameLines (t : Nat) {q : Nat} (hq : sequenceOk q = true) (s : State) :
    SameLines s (s.occupationAtSeq t q) := by
  have only : ∀ {u : State}, OnlySeq q s u → SameLines s u := fun h => by
    obtain ⟨-, _, h⟩ := h
    exact sameLines_of_sectn fun x => by rw [h]; rfl
  have stays := SameLines.refl s
  cases hr : s.seqRec q with
  | none => unfold occupationAtSeq; rw [hr]; exact stays
  | some rec =>
    cases hl : rec.lists t with
    | false => rw [occupation_unlisted hr hl]; exact stays
    | true =>
      by_cases h0 : (s.seqn q).step = 0
      · rw [occupation_idle hr hl h0]
        by_cases hs : s.starts t rec
        · exact only (startSeq_of_starts hq hs).1
        · exact only (OnlyLink.onlySeq (startSeq_of_not_starts hs) q)
      · by_cases ha : s.advances q t rec
        · rw [occupation_advances hr hl ha]; dsimp only
          have step := only (onlySeq_report q q 1 [byte ((s.seqn q).step + 1), byte t]
            (SequenceState.atStep ((s.seqn q).step + 1) (some s.now)) s)
          split
          · exact step.trans (completeSeq_sameLines q _)
          · exact step
        · obtain ⟨w, hw⟩ := occupation_breaks hr hl (by omega) ha
          rw [hw]; exact only (breakAndStart hq w).2

theorem occupationOf_sameLines (t : Nat) (s : State) : SameLines s (s.occupationOf t) := by
  have handed : SameLines (s.evaluate .verdict) ((s.evaluate .verdict).occupationHanded t) :=
    forEach_inv_mem (P := SameLines (s.evaluate .verdict)) allSequences
      (fun q hq u hu => hu.trans (occupationAtSeq_sameLines t (mem_allSequences.1 hq) u)) _ (.refl _)
  exact ((sameLines_of_sectn (State.evaluate_only .verdict s).sectn_eq).trans handed).trans
    (sameLines_of_sectn (State.trackAtLocks_only t 0 _).sectn_eq)

theorem clearingOf_sameLines (t : Nat) (s : State) : SameLines s (s.clearingOf t) := by
  have handed : SameLines (s.evaluate .verdict) ((s.evaluate .verdict).clearingHanded t) := by
    refine forEach_keeps (R := SameLines) SameLines.refl SameLines.trans (fun q u => ?_) allSequences _
    unfold clearingAtSeq; split
    · exact .refl u
    · dsimp only; split
      · exact completeSeq_sameLines q u
      · exact .refl u
  have locked := ((sameLines_of_sectn (State.evaluate_only .verdict s).sectn_eq).trans handed).trans
    (sameLines_of_sectn (State.trackAtLocks_only t 1 _).sectn_eq)
  exact locked.trans
    (forEach_keeps (R := SameLines) SameLines.refl SameLines.trans (clearingAtSection_sameLines t) allSections _)

theorem trackHanded_sameLines (t : Nat) (b a : Occupancy) (s : State) : SameLines s (s.trackHanded t b a) := by
  have report : ∀ row, SameLines s (s.trackReport t row [] b) := fun row =>
    sameLines_of_sectn (State.report_only _ _ _ _ s).sectn_eq
  unfold trackHanded; split
  · exact (report 1).trans (occupationOf_sameLines t _)
  · split
    · exact (report 2).trans (clearingOf_sameLines t _)
    · exact .refl s

theorem trackSample_sameLines (t : Nat) (r : Sample) (s : State) : SameLines s (s.trackSample t r) := by
  cases hr : s.trackRec t with
  | none => unfold trackSample; rw [hr]; exact .refl s
  | some rec =>
    rw [trackSample_eq hr r]
    generalize (s.track t).sample rec r = y
    have handed : SameLines s ((s.updTrack t fun _ => y).trackHanded t (s.track t).state y.state) :=
      trackHanded_sameLines t _ _ (s.updTrack t fun _ => y)
    generalize (s.updTrack t fun _ => y).trackHanded t (s.track t).state y.state = u at handed ⊢
    exact handed.trans ((sameLines_of_sectn (trackCondition_onlyFails rfl t _ _ u).sectn_eq).trans
      (sameLines_of_sectn (trackCondition_onlyFails rfl t _ _ _).sectn_eq))

/-- R50, R61: what a sample makes of its circuit's record, under the order that it may bring; and of no other. -/
theorem trackSample_track {t : Nat} (h1 : 1 ≤ t) (h24 : t ≤ 24) (r : Sample) {s : State} {rec : TrackRec}
    (hr : s.trackRec t = some rec) :
    ((s.trackSample t r).track t = (s.track t).sample rec r ∨
      (s.trackSample t r).track t = ((s.track t).sample rec r).failOrdered) ∧
    ∀ n, n ≠ t → (s.trackSample t r).track n = s.track n := by
  rw [trackSample_eq hr r]
  generalize hy : (s.track t).sample rec r = y
  have handed : ∀ n, ((s.updTrack t fun _ => y).trackHanded t (s.track t).state y.state).track n =
      (s.updTrack t fun _ => y).track n := fun n => State.track_of_tracks (trackHanded_sameField t _ _ _).1 n
  generalize (s.updTrack t fun _ => y).trackHanded t (s.track t).state y.state = u at handed ⊢
  have own : u.track t = y := (handed t).trans (track_updTrack_same h1 h24 _ s)
  have first := trackCondition_track (c := .trackChannel) rfl h1 h24 (s.track t).channelFault y.channelFault (s := u)
  generalize u.trackCondition .trackChannel t (s.track t).channelFault y.channelFault = v at first ⊢
  have second := trackCondition_track (c := .trackDegraded) rfl h1 h24 (s.track t).degraded y.degraded (s := v)
  have either : v.track t = y ∨ v.track t = y.failOrdered := by
    rw [first, own]; split
    · exact .inr rfl
    · exact .inl rfl
  refine ⟨?_, fun n hn => ?_⟩
  · rw [second]; split
    · rcases either with h | h <;> rw [h]
      · exact .inr rfl
      · exact .inr y.failOrdered_twice
    · exact either
  · rw [second, if_neg fun h => hn h.1, first, if_neg fun h => hn h.1, handed, track_updTrack_of_ne hn]

end State

namespace State

theorem takePolarity_sameLines (x : SectionId) (c : Bool) (s : State) : SameLines s (s.takePolarity x c) := by
  by_cases hs : (s.sectn x).frozen = true ∨ (s.sectn x).state = none
  · rw [takePolarity_stands hs]; exact sameLines_of_sectn (State.sectReports_only x _ s).sectn_eq
  · obtain ⟨hz, hst⟩ := not_or.1 hs
    obtain ⟨b, hb⟩ := Option.ne_none_iff_exists'.1 hst
    intro y
    rw [takePolarity_sectn hb (Bool.eq_false_iff.2 hz)]; split
    · subst y
      unfold SectionState.followed SectionState.clearedEarly; dsimp only; split <;> exact ⟨rfl, rfl, rfl, rfl⟩
    · exact .refl _

/-- R127, R128: what a sample of its channel makes of a section's line, and of no other. -/
theorem sectionSample_line {x : SectionId} {rec : SectionRec} {s : State} (hr : s.sectionRec x = some rec) (r : Sample) :
    ({ (s.sectn x).confirm (sampleCandidate rec (s.sectn x).measured r) with lastRaw := r } : SectionState).SameLine
      ((s.sectionSample x r).sectn x) ∧ ∀ y, y ≠ x → (s.sectionSample x r).sectn y = s.sectn y := by
  obtain ⟨-, -, -, -, enters, stands, -, -, others, -⟩ := measuredPolarity.2 s x rec r hr
  refine ⟨?_, others⟩
  have judged : ({ (s.sectn x).confirm (sampleCandidate rec (s.sectn x).measured r) with lastRaw := r } : SectionState).SameLine
      (State.sectn (if ((s.updSect x fun y =>
          { y.confirm (sampleCandidate rec (s.sectn x).measured r) with lastRaw := r }).sectn x).measured = (s.sectn x).measured
        then s.updSect x fun y => { y.confirm (sampleCandidate rec (s.sectn x).measured r) with lastRaw := r }
        else (s.updSect x fun y =>
          { y.confirm (sampleCandidate rec (s.sectn x).measured r) with lastRaw := r }).takePolarity x true) x) := by
    generalize hu : s.updSect x _ = u
    have own : u.sectn x = { (s.sectn x).confirm (sampleCandidate rec (s.sectn x).measured r) with lastRaw := r } := by
      rw [← hu, State.sectn_updSect_same]
    rw [← own]; split
    · exact .refl _
    · exact takePolarity_sameLines x true u x
  refine judged.trans ?_
  rcases (Classical.em _).imp enters stands with h | h <;> rw [h] <;> exact ⟨rfl, rfl, rfl, rfl⟩

theorem freshWindow_onlyEval (n : Nat) (s : State) : OnlyEval s (s.freshWindow n) := by
  unfold freshWindow; split
  · exact ⟨s.link, s.faults, _, rfl⟩
  · exact OnlyEval.refl s

theorem freshWindow_supply (n : Nat) (s : State) : (s.freshWindow n).frame.lowRun = s.frame.lowRun ∧
    (s.freshWindow n).frame.lockSupply = s.frame.lockSupply := by
  unfold freshWindow; split <;> exact ⟨rfl, rfl⟩

theorem supplySample_onlyEval (r : Sample) (s : State) : OnlyEval s (s.supplySample r) := by
  have frame : ∀ fr : FrameUnit, OnlyEval s { s with frame := fr } := fun fr => ⟨s.link, s.faults, fr, rfl⟩
  unfold supplySample; split
  · exact OnlyEval.refl s
  · split
    · dsimp only; split
      · exact (frame _).trans (OnlyFaults.eval (raise_onlyFaults (c := .lockSupply) rfl false 0 _))
      · exact frame _
    · dsimp only; split
      · exact ((frame _).trans (State.endFault_only _ _ _).eval).trans
          (forEach_keeps (R := OnlyEval) OnlyEval.refl OnlyEval.trans freshWindow_onlyEval allLevers _)
      · exact frame _

/-- R35: the run of low samples and the condition of the lock supply. -/
theorem supplySample_supply {rec : FrameRec} {s : State} (hr : s.frameRec = some rec) (r : Sample) :
    let low := decide (r.toNat < rec.threshold.toNat)
    (s.supplySample r).frame.lowRun = (if low then min 3 (s.frame.lowRun + 1) else 0) ∧
    (s.supplySample r).frame.lockSupply = (low && (s.frame.lockSupply || decide (s.frame.lowRun = 2))) := by
  intro low
  unfold supplySample; rw [hr]; dsimp only
  by_cases h : r.toNat < rec.threshold.toNat
  · rw [if_pos h, show low = true from decide_eq_true h]
    split
    · have raised : ∀ u : State, (u.raise .lockSupply 0).frame = u.frame := fun u =>
        OnlyFaults.frame_eq (raise_onlyFaults (c := .lockSupply) rfl false 0 u)
      rw [raised]; exact ⟨rfl, rfl⟩
    · exact ⟨rfl, rfl⟩
  · rw [if_neg h, show low = false from decide_eq_false h]
    split
    · have folded : ∀ u : State, (forEach allLevers freshWindow u).frame.lowRun = u.frame.lowRun ∧
          (forEach allLevers freshWindow u).frame.lockSupply = u.frame.lockSupply := fun u =>
        forEach_inv (P := fun v => v.frame.lowRun = u.frame.lowRun ∧ v.frame.lockSupply = u.frame.lockSupply)
          (fun n v hv => ⟨(freshWindow_supply n v).1.trans hv.1, (freshWindow_supply n v).2.trans hv.2⟩) allLevers u ⟨rfl, rfl⟩
      rw [(folded _).1, (folded _).2, (State.endFault_only _ _ _).frame_eq]; exact ⟨rfl, rfl⟩
    · exact ⟨rfl, rfl⟩

theorem secOfCode_iff (n : Nat) (x : SectionId) : secOfCode n = some x ↔ n = (secCode x).toNat := by
  refine ⟨fun h => ?_, fun h => ?_⟩
  · unfold secOfCode at h; split at h <;> cases h <;> rfl
  · subst h; cases x <;> rfl

/-- R44: which channels are enabled. -/
theorem channelEnabled_iff (s : State) (c : Nat) : s.channelEnabled c = true ↔
    (s.store.active = none ∧ c ≤ 28) ∨
    (s.store.active ≠ none ∧ ((c < 24 ∧ ∃ rec, s.trackRec (c + 1) = some rec) ∨
      (∃ x rec, c = 24 + (secCode x).toNat ∧ s.sectionRec x = some rec) ∨ c = 28)) := by
  unfold channelEnabled hasTable
  cases ha : s.store.active with
  | none => simp
  | some tb =>
    rw [if_pos (by rfl)]
    by_cases hc : c < 24
    · rw [if_pos hc, trackFitted_iff]
      refine ⟨fun h => .inr ⟨nofun, .inl ⟨hc, h⟩⟩, ?_⟩
      rintro (⟨h, -⟩ | ⟨-, ⟨-, h⟩ | ⟨x, -, h, -⟩ | h⟩)
      · exact nomatch h
      · exact h
      · omega
      · omega
    · rw [if_neg hc]
      cases hx : secOfCode (c - 24) with
      | some x =>
        have code : c = 24 + (secCode x).toNat := by
          have := (secOfCode_iff _ x).1 hx
          omega
        dsimp only; rw [sectionFitted_iff]
        refine ⟨fun ⟨rec, h⟩ => .inr ⟨nofun, .inr (.inl ⟨x, rec, code, h⟩)⟩, ?_⟩
        rintro (⟨h, -⟩ | ⟨-, ⟨h, -⟩ | ⟨y, rec, h, hr⟩ | h⟩)
        · exact nomatch h
        · omega
        · obtain rfl : y = x := by
            have hy := (secOfCode_iff (c - 24) y).2 (by omega)
            exact Option.some.inj (hy.symm.trans hx)
          exact ⟨rec, hr⟩
        · exact absurd (code.symm.trans h) (by cases x <;> decide)
      | none =>
        dsimp only; rw [beq_iff_eq]
        refine ⟨fun h => .inr ⟨nofun, .inr (.inr h)⟩, ?_⟩
        rintro (⟨h, -⟩ | ⟨-, ⟨h, -⟩ | ⟨y, rec, h, -⟩ | h⟩)
        · exact nomatch h
        · omega
        · rw [(secOfCode_iff _ y).2 (by omega)] at hx; exact nomatch hx
        · exact h

end State

namespace State

variable {raw : Bank Sample 32} {s : State}

/-- R44: a pass up to a channel. -/
def scannedTo (raw : Bank Sample 32) (s : State) (c : Nat) : State := forEach (List.range' 0 c) (scanChannel raw) s

theorem scannedTo_succ (c : Nat) : s.scannedTo raw (c + 1) = (s.scannedTo raw c).scanChannel raw c := by
  unfold scannedTo
  rw [List.range'_concat]
  generalize List.range' 0 c = xs
  have fold : ∀ (xs : List Nat) (u : State), forEach (xs ++ [0 + 1 * c]) (scanChannel raw) u =
      scanChannel raw c (forEach xs (scanChannel raw) u) := fun xs => by
    induction xs with
    | nil => intro u; rw [Nat.zero_add, Nat.one_mul]; rfl
    | cons x xs ih => intro u; exact ih _
  exact fold xs s

/-- R44: a sample of channel `c` taken by the scanner. -/
theorem scanChannel_enabled {c : Nat} (h : s.channelEnabled c = true) :
    s.scanChannel raw c = (s.convert c (Bank.at raw (c + 1))).handSample c (Bank.at raw (c + 1)) := if_pos h

theorem scanChannel_disabled {c : Nat} (h : s.channelEnabled c = false) : s.scanChannel raw c = s := if_neg (by simp [h])

theorem handSample_track {c : Nat} (h : c < 24) (v : Sample) : s.handSample c v = s.trackSample (c + 1) v := if_pos h

theorem handSample_section {c : Nat} {x : SectionId} (h : c = 24 + (secCode x).toNat) (v : Sample) :
    s.handSample c v = s.sectionSample x v := by
  unfold handSample
  rw [if_neg (by omega), (secOfCode_iff (c - 24) x).2 (by omega)]

theorem handSample_supply (v : Sample) : s.handSample 28 v = s.supplySample v := rfl

/-- R47: the owner of a channel: a circuit, a section, the lock supply, or none. -/
theorem handSample_cases (c : Nat) (v : Sample) (s : State) :
    (c < 24 ∧ s.handSample c v = s.trackSample (c + 1) v) ∨
    (∃ x, c = 24 + (secCode x).toNat ∧ s.handSample c v = s.sectionSample x v) ∨
    (c = 28 ∧ s.handSample c v = s.supplySample v) ∨ (28 < c ∧ s.handSample c v = s) := by
  by_cases hc : c < 24
  · exact .inl ⟨hc, handSample_track hc v⟩
  · cases hx : secOfCode (c - 24) with
    | some x =>
      have := (secOfCode_iff (c - 24) x).1 hx
      exact .inr (.inl ⟨x, by omega, handSample_section (by omega) v⟩)
    | none =>
      have hand : s.handSample c v = if c = 28 then s.supplySample v else s := by
        unfold handSample; rw [if_neg hc, hx]
      rcases lt_trichotomy c 28 with h | h | h
      · have four : ∀ k, k < 4 → secOfCode k ≠ none := by decide
        exact absurd hx (four (c - 24) (by omega))
      · exact .inr (.inr (.inl ⟨h, hand.trans (if_pos h)⟩))
      · exact .inr (.inr (.inr ⟨h, hand.trans (if_neg (by omega))⟩))

theorem handSample_field (c : Nat) (v : Sample) (s : State) : OnlyField s (s.handSample c v) := by
  rcases handSample_cases c v s with ⟨-, h⟩ | ⟨x, -, h⟩ | ⟨-, h⟩ | ⟨-, h⟩ <;> rw [h]
  · exact trackSample_only _ _ s
  · exact sectionSample_only _ _ s
  · exact (supplySample_only _ s).field
  · exact OnlyField.refl s

/-- Nothing but the field and the scanner. -/
def OnlyScan (s t : State) : Prop := OnlyField { s with scanner := t.scanner } t

theorem OnlyScan.trans {t u : State} (h : OnlyScan s t) (g : OnlyScan t u) : OnlyScan s u := by
  obtain ⟨_, _, _, _, _, _, _, _, h⟩ := h
  obtain ⟨l, f, fr, tr, sq, se, lo, no, g⟩ := g
  exact ⟨l, f, fr, tr, sq, se, lo, no, by rw [g, h]⟩

theorem scanChannel_scan (raw : Bank Sample 32) (c : Nat) (s : State) : OnlyScan s (s.scanChannel raw c) := by
  cases h : s.channelEnabled c with
  | false => rw [scanChannel_disabled h]; exact OnlyField.refl s
  | true =>
    rw [scanChannel_enabled h]
    obtain ⟨l, f, fr, tr, sq, se, lo, no, hf⟩ := handSample_field c (Bank.at raw (c + 1)) (s.convert c (Bank.at raw (c + 1)))
    exact ⟨l, f, fr, tr, sq, se, lo, no, by rw [hf]; rfl⟩

theorem scannedTo_scan (raw : Bank Sample 32) (s : State) (c : Nat) : OnlyScan s (s.scannedTo raw c) := by
  induction c with
  | zero => exact OnlyField.refl s
  | succ c ih => rw [scannedTo_succ]; exact OnlyScan.trans ih (scanChannel_scan raw c _)

theorem OnlyScan.store_eq {t : State} (h : OnlyScan s t) : t.store = s.store := by
  obtain ⟨_, _, _, _, _, _, _, _, h⟩ := h
  rw [h]

theorem OnlyScan.table_eq {t : State} (h : OnlyScan s t) : t.table = s.table := by unfold table; rw [OnlyScan.store_eq h]

theorem OnlyScan.channelEnabled_eq {t : State} (h : OnlyScan s t) (c : Nat) : t.channelEnabled c = s.channelEnabled c := by
  unfold channelEnabled hasTable trackFitted trackRec sectionFitted sectionRec
  rw [OnlyScan.store_eq h, OnlyScan.table_eq h]

/-- A pass, channel by channel. -/
theorem scannedTo_induct {P : Nat → State → Prop} (start : P 0 s)
    (disabled : ∀ c u, s.channelEnabled c = false → P c u → P (c + 1) u)
    (enabled : ∀ c u, s.channelEnabled c = true → OnlyScan s u → P c u →
      P (c + 1) ((u.convert c (Bank.at raw (c + 1))).handSample c (Bank.at raw (c + 1)))) (c : Nat) :
    P c (s.scannedTo raw c) := by
  induction c with
  | zero => exact start
  | succ c ih =>
    have only := scannedTo_scan raw s c
    have same := OnlyScan.channelEnabled_eq only c
    rw [scannedTo_succ]
    cases h : s.channelEnabled c with
    | false => rw [scanChannel_disabled (same.trans h)]; exact disabled c _ h ih
    | true => rw [scanChannel_enabled (same.trans h)]; exact enabled c _ h only ih

theorem handSample_scanner (c : Nat) (v : Sample) (s : State) : (s.handSample c v).scanner = s.scanner := by
  obtain ⟨_, _, _, _, _, _, _, _, h⟩ := handSample_field c v s
  rw [h]

/-- R46: what a pass leaves in the scanner. -/
theorem scannedTo_scanner (c : Nat) (hc : c ≤ 32) : ∀ k, k < 32 →
    Bank.at (s.scannedTo raw c).scanner.raw (k + 1) =
      (if k < c ∧ s.channelEnabled k = true then Bank.at raw (k + 1) else Bank.at s.scanner.raw (k + 1)) ∧
    Bank.at (s.scannedTo raw c).scanner.fresh (k + 1) =
      ((decide (k < c) && s.channelEnabled k) || Bank.at s.scanner.fresh (k + 1)) := by
  revert hc
  refine scannedTo_induct (P := fun c u => c ≤ 32 → ∀ k, k < 32 →
    Bank.at u.scanner.raw (k + 1) = (if k < c ∧ s.channelEnabled k = true then Bank.at raw (k + 1) else Bank.at s.scanner.raw (k + 1)) ∧
    Bank.at u.scanner.fresh (k + 1) = ((decide (k < c) && s.channelEnabled k) || Bank.at s.scanner.fresh (k + 1)))
    (fun _ k _ => by simp) (fun c u he ih hc k hk => ?_) (fun c u he _ ih hc k hk => ?_) c
  · obtain ⟨h1, h2⟩ := ih (by omega) k hk
    rw [h1, h2]
    by_cases hkc : k = c
    · subst k; simp [he]
    · have : k < c + 1 ↔ k < c := by omega
      simp [this]
  · obtain ⟨h1, h2⟩ := ih (by omega) k hk
    rw [handSample_scanner]
    unfold convert; dsimp only
    rw [Bank.at_put, Bank.at_put, h1, h2]
    by_cases hkc : k = c
    · subst k; simp [he, hk]
    · have : k < c + 1 ↔ k < c := by omega
      simp [this, hkc]

end State

namespace State

variable {raw : Bank Sample 32} {s : State}

theorem sectionSample_onlySections (x : SectionId) (r : Sample) (s : State) : OnlySections s (s.sectionSample x r) := by
  cases hr : s.sectionRec x with
  | none => unfold sectionSample; rw [hr]; exact (OnlyLink.refl s).records.sections
  | some rec =>
    have sample : s.sectionSample x r = ((s.measureStage x (sampleCandidate rec (s.sectn x).measured r) r).sampleChecked x
        (outOfScale r) (sampleCandidate rec (s.sectn x).measured r)).sampleRetest x := by
      unfold sectionSample; rw [hr]; rfl
    obtain ⟨-, -, -, -, only⟩ := measureStage_spec x (sampleCandidate rec (s.sectn x).measured r) r s
    obtain ⟨_, -, -, -, checked, -⟩ := sampleChecked_spec x (outOfScale r) (sampleCandidate rec (s.sectn x).measured r)
      (s.measureStage x (sampleCandidate rec (s.sectn x).measured r) r)
    rw [sample]
    generalize State.sampleChecked x (outOfScale r) _ _ = u at checked ⊢
    refine (only.trans checked).trans ?_
    by_cases h : u.sampleAccepts x
    · rw [sampleRetest_of_accepts h]; exact enterState_onlySections _ _ _ _ u
    · rw [sampleRetest_of_not_accepts h]; exact (OnlyLink.refl u).records.sections

theorem OnlySections.tracks_eq {t : State} (h : OnlySections s t) : t.tracks = s.tracks := by
  obtain ⟨_, _, _, _, h⟩ := h; rw [h]

/-- R50: a circuit in a pass, before its channel and after it. -/
theorem scannedTo_track {n : Nat} (h1 : 1 ≤ n) (h24 : n ≤ 24) {rec : TrackRec} (hr : s.trackRec n = some rec) (c : Nat) :
    (c < n → (s.scannedTo raw c).track n = s.track n) ∧
    (n ≤ c → (s.scannedTo raw c).track n = (s.track n).sample rec (Bank.at raw n) ∨
      (s.scannedTo raw c).track n = ((s.track n).sample rec (Bank.at raw n)).failOrdered) := by
  have fitted : s.channelEnabled (n - 1) = true := by
    refine (s.channelEnabled_iff (n - 1)).2 (.inr ⟨fun ha => ?_, .inl ⟨by omega, rec, by rwa [Nat.sub_add_cancel h1]⟩⟩)
    unfold trackRec table at hr; rw [ha] at hr; exact nomatch hr
  refine scannedTo_induct (P := fun c u => (c < n → u.track n = s.track n) ∧
    (n ≤ c → u.track n = (s.track n).sample rec (Bank.at raw n) ∨
      u.track n = ((s.track n).sample rec (Bank.at raw n)).failOrdered))
    ⟨fun _ => rfl, fun h => by omega⟩ (fun c u he ih => ?_) (fun c u _ only ih => ?_) c
  · obtain ⟨before, after⟩ := ih
    refine ⟨fun h => before (by omega), fun h => after ?_⟩
    rcases Nat.lt_or_ge c n with hcn | hcn
    · obtain rfl : c = n - 1 := by omega
      rw [fitted] at he; exact nomatch he
    · exact hcn
  · obtain ⟨before, after⟩ := ih
    generalize hv : u.convert c (Bank.at raw (c + 1)) = v
    have track : v.track n = u.track n := by rw [← hv]; rfl
    have found : ∀ m, v.trackRec m = s.trackRec m := fun m => by
      rw [← hv]; exact (congrArg (trackOf m) (OnlyScan.table_eq only) : u.trackRec m = s.trackRec m)
    have other : (v.handSample c (Bank.at raw (c + 1))).track n = v.track n →
        (c + 1 < n → (v.handSample c (Bank.at raw (c + 1))).track n = s.track n) ∧
        (n ≤ c → (v.handSample c (Bank.at raw (c + 1))).track n = (s.track n).sample rec (Bank.at raw n) ∨
          (v.handSample c (Bank.at raw (c + 1))).track n = ((s.track n).sample rec (Bank.at raw n)).failOrdered) := fun h => by
      rw [h, track]; exact ⟨fun hc => before (by omega), after⟩
    rcases handSample_cases c (Bank.at raw (c + 1)) v with ⟨hc, h⟩ | ⟨x, hx, h⟩ | ⟨hc, h⟩ | ⟨hc, h⟩
    · by_cases hcn : n = c + 1
      · have own := (trackSample_track (t := n) h1 h24 (Bank.at raw n) ((found n).trans hr)).1
        rw [track, before (by omega)] at own
        rw [h, ← hcn]
        exact ⟨fun h => by omega, fun _ => own⟩
      · have stands : (v.handSample c (Bank.at raw (c + 1))).track n = v.track n := by
          rw [h]
          cases hm : v.trackRec (c + 1) with
          | none => unfold trackSample; rw [hm]
          | some m => exact (trackSample_track (by omega) (by omega) (Bank.at raw (c + 1)) hm).2 n hcn
        obtain ⟨g1, g2⟩ := other stands
        exact ⟨g1, fun hn => g2 (by omega)⟩
    · obtain ⟨g1, g2⟩ := other (by rw [h]; exact State.track_of_tracks (OnlySections.tracks_eq (sectionSample_onlySections x _ v)) n)
      exact ⟨g1, fun _ => g2 (by omega)⟩
    · obtain ⟨g1, g2⟩ := other (by rw [h]; exact (supplySample_onlyEval _ v).track_eq n)
      exact ⟨g1, fun _ => g2 (by omega)⟩
    · obtain ⟨g1, g2⟩ := other (by rw [h])
      exact ⟨g1, fun _ => g2 (by omega)⟩

/-- R128: what the sample of a line makes of it depends on the line alone. -/
theorem sampled_sameLine (rec : SectionRec) (v : Sample) {r u : SectionState} (h : r.SameLine u) :
    ({ r.confirm (sampleCandidate rec r.measured v) with lastRaw := v } : SectionState).SameLine
      { u.confirm (sampleCandidate rec u.measured v) with lastRaw := v } := by
  obtain ⟨-, h2, h3, h4⟩ := h
  unfold SectionState.confirm; dsimp only
  rw [h2, h3, h4]
  split
  · exact ⟨rfl, rfl, rfl, rfl⟩
  · split
    · exact ⟨rfl, rfl, rfl, rfl⟩
    · split
      · split
        · exact ⟨rfl, rfl, rfl, rfl⟩
        · exact ⟨rfl, rfl, rfl, rfl⟩
      · exact ⟨rfl, rfl, rfl, rfl⟩

/-- R127: a section's line in a pass, before its channel and after it. -/
theorem scannedTo_line {x : SectionId} {rec : SectionRec} (hr : s.sectionRec x = some rec) (c : Nat) :
    (c ≤ 24 + (secCode x).toNat → (s.sectn x).SameLine ((s.scannedTo raw c).sectn x)) ∧
    (24 + (secCode x).toNat < c →
      ({ (s.sectn x).confirm (sampleCandidate rec (s.sectn x).measured (Bank.at raw (25 + (secCode x).toNat))) with
          lastRaw := Bank.at raw (25 + (secCode x).toNat) } : SectionState).SameLine ((s.scannedTo raw c).sectn x)) := by
  have fitted : s.channelEnabled (24 + (secCode x).toNat) = true := by
    refine (s.channelEnabled_iff _).2 (.inr ⟨fun ha => ?_, .inr (.inl ⟨x, rec, rfl, hr⟩)⟩)
    unfold sectionRec table at hr; rw [ha] at hr; exact nomatch hr
  generalize hy : ({ (s.sectn x).confirm (sampleCandidate rec (s.sectn x).measured (Bank.at raw (25 + (secCode x).toNat))) with
    lastRaw := Bank.at raw (25 + (secCode x).toNat) } : SectionState) = y
  refine scannedTo_induct (P := fun c u => (c ≤ 24 + (secCode x).toNat → (s.sectn x).SameLine (u.sectn x)) ∧
    (24 + (secCode x).toNat < c → y.SameLine (u.sectn x)))
    ⟨fun _ => .refl _, fun h => by omega⟩ (fun c u he ih => ?_) (fun c u _ only ih => ?_) c
  · obtain ⟨before, after⟩ := ih
    refine ⟨fun h => before (by omega), fun h => after ?_⟩
    rcases Nat.lt_or_ge (24 + (secCode x).toNat) c with hc | hc
    · exact hc
    · obtain rfl : c = 24 + (secCode x).toNat := by omega
      rw [fitted] at he; exact nomatch he
  · obtain ⟨before, after⟩ := ih
    generalize hv : u.convert c (Bank.at raw (c + 1)) = v
    have sectn : v.sectn x = u.sectn x := by rw [← hv]; rfl
    have found : v.sectionRec x = some rec := by
      rw [← hv]; exact (congrArg (fun t => (sectionOf (secCode x).toNat t).filter SectionRec.fitted) (OnlyScan.table_eq only) : u.sectionRec x = s.sectionRec x).trans hr
    have other : (v.sectn x).SameLine ((v.handSample c (Bank.at raw (c + 1))).sectn x) → c ≠ 24 + (secCode x).toNat →
        (c + 1 ≤ 24 + (secCode x).toNat → (s.sectn x).SameLine ((v.handSample c (Bank.at raw (c + 1))).sectn x)) ∧
        (24 + (secCode x).toNat < c + 1 → y.SameLine ((v.handSample c (Bank.at raw (c + 1))).sectn x)) := fun h hne => by
      rw [sectn] at h
      exact ⟨fun hc => (before (by omega)).trans h, fun hc => (after (by omega)).trans h⟩
    have code : (secCode x).toNat < 4 := by cases x <;> decide
    rcases handSample_cases c (Bank.at raw (c + 1)) v with ⟨hc, h⟩ | ⟨z, hz, h⟩ | ⟨hc, h⟩ | ⟨hc, h⟩
    · exact other (by rw [h]; exact trackSample_sameLines _ _ v x) (by omega)
    · by_cases hzx : x = z
      · subst z
        have own := (sectionSample_line found (Bank.at raw (c + 1))).1
        rw [sectn] at own
        have line := sampled_sameLine rec (Bank.at raw (c + 1)) (before (by omega))
        have channel : c + 1 = 25 + (secCode x).toNat := by omega
        refine ⟨fun hc => by omega, fun _ => ?_⟩
        rw [h, ← hy, ← channel]
        exact line.trans own
      · have codes : (secCode x).toNat ≠ (secCode z).toNat := fun hc => hzx <| by
          have hx := (secOfCode_iff _ x).2 rfl
          rw [hc, (secOfCode_iff _ z).2 rfl] at hx
          exact (Option.some.inj hx).symm
        refine other ?_ (by omega)
        rw [h]
        cases hm : v.sectionRec z with
        | none => unfold sectionSample; rw [hm]; exact .refl _
        | some m => rw [(sectionSample_line hm (Bank.at raw (c + 1))).2 x hzx]; exact .refl _
    · exact other (by rw [h, (supplySample_onlyEval _ v).sectn_eq]; exact .refl _) (by omega)
    · exact other (by rw [h]; exact .refl _) (by omega)

/-- R35: the lock supply in a pass, before its channel and after it. -/
theorem scannedTo_supply {rec : FrameRec} (hr : s.frameRec = some rec) (c : Nat) :
    let low := decide ((Bank.at raw 29).toNat < rec.threshold.toNat)
    (c ≤ 28 → (s.scannedTo raw c).frame.lowRun = s.frame.lowRun ∧ (s.scannedTo raw c).frame.lockSupply = s.frame.lockSupply) ∧
    (28 < c → (s.scannedTo raw c).frame.lowRun = (if low then min 3 (s.frame.lowRun + 1) else 0) ∧
      (s.scannedTo raw c).frame.lockSupply = (low && (s.frame.lockSupply || decide (s.frame.lowRun = 2)))) := by
  intro low
  have fitted : s.channelEnabled 28 = true := by
    refine (s.channelEnabled_iff _).2 ?_
    by_cases ha : s.store.active = none
    · exact .inl ⟨ha, le_rfl⟩
    · exact .inr ⟨ha, .inr (.inr rfl)⟩
  refine scannedTo_induct (P := fun c u =>
    (c ≤ 28 → u.frame.lowRun = s.frame.lowRun ∧ u.frame.lockSupply = s.frame.lockSupply) ∧
    (28 < c → u.frame.lowRun = (if low then min 3 (s.frame.lowRun + 1) else 0) ∧
      u.frame.lockSupply = (low && (s.frame.lockSupply || decide (s.frame.lowRun = 2)))))
    ⟨fun _ => ⟨rfl, rfl⟩, fun h => by omega⟩ (fun c u he ih => ?_) (fun c u _ only ih => ?_) c
  · obtain ⟨before, after⟩ := ih
    refine ⟨fun h => before (by omega), fun h => after ?_⟩
    rcases Nat.lt_or_ge 28 c with hc | hc
    · exact hc
    · obtain rfl : c = 28 := by omega
      rw [fitted] at he; exact nomatch he
  · obtain ⟨before, after⟩ := ih
    generalize hv : u.convert c (Bank.at raw (c + 1)) = v
    have frame : v.frame = u.frame := by rw [← hv]; rfl
    have found : v.frameRec = some rec := by
      rw [← hv]; exact (congrArg frameOf (OnlyScan.table_eq only) : u.frameRec = s.frameRec).trans hr
    have other : (v.handSample c (Bank.at raw (c + 1))).frame.lowRun = v.frame.lowRun ∧
        (v.handSample c (Bank.at raw (c + 1))).frame.lockSupply = v.frame.lockSupply → c ≠ 28 →
        (c + 1 ≤ 28 → (v.handSample c (Bank.at raw (c + 1))).frame.lowRun = s.frame.lowRun ∧
          (v.handSample c (Bank.at raw (c + 1))).frame.lockSupply = s.frame.lockSupply) ∧
        (28 < c + 1 → (v.handSample c (Bank.at raw (c + 1))).frame.lowRun = (if low then min 3 (s.frame.lowRun + 1) else 0) ∧
          (v.handSample c (Bank.at raw (c + 1))).frame.lockSupply =
            (low && (s.frame.lockSupply || decide (s.frame.lowRun = 2)))) := fun h hne => by
      rw [h.1, h.2, frame]
      exact ⟨fun hc => before (by omega), fun hc => after (by omega)⟩
    have stands := supplyRunStands v.frame.lowRun v.frame.lockSupply
    rcases handSample_cases c (Bank.at raw (c + 1)) v with ⟨hc, h⟩ | ⟨z, hz, h⟩ | ⟨hc, h⟩ | ⟨hc, h⟩
    · exact other (by rw [h]; exact stands.raising.trackSample _ _ (by omega) ⟨rfl, rfl⟩) (by omega)
    · have code : (secCode z).toNat < 4 := by cases z <;> decide
      exact other (by rw [h]; exact stands.raising.sectionSample _ _ ⟨rfl, rfl⟩) (by omega)
    · subst hc
      have own := supplySample_supply found (Bank.at raw 29)
      obtain ⟨h1, h2⟩ := before le_rfl
      rw [frame, h1, h2] at own
      exact ⟨fun hc => by omega, fun _ => own⟩
    · exact other (by rw [h]; exact ⟨rfl, rfl⟩) (by omega)

end State

/-- Settles O34, channel by channel. -/
theorem scanPass : Obligations.ScanPass := by
  intro s raw
  have taken : exec (.scanPass raw) s = .next (s.scannedTo raw 32) := rfl
  refine ⟨_, taken, fun c hc => ?_, fun n rec hr h1 h24 => ?_, fun x rec hr => ?_, fun rec hr => ?_,
    s.channelEnabled_iff, ⟨s.scannedTo raw, rfl, rfl, fun c hc => ?_⟩, State.scannedTo_scan raw s 32⟩
  · obtain ⟨h1, h2⟩ := State.scannedTo_scanner (raw := raw) (s := s) 32 le_rfl c hc
    rw [h1, h2]; simp [hc]
  · intro y
    have seen := (State.scannedTo_track (raw := raw) h1 h24 hr 32).2 (by omega)
    change (s.scannedTo raw 32).track n = y ∨ (s.scannedTo raw 32).track n = y.failOrdered at seen
    rcases seen with h | h
    · rw [h]; exact ⟨rfl, .inl rfl⟩
    · rw [h]
      unfold TrackState.failOrdered
      split
      · exact ⟨rfl, .inl rfl⟩
      · split
        · exact ⟨rfl, .inl rfl⟩
        · exact ⟨rfl, .inr rfl⟩
  · intro r y
    have code : (secCode x).toNat < 4 := by cases x <;> decide
    exact (State.scannedTo_line (raw := raw) hr 32).2 (by omega)
  · intro low
    exact (State.scannedTo_supply (raw := raw) hr 32).2 (by omega)
  · intro v taken
    have same := State.OnlyScan.channelEnabled_eq (State.scannedTo_scan raw s c) c
    refine ⟨fun he => ?_, fun he h24 => ?_, fun x he hx => ?_, fun h28 => ?_⟩
    · rw [State.scannedTo_succ, State.scanChannel_disabled (same.trans he)]
    · rw [State.scannedTo_succ, State.scanChannel_enabled (same.trans he), State.handSample_track h24]; rfl
    · rw [State.scannedTo_succ, State.scanChannel_enabled (same.trans he), State.handSample_section hx]; rfl
    · have he : s.channelEnabled c = true := by
        refine (s.channelEnabled_iff _).2 ?_
        by_cases ha : s.store.active = none
        · exact .inl ⟨ha, by omega⟩
        · exact .inr ⟨ha, .inr (.inr h28)⟩
      rw [State.scannedTo_succ, State.scanChannel_enabled (same.trans he), h28, State.handSample_supply]
      subst h28; rfl

/-! ### O33: cuts of the frame supply, readbacks and the lock supply -/

theorem Bank.put_put {α : Type} {n : Nat} (b : Bank α n) (k : Nat) (v w : α) :
    Bank.put (Bank.put b k v) k w = Bank.put b k w := by
  cases k with
  | zero => rfl
  | succ j => exact Vector.setIfInBounds_setIfInBounds ..

theorem OtherLevers.trans {n : Nat} {s t u : State} (h : OtherLevers n s t) (g : OtherLevers n t u) : OtherLevers n s u := by
  intro m hm
  obtain ⟨h1, h2, h3, h4, h5⟩ := h m hm
  obtain ⟨g1, g2, g3, g4, g5⟩ := g m hm
  exact ⟨g1.trans h1, g2.trans h2, g3.trans h3, g4.trans h4, g5.trans h5⟩

theorem Listed.endIf {P : Supervisor → Prop} (h : Listed P) (b : Bool) (c : FaultClass) (o : Nat) {s : State}
    (hs : P s.faults) : P (s.endIf b c o).faults :=
  ite_keeps (P := fun u : State => P u.faults) (h.endFault c o s hs) hs

namespace State

/-- Two updates of a lever are one. -/
theorem updLever_updLever {n : Nat} (hn : leverOk n = true) (f g : LeverState → LeverState) (s : State) :
    (s.updLever n f).updLever n g = s.updLever n fun l => g (f l) := by
  unfold State.updLever
  rw [show State.lever { s with frame := { s.frame with levers := Bank.put s.frame.levers n (f (s.lever n)) } } n =
    f (s.lever n) from lever_updLever_same hn f s]
  dsimp only
  rw [Bank.put_put]

theorem updLever_congr {n : Nat} {f g : LeverState → LeverState} {s : State} (h : f (s.lever n) = g (s.lever n)) :
    s.updLever n f = s.updLever n g := by
  unfold State.updLever; rw [h]

theorem updLever_of_same {n : Nat} {f : LeverState → LeverState} {s : State} (h : f (s.lever n) = s.lever n) :
    s.updLever n f = s := by
  unfold State.updLever; rw [h]
  unfold State.lever; rw [Bank.put_at_self]

end State

theorem OnlyFaults.updLever {s t : State} (h : OnlyFaults s t) (n : Nat) (f : LeverState → LeverState) :
    OnlyFaults (s.updLever n f) (t.updLever n f) := by
  obtain ⟨l, g, rfl⟩ := h; exact ⟨l, g, rfl⟩

namespace State

theorem wantsFree_of_cut {s : State} (h : s.frame.supplyOn = false) (n : Nat) : s.wantsFree n = false := by
  unfold State.wantsFree; rw [h]; simp

/-- R30: with the frame supply off an evaluation leaves a lever commanded HELD but for its verdict. -/
theorem evaluate_lever_of_held (cause : LockCause) {s : State} (h : s.frame.supplyOn = false) {n : Nat}
    (hc : (s.lever n).command = .held) : ∃ v b, (s.evaluate cause).lever n = { s.lever n with verdict := v, blocking := b } := by
  rw [evaluate_lever]; split
  · unfold refreshedLever; split
    · unfold LeverState.refreshed; split
      · rw [wantsFree_of_cut h, LeverState.commanded_of_eq (by exact hc)]; exact ⟨_, _, rfl⟩
      · exact ⟨_, _, rfl⟩
    · exact ⟨_, _, rfl⟩
  · exact ⟨_, _, rfl⟩

/-- R30: no evaluation makes a LOCK_DRIVE stand. -/
theorem LeverState.refreshed_drive (v : Bool × Option Nat) (k w : Bool) (now : Time) {l : LeverState}
    (h : l.driveActive = false) : (l.refreshed v k w now).driveActive = false := by
  unfold LeverState.refreshed; split
  · generalize (if w = true then LockCommand.free else .held) = c
    unfold LeverState.commanded; split
    · exact h
    · exact (congrArg (· && c == .free) h).trans rfl
  · exact h

/-- R36: what is left of a lever when the frame supply is cut. -/
structure LeverCut (s t : State) : Prop where
  supply : t.frame.supplyOn = false
  only : OnlyEval s t
  same : ∀ k, ∃ v b c a d e, t.lever k =
    { s.lever k with verdict := v, blocking := b, command := c, commandTime := a, window := d, driveActive := e }
  drive : ∀ k, (s.lever k).driveActive = false → (t.lever k).driveActive = false
  held : ∀ k, (s.lever k).command = .held → ∃ v b, t.lever k = { s.lever k with verdict := v, blocking := b }
  commands : s.frame.supplyOn = true → ∀ k, leverOk k = true → s.hasLock k = true → (t.lever k).command = .held

theorem cutFrame_spec (s : State) : s.LeverCut s.cutFrame := by
  have supply := State.cutFrame_supplyOn s
  revert supply
  unfold State.cutFrame; split
  · rename_i on
    intro supply
    generalize hu : ({ s with frame := { s.frame with supplyOn := false } } : State) = u
    have off : u.frame.supplyOn = false := by rw [← hu]
    have lever : ∀ k, u.lever k = s.lever k := fun k => by rw [← hu]; rfl
    have lock : ∀ k, u.hasLock k = s.hasLock k := fun k => by rw [← hu]; rfl
    have only : OnlyEval s u := by rw [← hu]; exact ⟨_, _, _, rfl⟩
    rw [hu] at supply
    have same : ∀ k, (State.report .lock 0 2 [0] (u.evaluate .frameSupply)).lever k = (u.evaluate .frameSupply).lever k :=
      fun k => State.report_lever _ _ _ _ _ _
    refine ⟨supply, only.trans ((State.evaluate_only _ u).trans (State.report_only _ _ _ _ _).faults.eval), fun k => ?_,
      fun k h => ?_, fun k h => ?_, fun _ k hk hl => ?_⟩
    · rw [same, ← lever]; exact evaluate_lever_same _ u k
    · rw [same, evaluate_lever]; split
      · unfold refreshedLever; split
        · exact LeverState.refreshed_drive _ _ _ _ (by rw [lever, h])
        · rw [lever, h]
      · rw [lever, h]
    · rw [same, ← lever]; exact evaluate_lever_of_held _ off (by rw [lever, h])
    · have goes := evaluate_command .frameSupply hk ((lock k).trans hl)
      rw [wantsFree_of_cut off] at goes
      rw [same]
      cases hc : ((u.evaluate .frameSupply).lever k).command with
      | held => rfl
      | free => exact nomatch goes.1 hc
  · rename_i off
    intro supply
    exact ⟨supply, OnlyEval.refl s, fun k => ⟨_, _, _, _, _, _, rfl⟩, fun _ h => h, fun k _ => ⟨_, _, rfl⟩,
      fun h => absurd h off⟩

/-- R36, R156: what a raise leaves whose order cuts the frame supply. -/
theorem cutRaise_spec {c : FaultClass} (hc : c.order = some .frameCut) (m : Bool) (n : Nat) (s : State) :
    s.LeverCut (s.raiseWith m c n) ∧ (s.raiseWith m c n).faults.frameCut = true := by
  rw [State.raiseWith_of_order hc (State.unmaskedFor_of_frameCut hc _ _)]
  refine ⟨?_, (State.deliver_register .frameCut n _).1⟩
  have entered := State.enterRaise_only c n m s
  generalize s.enterRaise c n m = u at entered ⊢
  obtain ⟨l, f, rfl⟩ := entered
  obtain ⟨supply, only, same, drive, held, commands⟩ := cutFrame_spec (State.register .frameCut n { s with link := l, faults := f })
  exact ⟨supply, OnlyEval.trans ⟨l, _, s.frame, rfl⟩ only, same, drive, held, commands⟩

namespace LeverCut

variable {s t : State} (h : s.LeverCut t)
include h

theorem otherLevers (n : Nat) : OtherLevers n s t := fun k _ => by
  obtain ⟨_, _, _, _, _, _, h⟩ := h.same k
  rw [h]; exact ⟨rfl, rfl, rfl, rfl, rfl⟩

end LeverCut

end State

namespace State

theorem windowDue_iff (s : State) (n : Nat) : s.windowDue n = true ↔
    s.hasLock n = true ∧ ∃ w, (s.lever n).window = some w ∧ w + s.travelTime ≤ s.now := by
  unfold State.windowDue
  cases (s.lever n).window <;> simp

theorem raiseDrive_onlyFaults (n : Nat) (s : State) :
    OnlyFaults (s.updLever n fun l => { l with driveActive := true }) (s.raiseDrive n) :=
  raise_onlyFaults (c := .lockDrive) rfl false n _

theorem raiseDrive_shown (n : Nat) (s : State) : (s.raiseDrive n).faultShown .lockDrive n := raise_shown _ _ _

/-- R32: LOCK_STUCK_FREE raised of a lever whose lock is commanded HELD. -/
theorem raiseStuck_spec {n : Nat} (hn : leverOk n = true) (s : State) :
    (s.raiseStuck n).faultShown .lockStuckFree n ∧ (s.raiseStuck n).faults.frameCut = true ∧
    (s.updLever n fun l => { l with stuckActive := true }).LeverCut (s.raiseStuck n) ∧
    ((s.lever n).command = .held → ∃ v b, (s.raiseStuck n).lever n =
      { s.lever n with stuckActive := true, verdict := v, blocking := b }) := by
  obtain ⟨cut, reg⟩ := cutRaise_spec (c := .lockStuckFree) rfl false n (s.updLever n fun l => { l with stuckActive := true })
  refine ⟨raise_shown _ _ _, reg, cut, fun h => ?_⟩
  have own : (s.updLever n fun l => { l with stuckActive := true }).lever n = { s.lever n with stuckActive := true } :=
    lever_updLever_same hn _ s
  obtain ⟨v, b, h⟩ := cut.held n (by rw [own]; exact h)
  rw [own] at h
  exact ⟨v, b, h⟩

/-- R31, R35: the first half of a readback: the record and the end of the condition it disproves. -/
def readbackEnds (n : Nat) (on : Bool) (s : State) : State :=
  if on then ((s.updLever n fun l => { l with readback := true }).updLever n
    fun l => { l with driveActive := false }).endIf (s.lever n).driveActive .lockDrive n
  else ((s.updLever n fun l => { l with readback := false }).updLever n
    fun l => { l with stuckActive := false }).endIf (s.lever n).stuckActive .lockStuckFree n

end State

/-- R31, R32: a lever's record as its readback is heard, but for what is raised. -/
def LeverState.readAt (on : Bool) (l : LeverState) : LeverState :=
  { l with readback := on, driveActive := l.driveActive && !on, stuckActive := l.stuckActive && on }

namespace State

theorem readbackEnds_onlyFaults {n : Nat} (hn : leverOk n = true) (on : Bool) (s : State) :
    OnlyFaults (s.updLever n (LeverState.readAt on)) (s.readbackEnds n on) := by
  cases on with
  | true =>
    have fused := updLever_updLever hn (fun l => { l with readback := true }) (fun l => { l with driveActive := false }) s
    have read : s.updLever n (LeverState.readAt true) = _ := (updLever_congr (by simp [LeverState.readAt])).trans fused.symm
    rw [read]; exact endIf_only _ _ _ _
  | false =>
    have fused := updLever_updLever hn (fun l => { l with readback := false }) (fun l => { l with stuckActive := false }) s
    have read : s.updLever n (LeverState.readAt false) = _ := (updLever_congr (by simp [LeverState.readAt])).trans fused.symm
    rw [read]; exact endIf_only _ _ _ _

theorem readbackEnds_over (n : Nat) (s : State) :
    ((s.lever n).driveActive = true → (s.readbackEnds n true).faultOver .lockDrive n) ∧
    ((s.lever n).stuckActive = true → (s.readbackEnds n false).faultOver .lockStuckFree n) :=
  ⟨fun h => endIf_over .lockDrive n fun hb => absurd (hb.symm.trans h) Bool.false_ne_true,
   fun h => endIf_over .lockStuckFree n fun hb => absurd (hb.symm.trans h) Bool.false_ne_true⟩

theorem readbackEnds_quiet {n : Nat} (hn : leverOk n = true) {on : Bool} {s : State} (h1 : ¬(on = true ∧ (s.lever n).driveActive = true))
    (h2 : ¬(on = false ∧ (s.lever n).stuckActive = true)) : s.readbackEnds n on = s.updLever n (LeverState.readAt on) := by
  cases on with
  | true =>
    have off : (s.lever n).driveActive = false := Bool.eq_false_iff.2 fun h => h1 ⟨rfl, h⟩
    have ends : s.readbackEnds n true = (s.updLever n fun l => { l with readback := true }).updLever n
        fun l => { l with driveActive := false } := by
      unfold State.readbackEnds State.endIf; rw [off]; rfl
    rw [ends, updLever_updLever hn]
    exact updLever_congr (by simp [LeverState.readAt])
  | false =>
    have off : (s.lever n).stuckActive = false := Bool.eq_false_iff.2 fun h => h2 ⟨rfl, h⟩
    have ends : s.readbackEnds n false = (s.updLever n fun l => { l with readback := false }).updLever n
        fun l => { l with stuckActive := false } := by
      unfold State.readbackEnds State.endIf; rw [off]; rfl
    rw [ends, updLever_updLever hn]
    exact updLever_congr (by simp [LeverState.readAt])

/-- R31, R32, R35: the second half of a readback: the window and what is raised. -/
theorem lockedReadback_eq (n : Nat) (on : Bool) (s : State) : s.lockedReadback n on =
    (if (s.lever n).command = (if on then .free else .held) then
      (s.readbackEnds n on).updLever n fun l => { l with window := none }
    else if on = true ∧ (s.lever n).window = none then (s.readbackEnds n on).raiseStuck n
    else if on = false ∧ (s.lever n).window = none ∧ s.frame.lockSupply = false then (s.readbackEnds n on).raiseDrive n
    else s.readbackEnds n on) := by
  unfold State.lockedReadback State.readbackEnds
  cases on with
  | true =>
    dsimp only; rw [if_pos rfl, if_pos rfl, if_pos rfl]
    generalize State.endIf _ _ _ _ = u
    cases hc : (s.lever n).command with
    | free => rfl
    | held => cases (s.lever n).window <;> rfl
  | false =>
    dsimp only; rw [if_neg Bool.false_ne_true, if_neg Bool.false_ne_true, if_neg Bool.false_ne_true]
    generalize State.endIf _ _ _ _ = u
    cases hc : (s.lever n).command with
    | held => rfl
    | free => cases (s.lever n).window <;> cases s.frame.lockSupply <;> rfl

end State

theorem exec_lockReadbackChange {n : Nat} (hn : leverOk n = true) (on : Bool) (s : State) :
    exec (.lockReadbackChange n on) s = .next (s.readbackChange n on) := by
  change onObject (leverOk n) _ = _
  rw [hn]; rfl

theorem exec_readbackWindowClose {n : Nat} (hn : leverOk n = true) (s : State) :
    exec (.readbackWindowClose n) s = .next (if s.windowDue n then s.closeWindow n else s) := by
  change onObject (leverOk n) _ = _
  rw [hn]; rfl

/-- R31, R32, R35: a lever's record after a readback is heard and judged. -/
def LeverState.heard (on supply : Bool) (l : LeverState) : LeverState :=
  { l with
    readback := on
    window := if l.command = (if on then .free else .held) then none else l.window
    driveActive := (l.driveActive && !on) || decide (on = false ∧ l.command = .free ∧ l.window = none ∧ supply = false)
    stuckActive := (l.stuckActive && on) || decide (on = true ∧ l.command = .held ∧ l.window = none) }

namespace State

variable {n : Nat} (hn : leverOk n = true) (on : Bool) (s : State)
include hn

/-- R31: a readback that raises nothing of LOCK_STUCK_FREE. -/
theorem lockedReadback_onlyFaults (h : ¬(on = true ∧ (s.lever n).command = .held ∧ (s.lever n).window = none)) :
    OnlyFaults (s.updLever n (LeverState.heard on s.frame.lockSupply)) (s.lockedReadback n on) := by
  have ends := readbackEnds_onlyFaults hn on s
  have other : (s.lever n).command ≠ (if on then LockCommand.free else .held) →
      (s.lever n).command = (if on then LockCommand.held else .free) := by
    cases on <;> cases (s.lever n).command <;> simp
  rw [lockedReadback_eq]
  by_cases agrees : (s.lever n).command = (if on then LockCommand.free else .held)
  · rw [if_pos agrees]
    have closed := ends.updLever n fun l => { l with window := none }
    rw [updLever_updLever hn] at closed
    refine (congrArg (OnlyFaults · _) (updLever_congr ?_)).mpr closed
    unfold LeverState.heard LeverState.readAt
    rw [if_pos agrees, decide_eq_false h, decide_eq_false, Bool.or_false, Bool.or_false]
    rintro ⟨rfl, hc, -⟩; rw [hc] at agrees; exact nomatch agrees
  · rw [if_neg agrees, if_neg fun hs => h ⟨hs.1, (other agrees).trans (by rw [hs.1]; rfl), hs.2⟩]
    by_cases drive : on = false ∧ (s.lever n).window = none ∧ s.frame.lockSupply = false
    · rw [if_pos drive]
      have raised := (ends.updLever n fun l => { l with driveActive := true }).trans (raiseDrive_onlyFaults n _)
      rw [updLever_updLever hn] at raised
      refine (congrArg (OnlyFaults · _) (updLever_congr ?_)).mpr raised
      obtain ⟨hon, hw, hl⟩ := drive
      have free : (s.lever n).command = .free := (other agrees).trans (by rw [hon]; rfl)
      unfold LeverState.heard LeverState.readAt
      rw [if_neg agrees, decide_eq_false h, decide_eq_true ⟨hon, free, hw, hl⟩, Bool.or_true, Bool.or_false]
    · rw [if_neg drive]
      refine (congrArg (OnlyFaults · _) (updLever_congr ?_)).mpr ends
      unfold LeverState.heard LeverState.readAt
      rw [if_neg agrees, decide_eq_false h, decide_eq_false fun hd => drive ⟨hd.1, hd.2.2⟩, Bool.or_false, Bool.or_false]

/-- R31: a readback that raises and ends nothing. -/
theorem lockedReadback_quiet (h : ¬(on = true ∧ (s.lever n).command = .held ∧ (s.lever n).window = none))
    (hd : ¬(on = false ∧ (s.lever n).command = .free ∧ (s.lever n).window = none ∧ s.frame.lockSupply = false))
    (h1 : ¬(on = true ∧ (s.lever n).driveActive = true)) (h2 : ¬(on = false ∧ (s.lever n).stuckActive = true)) :
    s.lockedReadback n on = s.updLever n (LeverState.heard on s.frame.lockSupply) := by
  have other : (s.lever n).command ≠ (if on then LockCommand.free else .held) →
      (s.lever n).command = (if on then LockCommand.held else .free) := by
    cases on <;> cases (s.lever n).command <;> simp
  rw [lockedReadback_eq, readbackEnds_quiet hn h1 h2]
  by_cases agrees : (s.lever n).command = (if on then LockCommand.free else .held)
  · rw [if_pos agrees, updLever_updLever hn]
    refine updLever_congr ?_
    unfold LeverState.heard LeverState.readAt
    rw [if_pos agrees, decide_eq_false h, decide_eq_false hd, Bool.or_false, Bool.or_false]
  · rw [if_neg agrees, if_neg fun hs => h ⟨hs.1, (other agrees).trans (by rw [hs.1]; rfl), hs.2⟩,
      if_neg fun hs => hd ⟨hs.1, (other agrees).trans (by rw [hs.1]; rfl), hs.2⟩]
    refine updLever_congr ?_
    unfold LeverState.heard LeverState.readAt
    rw [if_neg agrees, decide_eq_false h, decide_eq_false hd, Bool.or_false, Bool.or_false]

end State

namespace State

/-- R157: a raise, its order delivered, leaves another condition that is over. -/
theorem raiseWith_leaves_over {c d : FaultClass} {o p : Nat} {m : Bool} {s : State} (other : ¬(c = d ∧ o = p))
    (ha : s.faults.agree d p) (h : s.faultOver d p) : (s.raiseWith m c o).faultOver d p :=
  raiseWith_keeps_over (enterRaise_keeps_over other ha h)

/-- R31: the conditions that a readback ends. -/
theorem lockedReadback_over {n : Nat} {s : State} (hl : s.listLawful) :
    ((s.lever n).driveActive = true → (s.lockedReadback n true).faultOver .lockDrive n) ∧
    ((s.lever n).stuckActive = true → (s.lockedReadback n false).faultOver .lockStuckFree n) := by
  obtain ⟨drive, stuck⟩ := readbackEnds_over n s
  have agree : ∀ on c o, (s.readbackEnds n on).faults.agree c o := fun on c o => by
    have ended : ∀ (b : Bool) d (u : State), u.faults = s.faults → (u.endIf b d n).faults.agree c o := fun b d u hu =>
      (listed_agree c o).endIf b d n (by rw [hu]; exact listLawful_agree hl c o)
    cases on
    · exact ended _ _ _ rfl
    · exact ended _ _ _ rfl
  refine ⟨fun h => ?_, fun h => ?_⟩
  · rw [lockedReadback_eq]
    refine ite_keeps (P := State.faultOver .lockDrive n) (drive h) (ite_keeps (P := State.faultOver .lockDrive n) ?_ ?_)
    · exact raiseWith_leaves_over (c := .lockStuckFree) (by simp) (agree _ _ _) (drive h)
    · rw [if_neg (by simp)]; exact drive h
  · rw [lockedReadback_eq]
    refine ite_keeps (P := State.faultOver .lockStuckFree n) (stuck h) ?_
    rw [if_neg (by simp)]
    refine ite_keeps (P := State.faultOver .lockStuckFree n) ?_ (stuck h)
    exact raiseWith_leaves_over (c := .lockDrive) (by simp) (agree _ _ _) (stuck h)

/-- R31: a readback that drops under a lock commanded FREE raises LOCK_DRIVE. -/
theorem lockedReadback_drive {n : Nat} {s : State} (hc : (s.lever n).command = .free) (hw : (s.lever n).window = none)
    (hl : s.frame.lockSupply = false) : (s.lockedReadback n false).faultShown .lockDrive n := by
  rw [lockedReadback_eq, if_neg (by rw [hc]; simp), if_neg (by simp), if_pos ⟨rfl, hw, hl⟩]
  exact raiseDrive_shown n _

/-- R32: a readback that comes under a lock commanded HELD raises LOCK_STUCK_FREE and cuts the frame supply. -/
theorem lockedReadback_stuck {n : Nat} (hn : leverOk n = true) {s : State} (hc : (s.lever n).command = .held)
    (hw : (s.lever n).window = none) :
    let t := s.lockedReadback n true
    t.faultShown .lockStuckFree n ∧ t.faults.frameCut = true ∧ t.frame.supplyOn = false ∧
    (∃ v b, t.lever n = { s.lever n with readback := true, driveActive := false, stuckActive := true, verdict := v, blocking := b }) ∧
    (s.frame.supplyOn = true → ∀ m, leverOk m = true → s.hasLock m = true → (t.lever m).command = .held) ∧
    OtherLevers n s t := by
  intro t
  have ends := readbackEnds_onlyFaults hn true s
  have stuck : t = (s.readbackEnds n true).raiseStuck n := by
    change s.lockedReadback n true = _
    rw [lockedReadback_eq, if_neg (by rw [hc]; simp), if_pos ⟨rfl, hw⟩]
  rw [stuck]
  generalize s.readbackEnds n true = u at ends ⊢
  obtain ⟨shown, reg, cut, own⟩ := raiseStuck_spec hn u
  have lever : u.lever n = LeverState.readAt true (s.lever n) := (lever_of_onlyFaults ends n).trans (lever_updLever_same hn _ s)
  obtain ⟨v, b, own⟩ := own (by rw [lever]; exact hc)
  refine ⟨shown, reg, cut.supply, ⟨v, b, ?_⟩, fun hs => ?_, fun m hm => ?_⟩
  · rw [own, lever]; simp [LeverState.readAt]
  · have lock : ∀ m, (u.updLever n fun l => { l with stuckActive := true }).hasLock m = s.hasLock m := by
      obtain ⟨_, _, rfl⟩ := ends; exact fun _ => rfl
    intro m hm hk
    exact cut.commands (by obtain ⟨_, _, rfl⟩ := ends; exact hs) m hm ((lock m).trans hk)
  · have read : OtherLevers n s u := otherLevers_of_updLever fun k => lever_of_onlyFaults ends k
    have marked : OtherLevers n u (u.updLever n fun l => { l with stuckActive := true }) := otherLevers_of_updLever fun _ => rfl
    exact (read.trans (marked.trans (cut.otherLevers n))) m hm

end State

namespace State

/-- R31, R32: a window that closes on a lock that agrees with its command. -/
theorem closeWindow_agrees {n : Nat} {s : State} (h : ((s.lever n).command = .free ↔ (s.lever n).readback = true) ∨
    ((s.lever n).command = .free ∧ s.frame.lockSupply = true)) :
    s.closeWindow n = s.updLever n fun l => { l with window := none } := by
  unfold State.closeWindow; dsimp only
  rcases h with h | ⟨hc, hs⟩
  · cases hc : (s.lever n).command with
    | free => rw [h.1 hc]; rfl
    | held =>
      dsimp only
      rw [if_neg fun hr => LockCommand.noConfusion (hc.symm.trans (h.2 hr))]
  · rw [hc, hs]; dsimp only; rw [Bool.not_true, Bool.and_false]; rfl

theorem closeWindow_drive {n : Nat} (hn : leverOk n = true) {s : State} (hc : (s.lever n).command = .free) (hr : (s.lever n).readback = false)
    (hs : s.frame.lockSupply = false) : (s.closeWindow n).faultShown .lockDrive n ∧
      OnlyFaults (s.updLever n fun l => { l with window := none, driveActive := true }) (s.closeWindow n) := by
  have raised : s.closeWindow n = (s.updLever n fun l => { l with window := none }).raiseDrive n := by
    unfold State.closeWindow; dsimp only; rw [hc, hr, hs]; rfl
  have only := raiseDrive_onlyFaults n (s.updLever n fun l => { l with window := none })
  rw [updLever_updLever hn] at only
  rw [raised]
  exact ⟨raiseDrive_shown n _, only⟩

theorem closeWindow_stuck {n : Nat} (hn : leverOk n = true) {s : State} (hc : (s.lever n).command = .held)
    (hr : (s.lever n).readback = true) :
    let t := s.closeWindow n
    t.faultShown .lockStuckFree n ∧ t.faults.frameCut = true ∧ t.frame.supplyOn = false ∧
    (∃ v b, t.lever n = { s.lever n with window := none, stuckActive := true, verdict := v, blocking := b }) ∧
    (s.frame.supplyOn = true → ∀ m, leverOk m = true → s.hasLock m = true → (t.lever m).command = .held) ∧
    OtherLevers n s t := by
  intro t
  have raised : t = (s.updLever n fun l => { l with window := none }).raiseStuck n := by
    change s.closeWindow n = _
    unfold State.closeWindow; dsimp only; rw [hc, hr]; rfl
  have lever : (s.updLever n fun l => { l with window := none }).lever n = { s.lever n with window := none } :=
    lever_updLever_same hn _ s
  obtain ⟨shown, reg, cut, own⟩ := raiseStuck_spec hn (s.updLever n fun l => { l with window := none })
  obtain ⟨v, b, own⟩ := own (by rw [lever]; exact hc)
  rw [raised]
  refine ⟨shown, reg, cut.supply, ⟨v, b, ?_⟩, cut.commands, ?_⟩
  · rw [own, lever]
  · have closed : OtherLevers n s (s.updLever n fun l => { l with window := none }) := otherLevers_of_updLever fun _ => rfl
    have marked : OtherLevers n (s.updLever n fun l => { l with window := none })
        ((s.updLever n fun l => { l with window := none }).updLever n fun l => { l with stuckActive := true }) :=
      otherLevers_of_updLever fun _ => rfl
    exact closed.trans (marked.trans (cut.otherLevers n))

/-! #### R34, R35: the lock supply -/

/-- R35: the fresh window of a lever after a good sample. -/
def windowed (s : State) (n : Nat) : LeverState :=
  if s.hasLock n && (s.lever n).command == .free && !(s.lever n).readback then { s.lever n with window := some s.now }
  else s.lever n

theorem freshWindow_lever {n : Nat} (hn : leverOk n = true) (s : State) :
    (s.freshWindow n).lever n = s.windowed n ∧ ∀ m, m ≠ n → (s.freshWindow n).lever m = s.lever m := by
  unfold State.freshWindow windowed; split
  · exact ⟨lever_updLever_same hn _ s, fun m hm => by rw [lever_updLever, if_neg fun h => hm h.1]⟩
  · exact ⟨rfl, fun _ _ => rfl⟩

end State

/-- Nothing but the records of the levers. -/
def OnlyLevers (s t : State) : Prop := ∃ ls, t = { s with frame := { s.frame with levers := ls } }

theorem OnlyLevers.refl (s : State) : OnlyLevers s s := ⟨_, rfl⟩

theorem OnlyLevers.trans {s t u : State} (h : OnlyLevers s t) (g : OnlyLevers t u) : OnlyLevers s u := by
  obtain ⟨_, rfl⟩ := h; obtain ⟨ls, rfl⟩ := g; exact ⟨ls, rfl⟩

theorem OnlyLevers.windowed_congr {s t : State} (h : OnlyLevers s t) {n : Nat} (hl : t.lever n = s.lever n) :
    t.windowed n = s.windowed n := by
  unfold State.windowed; rw [hl]
  obtain ⟨_, rfl⟩ := h; rfl

namespace State

theorem freshWindow_onlyLevers (n : Nat) (s : State) : OnlyLevers s (s.freshWindow n) := by
  unfold State.freshWindow; split
  · exact ⟨_, rfl⟩
  · exact .refl s

/-- R35: the windows of the levers after a good sample. -/
theorem freshWindows_lever {n : Nat} (hn : leverOk n = true) (s : State) :
    (forEach allLevers freshWindow s).lever n = s.windowed n := by
  refine (forEach_own (get := fun u k => u.lever k) (R := OnlyLevers) allLevers (by decide)
    (fun m u _ => freshWindow_onlyLevers m u) OnlyLevers.trans OnlyLevers.refl
    (fun m u k hm hk => (freshWindow_lever (mem_allLevers.1 hm) u).2 k hk) (fun h k hk hl => ?_) (mem_allLevers.2 hn) s).trans
    (freshWindow_lever hn s).1
  have hk := mem_allLevers.1 hk
  exact ((freshWindow_lever hk _).1.trans (h.windowed_congr hl)).trans (freshWindow_lever hk _).1.symm

theorem freshWindows_onlyLevers (s : State) : OnlyLevers s (forEach allLevers freshWindow s) :=
  forEach_keeps (R := OnlyLevers) OnlyLevers.refl OnlyLevers.trans freshWindow_onlyLevers allLevers s

end State

/-- R34, R35: a sample of the lock supply. -/
theorem supplySample_readback (s : State) (r : Sample) :
    let t := s.supplySample r
    let others := { s.frame with lowRun := t.frame.lowRun, lockSupply := t.frame.lockSupply }
    (s.frameRec = none → t = s) ∧
    ∀ rec, s.frameRec = some rec →
      (r.toNat < rec.threshold.toNat → s.frame.lowRun ≠ 2 →
        t = { s with frame := { s.frame with lowRun := min 3 (s.frame.lowRun + 1) } }) ∧
      (r.toNat < rec.threshold.toNat → s.frame.lowRun = 2 →
        t.frame = { s.frame with lowRun := 3, lockSupply := true } ∧ t.faultShown .lockSupply 0 ∧
        OnlyFaults { s with frame := t.frame } t) ∧
      (rec.threshold.toNat ≤ r.toNat → s.frame.lockSupply = false →
        t = { s with frame := { s.frame with lowRun := 0 } }) ∧
      (rec.threshold.toNat ≤ r.toNat → s.frame.lockSupply = true →
        t.frame.lowRun = 0 ∧ t.frame.lockSupply = false ∧ t.faultOver .lockSupply 0 ∧
        (∀ n, leverOk n = true →
          let fresh := s.hasLock n = true ∧ (s.lever n).command = .free ∧ (s.lever n).readback = false
          (fresh → t.lever n = { s.lever n with window := some s.now }) ∧ (¬fresh → t.lever n = s.lever n)) ∧
        t.frame = { others with levers := t.frame.levers } ∧ OnlyEval s t) := by
  intro t others
  refine ⟨fun h => ?_, fun rec hr => ?_⟩
  · change s.supplySample r = s
    unfold State.supplySample; rw [h]
  · have sample : t = s.supplySample r := rfl
    unfold State.supplySample at sample; rw [hr] at sample; dsimp only at sample
    refine ⟨fun hlow hrun => ?_, fun hlow hrun => ?_, fun hlow hs => ?_, fun hlow hs => ?_⟩
    · rw [if_pos hlow, decide_eq_false hrun, Bool.or_false, if_neg Bool.false_ne_true] at sample
      exact sample
    · rw [if_pos hlow, decide_eq_true hrun, Bool.or_true, if_pos rfl, hrun] at sample
      have only := State.raise_onlyFaults (c := .lockSupply) rfl false 0 { s with frame := { s.frame with lowRun := 3, lockSupply := true } }
      have frame : t.frame = { s.frame with lowRun := 3, lockSupply := true } := by rw [sample]; exact only.frame_eq
      refine ⟨frame, by rw [sample]; exact State.raise_shown _ _ _, ?_⟩
      rw [frame, sample]; exact only
    · rw [if_neg (Nat.not_lt.2 hlow), if_neg (by rw [hs]; exact Bool.false_ne_true)] at sample
      rw [← hs] at sample; exact sample
    · rw [if_neg (Nat.not_lt.2 hlow), if_pos hs] at sample
      have ended := State.endFault_only .lockSupply 0 ({ s with frame := { s.frame with lowRun := 0, lockSupply := false } } : State)
      have ends := State.endFault_over .lockSupply 0 ({ s with frame := { s.frame with lowRun := 0, lockSupply := false } } : State)
      generalize State.endFault .lockSupply 0 _ = u at sample ended ends
      have lever : ∀ n, u.lever n = s.lever n := fun n => by obtain ⟨_, _, rfl⟩ := ended; rfl
      have lock : ∀ n, u.hasLock n = s.hasLock n := fun n => by obtain ⟨_, _, rfl⟩ := ended; rfl
      have now : u.now = s.now := by obtain ⟨_, _, rfl⟩ := ended; rfl
      have levers := fun n hn => State.freshWindows_lever (n := n) hn u
      have only := State.freshWindows_onlyLevers u
      rw [← sample] at levers only
      refine ⟨?_, ?_, ?_, fun n hn => ?_, ?_, ?_⟩
      · obtain ⟨_, h⟩ := only; rw [h]; obtain ⟨_, _, rfl⟩ := ended; rfl
      · obtain ⟨_, h⟩ := only; rw [h]; obtain ⟨_, _, rfl⟩ := ended; rfl
      · obtain ⟨_, h⟩ := only
        exact (State.faultOver_congr (congrArg State.faults h)).2 ends
      · rw [levers n hn]; unfold State.windowed; rw [lever, lock, now]
        refine ⟨fun h => if_pos (by simp [h]), fun h => if_neg fun hb => h ?_⟩
        simpa [and_assoc] using hb
      · obtain ⟨_, h⟩ := only
        obtain ⟨_, _, rfl⟩ := ended
        change t.frame = { s.frame with lowRun := t.frame.lowRun, lockSupply := t.frame.lockSupply, levers := t.frame.levers }
        rw [h]
      · obtain ⟨_, h⟩ := only
        obtain ⟨_, _, rfl⟩ := ended
        rw [h]; exact ⟨_, _, _, rfl⟩

/-- Settles O33, by whether the readback agrees with the command. -/
theorem readbacks : Obligations.Readbacks := by
  refine ⟨fun s n on hn => ?_, fun s n hn => ?_, supplySample_readback⟩
  · intro l agrees raisesStuck raisesDrive endsDrive endsStuck heard
    have taken := exec_lockReadbackChange hn on s
    have heard_eq : heard = s.updLever n (LeverState.heard on s.frame.lockSupply) := rfl
    refine ⟨fun h => ?_, fun h hk => ?_, fun h hk => ?_⟩
    · rw [taken]; exact congrArg Host.Outcome.next (if_pos h)
    · rw [taken]; exact congrArg Host.Outcome.next ((if_neg h).trans (if_neg (by rw [hk]; exact Bool.false_ne_true)))
    · have locked : s.readbackChange n on = s.lockedReadback n on := (if_neg h).trans (if_pos hk)
      rw [locked] at taken
      refine ⟨fun h1 h2 h3 h4 => ?_, ⟨_, taken, fun hl he => ?_, fun hl he => ?_, fun h => ?_, fun h => ?_, fun h => ?_⟩⟩
      · rw [taken, heard_eq]; exact congrArg Host.Outcome.next (State.lockedReadback_quiet hn on s h1 h2 h3 h4)
      · obtain ⟨rfl, he⟩ := he; exact (State.lockedReadback_over hl).1 he
      · obtain ⟨rfl, he⟩ := he; exact (State.lockedReadback_over hl).2 he
      · rw [heard_eq]; exact State.lockedReadback_onlyFaults hn on s h
      · obtain ⟨rfl, hc, hw, hs⟩ := h; exact State.lockedReadback_drive hc hw hs
      · obtain ⟨rfl, hc, hw⟩ := h
        obtain ⟨shown, reg, supply, ⟨v, b, own⟩, held, others⟩ := State.lockedReadback_stuck hn hc hw
        rw [own]
        exact ⟨shown, supply, reg, rfl, rfl, hw, rfl, rfl, held, others, State.lockedReadback_only _ _ _⟩
  · intro l due
    have iff : s.windowDue n = true ↔ due := s.windowDue_iff n
    have taken := exec_readbackWindowClose hn s
    refine ⟨fun h => ?_, fun h ha => ?_, fun h hc hr hs => ?_, fun h hc hr => ?_⟩
    · rw [taken, if_neg (mt iff.1 h)]
    · rw [taken, if_pos (iff.2 h), State.closeWindow_agrees ha]
    · rw [if_pos (iff.2 h)] at taken
      exact ⟨_, taken, State.closeWindow_drive hn hc hr hs⟩
    · rw [if_pos (iff.2 h)] at taken
      obtain ⟨shown, reg, supply, ⟨v, b, own⟩, held, others⟩ := State.closeWindow_stuck hn hc hr
      refine ⟨_, taken, shown, supply, reg, ?_⟩
      rw [own]
      exact ⟨rfl, rfl, hr, rfl, held, others, State.closeWindow_only _ _⟩

/-! ### O29, O30: contacts and moves of the levers -/

/-- What an evaluation and a cut of the frame supply leave of a lever: all but its verdict and what its lock command
brings. -/
def LeverState.Judged (l r : LeverState) : Prop := ∃ v b c a d e, r =
  { l with verdict := v, blocking := b, command := c, commandTime := a, window := d, driveActive := e }

theorem LeverState.Judged.refl (l : LeverState) : l.Judged l := ⟨_, _, _, _, _, _, rfl⟩

theorem LeverState.Judged.trans {l r x : LeverState} (h : l.Judged r) (g : r.Judged x) : l.Judged x := by
  obtain ⟨_, _, _, _, _, _, rfl⟩ := h; obtain ⟨v, b, c, a, d, e, rfl⟩ := g
  exact ⟨v, b, c, a, d, e, rfl⟩

namespace State

theorem evaluate_judged (cause : LockCause) (s : State) (n : Nat) : (s.lever n).Judged ((s.evaluate cause).lever n) :=
  evaluate_lever_same cause s n

/-- A lever moved by `f`, and what follows it up to an evaluation reaches the list and the link alone. -/
structure MovedBy (n : Nat) (f : LeverState → LeverState) (s t : State) : Prop where
  lever : (f (s.lever n)).Judged (t.lever n)
  others : OtherLevers n s t
  supply : t.frame.supplyOn = s.frame.supplyOn
  only : OnlyEval s t
  fresh : t.verdictsFresh

theorem movedBy_evaluate {n : Nat} (hn : leverOk n = true) {f : LeverState → LeverState} {s u : State}
    (h : OnlyFaults (s.updLever n f) u) (cause : LockCause) : MovedBy n f s (u.evaluate cause) where
  lever := by
    have judged := evaluate_judged cause u n
    rwa [lever_of_onlyFaults h, lever_updLever_same hn] at judged
  others := by
    refine OtherLevers.trans (t := u) (otherLevers_of_updLever fun k => lever_of_onlyFaults h k) fun k _ => ?_
    obtain ⟨_, _, _, _, _, _, h⟩ := evaluate_judged cause u k
    rw [h]; exact ⟨rfl, rfl, rfl, rfl, rfl⟩
  supply := (evaluate_supplyOn cause u).trans ((congrArg FrameUnit.supplyOn h.frame_eq).trans rfl)
  only := ((updLever_only n f s).trans h.eval).trans (evaluate_only cause u)
  fresh := evaluate_verdictsFresh cause u

theorem onlyFaults_leverReport {s t : State} (h : OnlyFaults s t) (n row : Nat) (d : List Byte) :
    OnlyFaults s (t.leverReport n row d) := h.trans (leverReport_only n row d t).faults

/-- R23, R24, R41: the end of LEVER_CONTACT. -/
theorem onlyFaults_endContact {n : Nat} (hn : leverOk n = true) {f : LeverState → LeverState} {s t : State}
    (h : OnlyFaults (s.updLever n f) t) :
    OnlyFaults (s.updLever n fun l => { f l with contactActive := false }) (t.endContact n) := by
  have ends := (h.updLever n fun l => { l with contactActive := false }).trans (endIf_only (t.lever n).contactActive .leverContact n _)
  rw [updLever_updLever hn] at ends
  exact ends

theorem onlyFaults_endForced {n : Nat} (hn : leverOk n = true) {f : LeverState → LeverState} {s t : State}
    (h : OnlyFaults (s.updLever n f) t) :
    OnlyFaults (s.updLever n fun l => { f l with forcedActive := false }) (t.endForced n) := by
  have ends := (h.updLever n fun l => { l with forcedActive := false }).trans (endIf_only (t.lever n).forcedActive .leverForced n _)
  rw [updLever_updLever hn] at ends
  exact ends

theorem endContact_over {n : Nat} {s : State} (h : (s.lever n).contactActive = true) : (s.endContact n).faultOver .leverContact n :=
  endIf_over .leverContact n fun hb => absurd (hb.symm.trans h) Bool.false_ne_true

theorem endForced_over {n : Nat} {s : State} (h : (s.lever n).forcedActive = true) : (s.endForced n).faultOver .leverForced n :=
  endIf_over .leverForced n fun hb => absurd (hb.symm.trans h) Bool.false_ne_true

theorem endForced_keeps_over {c : FaultClass} {o : Nat} (n : Nat) {s : State} (h : s.faultOver c o) : (s.endForced n).faultOver c o :=
  endIf_keeps_over (s.lever n).forcedActive .leverForced n h

end State

/-- R22, R24: a lever proved at an end, its conditions over. -/
def LeverState.homeAt (e : LeverEnd) (l : LeverState) : LeverState :=
  { l with position := e.position, lastProved := some e, notHome := false, contactActive := false, forcedActive := false }

/-- R23, R24: a lever under way, its LEVER_CONTACT over. -/
def LeverState.underWay (now : Time) (l : LeverState) : LeverState :=
  { l with position := .transit, transitSince := now, notHome := false, contactActive := false }

/-- R24: a lever with both contacts made. -/
def LeverState.faulted (l : LeverState) : LeverState :=
  { l with position := .contactFault, provedBeforeFault := l.position.provedEnd.isSome, notHome := false, contactActive := true }

namespace State

variable {n : Nat} (hn : leverOk n = true) (s : State)
include hn

/-- R24, R27, R28: a lever proved without a judgement. -/
theorem proveQuietly_spec (row : Nat) (d : List Byte) (e : LeverEnd) :
    MovedBy n (LeverState.homeAt e) s (s.proveQuietly n row d e) ∧
    ((s.lever n).contactActive = true → (s.proveQuietly n row d e).faultOver .leverContact n) ∧
    ((s.lever n).forcedActive = true → (s.proveQuietly n row d e).faultOver .leverForced n) := by
  have proved : OnlyFaults (s.updLever n fun l => { l with position := e.position, lastProved := some e, notHome := false })
      ((s.proveAt n e).leverReport n row d) := onlyFaults_leverReport (.refl _) n row d
  have lever : ((s.proveAt n e).leverReport n row d).lever n =
      { s.lever n with position := e.position, lastProved := some e, notHome := false } :=
    (lever_of_onlyFaults proved n).trans (lever_updLever_same hn _ s)
  have contact := onlyFaults_endContact hn proved
  have level : (((s.proveAt n e).leverReport n row d).endContact n).lever n = { s.lever n with
      position := e.position, lastProved := some e, notHome := false, contactActive := false } :=
    (lever_of_onlyFaults contact n).trans (lever_updLever_same hn _ s)
  refine ⟨movedBy_evaluate hn (onlyFaults_endForced hn contact) .verdict, fun h => ?_, fun h => ?_⟩
  · exact evaluate_keeps_over _ (endForced_keeps_over n (endContact_over (by rw [lever]; exact h)))
  · exact evaluate_keeps_over _ (endForced_over (by rw [level]; exact h))

/-- R24: a stroke that continues. -/
theorem continueStroke_spec : MovedBy n (LeverState.underWay s.now) s (s.continueStroke n) ∧
    ((s.lever n).contactActive = true → (s.continueStroke n).faultOver .leverContact n) := by
  have lever : (s.enterTransit n).lever n = { s.lever n with position := .transit, transitSince := s.now, notHome := false } :=
    lever_updLever_same hn _ s
  have started : OnlyFaults (s.updLever n fun l => { l with position := .transit, transitSince := s.now, notHome := false })
      (s.enterTransit n) := .refl _
  refine ⟨movedBy_evaluate hn (onlyFaults_endContact hn started) .verdict, fun h => ?_⟩
  exact evaluate_keeps_over _ (endContact_over (by rw [lever]; exact h))

/-- R24: the entry into CONTACT_FAULT. -/
theorem enterContactFault_spec : MovedBy n LeverState.faulted s (s.enterContactFault n) ∧
    (s.enterContactFault n).faultShown .leverContact n := by
  have raised := (onlyFaults_leverReport (.refl (s.updLever n LeverState.faulted)) n 7 []).trans
    (raise_onlyFaults (c := .leverContact) rfl false n _)
  exact ⟨movedBy_evaluate hn raised .verdict, evaluate_keeps_shown _ (by simp) (raise_shown _ _ _)⟩

end State

namespace State

/-- R25: a departure up to its evaluation. -/
theorem departs_spec {n : Nat} (hn : leverOk n = true) (row : Nat) (d : List Byte) (s : State) :
    MovedBy n (LeverState.underWay s.now) s ((((s.enterTransit n).leverReport n row d).endContact n).evaluate .verdict) ∧
    ((s.lever n).contactActive = true →
      ((((s.enterTransit n).leverReport n row d).endContact n).evaluate .verdict).faultOver .leverContact n) := by
  have started : OnlyFaults (s.updLever n fun l => { l with position := .transit, transitSince := s.now, notHome := false })
      ((s.enterTransit n).leverReport n row d) := onlyFaults_leverReport (.refl _) n row d
  have lever : ((s.enterTransit n).leverReport n row d).lever n =
      { s.lever n with position := .transit, transitSince := s.now, notHome := false } :=
    (lever_of_onlyFaults started n).trans (lever_updLever_same hn _ s)
  refine ⟨movedBy_evaluate hn (onlyFaults_endContact hn started) .verdict, fun h => ?_⟩
  exact evaluate_keeps_over _ (endContact_over (by rw [lever]; exact h))

/-! #### R89: approach locks engaged -/

/-- What the engaging of approach locks is made of. -/
theorem engageLocks_keeps {P : State → Prop} (lock : ∀ a f s, P s → P (s.updLock a f))
    (report : ∀ c o e d s, P s → P (s.report c o e d)) (evaluate : ∀ c s, P s → P (s.evaluate c)) (n : Nat) (w : EngageCause)
    {s : State} (hs : P s) : P (s.engageLocks n w) := by
  refine forEach_inv (fun a u hu => ?_) _ s hs
  unfold State.engageLock; split
  · exact hu
  · dsimp only; split
    · split
      · exact evaluate _ _ (report _ _ _ _ _ (lock a _ u hu))
      · exact report _ _ _ _ _ (lock a _ u hu)
    · exact hu

/-- Whether an engaging of the locks of a lever engages a lock. -/
def engages (s : State) (n a : Nat) : Bool :=
  ((s.approachRec a).any fun rec => rec.signal.toNat == n) && (s.lockn a).phase != .engaged

/-- R89: an approach lock after its lever has engaged it. -/
def engagedBy (s : State) (n a : Nat) : ApproachState :=
  if s.engages n a then { s.lockn a with phase := .engaged, remaining := none, since := s.now } else s.lockn a

theorem engageLock_cases (n : Nat) (w : EngageCause) (a : Nat) (s : State) :
    (s.engages n a = false ∧ s.engageLock n w a = s) ∨ (s.engages n a = true ∧
      OnlyEval (s.updLock a fun x => { x with phase := .engaged, remaining := none, since := s.now }) (s.engageLock n w a)) := by
  unfold State.engageLock engages
  cases s.approachRec a with
  | none => exact .inl ⟨rfl, rfl⟩
  | some rec =>
    dsimp only
    by_cases h : rec.signal.toNat = n ∧ (s.lockn a).phase ≠ .engaged
    · right
      rw [if_pos h]
      refine ⟨by simp [h], ?_⟩
      have told := approachReport_only a 1 (w.code :: (if (s.lockn a).phase = .timing then remainingBytes (s.lockn a).remaining
        else absent16)) (s.updLock a fun x => { x with phase := .engaged, remaining := none, since := s.now })
      split
      · exact told.eval.trans (evaluate_only _ _)
      · exact told.eval
    · left
      rw [if_neg h]
      refine ⟨?_, rfl⟩
      rw [Bool.eq_false_iff]; simpa using h

theorem engages_congr {s t : State} (h : OnlyLocks s t) {n a : Nat} (hl : t.lockn a = s.lockn a) :
    t.engages n a = s.engages n a ∧ t.engagedBy n a = s.engagedBy n a := by
  have same : t.engages n a = s.engages n a := by unfold engages; rw [h.approachRec_eq, hl]
  refine ⟨same, ?_⟩
  unfold engagedBy; rw [same, hl, h.now_eq]

theorem engageLock_step (n : Nat) (w : EngageCause) :
    LockStep (engageLock n w) (fun s a => s.engagedBy n a) (fun _ _ => none) where
  only a s := by
    rcases engageLock_cases n w a s with ⟨-, h⟩ | ⟨-, h⟩
    · rw [h]; exact OnlyLocks.refl s
    · exact (onlyLocks_updLock _ _ s).trans h.locks
  step a ha s := by
    unfold engagedBy
    rcases engageLock_cases n w a s with ⟨he, h⟩ | ⟨he, h⟩
    · rw [h, he]; exact ⟨rfl, fun _ _ => rfl, (List.append_nil _).symm⟩
    · rw [he]
      exact ⟨(h.lockn_eq a).trans (lockn_updLock_same ha _ s), fun b hb => (h.lockn_eq b).trans (lockn_updLock_of_ne hb _ s),
        h.notices_eq.trans (List.append_nil _).symm⟩
  congr h _ hl := ⟨(engages_congr h hl).2, rfl⟩

theorem engageLocks_lockn (n : Nat) (w : EngageCause) {a : Nat} (ha : lockOk a = true) (s : State) :
    (s.engageLocks n w).lockn a = s.engagedBy n a := (engageLock_step n w).fold_lockn s ha

theorem engageLocks_notices (n : Nat) (w : EngageCause) (s : State) : (s.engageLocks n w).notices = s.notices := by
  refine ((engageLock_step n w).fold_notices s).trans ?_
  rw [List.filterMap_eq_nil_iff.2 fun _ _ => rfl, List.append_nil]

theorem engageLocks_only' (n : Nat) (w : EngageCause) (s : State) : OnlyLocks s (s.engageLocks n w) :=
  (engageLock_step n w).fold_only s

/-- R89: what the engaging leaves of the levers. -/
theorem engageLocks_judged (n : Nat) (w : EngageCause) (s : State) (k : Nat) :
    (s.lever k).Judged ((s.engageLocks n w).lever k) := by
  refine engageLocks_keeps (P := fun u => (s.lever k).Judged (u.lever k)) (fun _ _ _ hu => hu) (fun _ _ _ _ u hu => ?_)
    (fun c u hu => hu.trans (evaluate_judged c u k)) n w (.refl _)
  rw [State.report_lever]; exact hu

/-- R89: what the engaging leaves of the list and of the frame supply. -/
theorem engageLocks_keeps_over {c : FaultClass} {o : Nat} (n : Nat) (w : EngageCause) {s : State} (h : s.faultOver c o) :
    (s.engageLocks n w).faultOver c o :=
  engageLocks_keeps (P := State.faultOver c o) (fun _ _ _ hu => hu) (fun _ _ _ _ _ hu => (report_faultOver _ _ _ _ _).2 hu)
    (fun c _ hu => evaluate_keeps_over c hu) n w h

theorem engageLocks_keeps_shown {c : FaultClass} {o : Nat} (hc : c ≠ .lockDrive) (n : Nat) (w : EngageCause) {s : State}
    (h : s.faultShown c o) : (s.engageLocks n w).faultShown c o :=
  engageLocks_keeps (P := State.faultShown c o) (fun _ _ _ hu => hu) (fun _ _ _ _ _ hu => (report_faultShown _ _ _ _ _).2 hu)
    (fun c _ hu => evaluate_keeps_shown c hc hu) n w h

theorem engageLocks_supplyOn (n : Nat) (w : EngageCause) (s : State) : (s.engageLocks n w).frame.supplyOn = s.frame.supplyOn :=
  engageLocks_keeps (P := fun u => u.frame.supplyOn = s.frame.supplyOn) (fun _ _ _ hu => hu)
    (fun _ _ _ _ u hu => (congrArg FrameUnit.supplyOn (State.report_frame _ _ _ _ u)).trans hu)
    (fun c u hu => (evaluate_supplyOn c u).trans hu) n w rfl

/-- R36: a frame supply that is off, with every lock HELD. -/
def allHeld (s : State) : Prop :=
  s.frame.supplyOn = false ∧ ∀ m, leverOk m = true → s.hasLock m = true → (s.lever m).command = .held

theorem evaluate_allHeld (c : LockCause) {s : State} (h : s.frame.supplyOn = false) : (s.evaluate c).allHeld := by
  refine ⟨(evaluate_supplyOn c s).trans h, fun m hm hk => ?_⟩
  have lock : s.hasLock m = true := by obtain ⟨_, _, _, hs⟩ := evaluate_only c s; rw [hs] at hk; exact hk
  have goes := evaluate_command c hm lock
  rw [wantsFree_of_cut h] at goes
  cases hc : ((s.evaluate c).lever m).command with
  | held => rfl
  | free => exact nomatch goes.1 hc

theorem engageLocks_allHeld (n : Nat) (w : EngageCause) {s : State} (h : s.allHeld) : (s.engageLocks n w).allHeld := by
  refine engageLocks_keeps (P := State.allHeld) (fun _ _ _ hu => hu) (fun c o e d u hu => ?_)
    (fun c u hu => evaluate_allHeld c hu.1) n w h
  refine ⟨(congrArg FrameUnit.supplyOn (State.report_frame _ _ _ _ u)).trans hu.1, fun m hm hk => ?_⟩
  rw [State.report_lever]
  obtain ⟨_, hr⟩ := State.report_only c o e d u
  rw [hr] at hk
  exact hu.2 m hm hk

theorem engageLocks_frameCut (n : Nat) (w : EngageCause) (s : State) :
    (s.engageLocks n w).faults.frameCut = s.faults.frameCut := by
  have ended : ∀ c o (u : State), (u.endFault c o).faults.frameCut = u.faults.frameCut := fun c o u => by
    obtain ⟨_, -, h⟩ := u.endFault_faults c o; rw [h]
  have report : ∀ c o e d (u : State), (u.report c o e d).faults.frameCut = u.faults.frameCut := fun c o e d u => by
    rw [State.report_faults]
  refine engageLocks_keeps (P := fun u => u.faults.frameCut = s.faults.frameCut) (fun _ _ _ hu => hu)
    (fun _ _ _ _ u hu => (report _ _ _ _ u).trans hu) (fun c u hu => ?_) n w rfl
  exact evaluate_keeps (P := fun u => u.faults.frameCut = s.faults.frameCut) (fun _ _ _ _ v hv => (report _ _ _ _ v).trans hv)
    (fun o v hv => (ended _ o v).trans hv) (fun _ _ _ hv => hv) c hu

end State

theorem LeverState.Judged.marked {l r : LeverState} (h : l.Judged r) (x : Bool) :
    ({ l with forcedActive := x } : LeverState).Judged { r with forcedActive := x } := by
  obtain ⟨v, b, c, a, d, e, rfl⟩ := h; exact ⟨v, b, c, a, d, e, rfl⟩

theorem otherLevers_of_judged {s t : State} (h : ∀ k, (s.lever k).Judged (t.lever k)) (n : Nat) : OtherLevers n s t := fun k _ => by
  obtain ⟨_, _, _, _, _, _, h⟩ := h k
  rw [h]; exact ⟨rfl, rfl, rfl, rfl, rfl⟩

namespace State

/-- R25, R26: a lever's lock has been HELD longer than the travel time. -/
theorem forced_iff (s : State) (n : Nat) : s.forced n = true ↔
    (∃ rec, s.leverRec n = some rec ∧ rec.flags.getLsbD 0 = true) ∧ (s.lever n).command = .held ∧
      s.travelTime < s.now - (s.lever n).commandTime := by
  unfold State.forced; rw [Bool.and_eq_true, Bool.and_eq_true, hasLock_iff, and_assoc]
  simp

/-- R36: what a raise of LEVER_FORCED leaves, with its mark on the lever. -/
theorem forcedRaise_spec {n : Nat} (hn : leverOk n = true) (m : Bool) (b : Bool) {s : State}
    (h : s.frame.supplyOn = false → s.allHeld) :
    let u := (s.updLever n fun l => { l with forcedActive := b }).raiseWith m .leverForced n
    u.allHeld ∧ u.faults.frameCut = true ∧ ({ s.lever n with forcedActive := b } : LeverState).Judged (u.lever n) ∧
    OtherLevers n s u ∧ OnlyEval s u := by
  intro u
  obtain ⟨cut, reg⟩ := cutRaise_spec (c := .leverForced) rfl m n (s.updLever n fun l => { l with forcedActive := b })
  have marked := lever_updLever_same hn (fun l => { l with forcedActive := b }) s
  refine ⟨⟨cut.supply, fun k hk hl => ?_⟩, reg, ?_, ?_, (updLever_only _ _ s).trans cut.only⟩
  · have lock : (s.updLever n fun l => { l with forcedActive := b }).hasLock k = true :=
      (hasLock_congr (congrArg TableStore.active cut.only.store_eq) k).symm.trans hl
    cases hs : s.frame.supplyOn with
    | true => exact cut.commands hs k hk lock
    | false =>
      have held : ((s.updLever n fun l => { l with forcedActive := b }).lever k).command = .held := by
        have before := (h hs).2 k hk lock
        rw [lever_updLever]; split
        · rename_i hkn; rw [← hkn.1]; exact before
        · exact before
      obtain ⟨_, _, hcut⟩ := cut.held k held
      rw [hcut]; exact held
  · have same : LeverState.Judged _ (u.lever n) := cut.same n
    rwa [marked] at same
  · exact OtherLevers.trans (t := s.updLever n fun l => { l with forcedActive := b }) (otherLevers_of_updLever fun _ => rfl)
      (cut.otherLevers n)

/-- R24, R25, R36, R89: a departure. -/
structure Departs (n : Nat) (e : LeverEnd) (s t : State) : Prop where
  lever : ({ (s.lever n).underWay s.now with forcedActive := s.forced n || (s.lever n).forcedActive } : LeverState).Judged (t.lever n)
  others : OtherLevers n s t
  ended : s.listLawful → (s.lever n).contactActive = true → t.faultOver .leverContact n
  free : s.forced n = false → t.frame.supplyOn = s.frame.supplyOn
  forced : s.forced n = true → t.allHeld ∧ t.faults.frameCut = true ∧ t.faultShown .leverForced n
  lock : ∀ a, lockOk a = true → t.lockn a = if e = .normal then s.engagedBy n a else s.lockn a
  notices : t.notices = s.notices

theorem depart_spec {n : Nat} (hn : leverOk n = true) (e : LeverEnd) (s : State) : Departs n e s (s.depart n e) := by
  -- the departure and its raise, before the approach locks are engaged
  have gone : ∃ u, s.depart n e = (if e = .normal then u.engageLocks n .departure else u) ∧ OnlyEval s u ∧
      ({ (s.lever n).underWay s.now with forcedActive := s.forced n || (s.lever n).forcedActive } : LeverState).Judged (u.lever n) ∧
      OtherLevers n s u ∧ (s.listLawful → (s.lever n).contactActive = true → u.faultOver .leverContact n) ∧
      (s.forced n = false → u.frame.supplyOn = s.frame.supplyOn) ∧
      (s.forced n = true → u.allHeld ∧ u.faults.frameCut = true ∧ u.faultShown .leverForced n) := by
    unfold State.depart; dsimp only
    cases hf : s.forced n with
    | false =>
      obtain ⟨moved, ended⟩ := departs_spec hn 1 [e.code] s
      refine ⟨_, rfl, ?_⟩
      rw [if_neg Bool.false_ne_true, if_neg Bool.false_ne_true, Bool.false_or]
      exact ⟨moved.only, moved.lever, moved.others, fun _ => ended, fun _ => moved.supply, fun h => nomatch h⟩
    | true =>
      obtain ⟨moved, ended⟩ := departs_spec hn 2 [e.code] s
      have held : ∀ v : State, (v.evaluate .verdict).frame.supplyOn = false → (v.evaluate .verdict).allHeld := fun v h =>
        evaluate_allHeld .verdict ((evaluate_supplyOn _ v).symm.trans h)
      refine ⟨_, rfl, ?_⟩
      rw [if_pos rfl, if_pos rfl, Bool.true_or]
      have held := held (((s.enterTransit n).leverReport n 2 [e.code]).endContact n)
      have agree : s.listLawful → ((((s.enterTransit n).leverReport n 2 [e.code]).endContact n).evaluate .verdict).faults.agree
          .leverContact n := fun hl => by
        have settling := (listed_agree .leverContact n).ordering.toSettling
        exact settling.evaluate _ _ (settling.firm.endContact n (settling.firm.report _ _ _ _ _ (listLawful_agree hl .leverContact n)))
      generalize State.evaluate .verdict _ = v at moved ended held agree ⊢
      obtain ⟨all, reg, judged, others, only⟩ := forcedRaise_spec hn false true held
      refine ⟨moved.only.trans only, (moved.lever.marked true).trans judged, moved.others.trans others, fun hl hc => ?_, fun h => absurd h.symm Bool.false_ne_true,
        fun _ => ⟨all, reg, raise_shown _ _ _⟩⟩
      exact raiseWith_leaves_over (c := .leverForced) (by simp) (agree hl) (ended hc)
  obtain ⟨u, hu, only, lever, others, ended, free, forced⟩ := gone
  rw [hu]
  have same : ∀ a, u.engagedBy n a = s.engagedBy n a := fun a => (engages_congr only.locks (only.lockn_eq a)).2
  by_cases he : e = .normal
  · rw [if_pos he]
    have judged := engageLocks_judged n .departure u
    refine ⟨lever.trans (judged n), others.trans (otherLevers_of_judged judged n), fun hl hc => engageLocks_keeps_over n _ (ended hl hc),
      fun h => (engageLocks_supplyOn n _ u).trans (free h), fun h => ?_, fun a ha => ?_, (engageLocks_notices n _ u).trans only.notices_eq⟩
    · obtain ⟨all, reg, shown⟩ := forced h
      exact ⟨engageLocks_allHeld n _ all, (engageLocks_frameCut n _ u).trans reg, engageLocks_keeps_shown (by simp) n _ shown⟩
    · rw [engageLocks_lockn n _ ha, if_pos he]; exact same a
  · rw [if_neg he]
    exact ⟨lever, others, ended, free, forced, fun a _ => (only.lockn_eq a).trans (if_neg he).symm, only.notices_eq⟩

end State

/-- R22: a lever that has come to a position. -/
def LeverState.movedTo (p : Position) (l : LeverState) : LeverState :=
  { l with position := p, lastProved := p.provedEnd <|> l.lastProved }

theorem LeverState.Judged.contacts {l r x : LeverState} (h : l.Judged r) (hx : x.SameContacts l) : x.SameContacts r := by
  obtain ⟨_, _, _, _, _, _, rfl⟩ := h; exact hx

theorem LeverEnd.provedEnd_position (e : LeverEnd) : e.position.provedEnd = some e := by cases e <;> rfl

namespace State

/-- R26: a completed move leaves a lever where it is proved. -/
theorem completeMove_contacts {n : Nat} (hn : leverOk n = true) (e : LeverEnd) (s : State) :
    ((s.lever n).movedTo e.position).SameContacts ((s.completeMove n e).lever n) := by
  have h := (contactsStand n ((s.lever n).movedTo e.position)).raising
  have proved : ((s.lever n).movedTo e.position).SameContacts ((s.proveAt n e).lever n) := by
    unfold State.proveAt; rw [lever_updLever_same hn]
    unfold LeverState.movedTo; rw [LeverEnd.provedEnd_position]; exact ⟨rfl, rfl, rfl, rfl, rfl⟩
  have noticed : ((s.lever n).movedTo e.position).SameContacts ((forEach (s.consumedBy n e) (State.sendNotice (.lever n))
      (((((s.proveAt n e).leverReport n 3 (e.code :: sequenceSet (s.consumedBy n e))).endContact n).endForced
        n).evaluate .verdict)).lever n) :=
    forEach_inv (P := fun u => ((s.lever n).movedTo e.position).SameContacts (u.lever n)) (fun q u => h.firm.notice _ q u) _ _
      (h.evaluate _ _ (h.rough.firm.endForced n (h.rough.firm.endContact n (h.rough.report _ _ _ _ _ proved))))
  unfold State.completeMove; dsimp only
  refine h.signalAtSections _ _ ?_
  cases e with
  | normal => exact h.replaceLocks n noticed
  | reverse => exact h.engageLocks n _ noticed

theorem forcedArrival_contacts {n : Nat} (hn : leverOk n = true) (e : LeverEnd) (s : State) :
    ((s.lever n).movedTo e.position).SameContacts ((s.forcedArrival n e).lever n) := by
  have h := (contactsStand n ((s.lever n).movedTo e.position)).raising
  have proved : ((s.lever n).movedTo e.position).SameContacts ((s.proveAt n e).lever n) := by
    unfold State.proveAt; rw [lever_updLever_same hn]
    unfold LeverState.movedTo; rw [LeverEnd.provedEnd_position]; exact ⟨rfl, rfl, rfl, rfl, rfl⟩
  have ended := h.raise true .leverForced n _ (FaultClass.names_of_frame (.inr rfl))
    (h.firm.lever n (fun l => { l with forcedActive := false }) _ ⟨rfl, rfl, rfl, rfl, rfl⟩ (.inr ⟨rfl, rfl, rfl, rfl, rfl⟩)
      (h.evaluate .verdict _ (h.rough.firm.endContact n (h.rough.report .lever n 4 [e.code] _ proved))))
  unfold State.forcedArrival; dsimp only
  cases e with
  | normal => exact ended
  | reverse => exact h.engageLocks n _ ended

theorem reachEnd_contacts {n : Nat} (hn : leverOk n = true) (e : LeverEnd) (s : State) :
    ((s.lever n).movedTo e.position).SameContacts ((s.reachEnd n e).lever n) := by
  have quiet : ∀ row d, ((s.lever n).movedTo e.position).SameContacts ((s.proveQuietly n row d e).lever n) := fun row d => by
    obtain ⟨moved, -⟩ := proveQuietly_spec hn s row d e
    refine moved.lever.contacts ?_
    unfold LeverState.movedTo LeverState.homeAt; rw [LeverEnd.provedEnd_position]; exact ⟨rfl, rfl, rfl, rfl, rfl⟩
  unfold State.reachEnd State.arrive; split
  · exact quiet _ _
  · split
    · split <;> exact quiet _ _
    · split
      · exact forcedArrival_contacts hn e s
      · exact completeMove_contacts hn e s

/-- R22: the lever's own contacts, position and proved end after a move. -/
theorem fittedMove_contacts {n : Nat} (hn : leverOk n = true) (p : Position) (s : State) :
    ((s.lever n).movedTo p).SameContacts ((s.fittedMove n p).lever n) := by
  have departs : ∀ e, ((s.lever n).movedTo .transit).SameContacts ((s.depart n e).lever n) := fun e =>
    (depart_spec hn e s).lever.contacts ⟨rfl, rfl, rfl, rfl, rfl⟩
  unfold State.fittedMove; dsimp only; split
  · obtain ⟨moved, -⟩ := enterContactFault_spec hn s
    exact moved.lever.contacts ⟨rfl, rfl, rfl, rfl, rfl⟩
  · exact reachEnd_contacts hn .normal s
  · exact reachEnd_contacts hn .reverse s
  · split
    · exact departs _
    · split
      · exact departs _
      · obtain ⟨moved, -⟩ := continueStroke_spec hn s
        exact moved.lever.contacts ⟨rfl, rfl, rfl, rfl, rfl⟩

/-- R22, R28: a lever that is not fitted. -/
theorem unfittedMove_spec {n : Nat} (hn : leverOk n = true) (p : Position) (s : State) :
    ((s.lever n).movedTo p).SameContacts ((s.unfittedMove n p).lever n) ∧
    ∃ f, OnlyLink (s.updLever n f) (s.unfittedMove n p) := by
  have ends : ∀ e : LeverEnd, OnlyLink (s.updLever n fun l => { l with position := e.position, lastProved := some e, notHome := false })
      (match (s.lever n).lastProved with
       | none => s.proveAt n e
       | some o =>
         if o ≠ e then (s.proveAt n e).leverReport n 10 [0, e.code]
         else if (s.lever n).position = .transit then (s.proveAt n e).leverReport n 10 [1, e.code]
         else s.proveAt n e) := fun e => by
    split
    · exact OnlyLink.refl _
    · split
      · exact leverReport_only n _ _ _
      · split
        · exact leverReport_only n _ _ _
        · exact OnlyLink.refl _
  have proved : ∀ (e : LeverEnd) t, OnlyLink (s.updLever n fun l => { l with position := e.position, lastProved := some e, notHome := false }) t →
      ((s.lever n).movedTo e.position).SameContacts (t.lever n) := fun e t h => by
    rw [lever_of_onlyFaults h.faults, lever_updLever_same hn]
    unfold LeverState.movedTo; rw [LeverEnd.provedEnd_position]; exact ⟨rfl, rfl, rfl, rfl, rfl⟩
  cases p with
  | normal => exact ⟨proved .normal _ (ends .normal), _, ends .normal⟩
  | reverse => exact ⟨proved .reverse _ (ends .reverse), _, ends .reverse⟩
  | transit =>
    refine ⟨?_, _, OnlyLink.refl _⟩
    unfold State.unfittedMove State.enterTransit; dsimp only; rw [lever_updLever_same hn]; exact ⟨rfl, rfl, rfl, rfl, rfl⟩
  | contactFault =>
    refine ⟨?_, _, OnlyLink.refl _⟩
    unfold State.unfittedMove; dsimp only; rw [lever_updLever_same hn]; exact ⟨rfl, rfl, rfl, rfl, rfl⟩

/-- R21: a lever's record as a contact is accepted. -/
def contacted (n : Nat) (nm rm : Bool) (s : State) : State :=
  s.updLever n fun x => { x with normalMade := nm, reverseMade := rm }

theorem exec_leverContactChange {n : Nat} (hn : leverOk n = true) (k : LeverContact) (made : Bool) (s : State) :
    exec (.leverContactChange n k made) s = .next (s.contactChange n k made) := by
  change onObject (leverOk n) _ = _
  rw [hn]; rfl

/-- R21, R22: a contact that changes the level it is held at. -/
theorem contactChange_eq {n : Nat} {k : LeverContact} {made : Bool} {s : State} {nm rm : Bool}
    (hnm : (if k = .normal then made else (s.lever n).normalMade) = nm)
    (hrm : (if k = .reverse then made else (s.lever n).reverseMade) = rm)
    (h : ¬(nm = (s.lever n).normalMade ∧ rm = (s.lever n).reverseMade)) : s.contactChange n k made =
      if s.leverFitted n then (s.contacted n nm rm).fittedMove n (positionOf nm rm)
      else (s.contacted n nm rm).unfittedMove n (positionOf nm rm) := by
  unfold State.contactChange; dsimp only
  rw [hnm, hrm, if_neg h]; rfl

end State

namespace State

theorem positionOf_eq (nm rm : Bool) : positionOf nm rm =
    (if nm = true ∧ rm = false then .normal else if nm = false ∧ rm = true then .reverse
     else if nm = false then .transit else .contactFault) := by cases nm <;> cases rm <;> rfl

theorem positionOf_end (e : LeverEnd) : positionOf (decide (e = .normal)) (decide (e = .reverse)) = e.position := by
  cases e <;> rfl

section Contacted

variable {n : Nat} (hn : leverOk n = true) (nm rm : Bool) (s : State)

include hn in
theorem contacted_lever : (s.contacted n nm rm).lever n = { s.lever n with normalMade := nm, reverseMade := rm } :=
  lever_updLever_same hn _ s

include hn in
theorem contacted_forced : (s.contacted n nm rm).forced n = s.forced n := by
  unfold State.forced; rw [contacted_lever hn]; rfl

end Contacted

/-- R24, R27, R28: a lever that comes home where it left, or for the first time. -/
theorem reachEnd_quiet {n : Nat} {e : LeverEnd} {s : State} (h : (s.lever n).lastProved = none ∨ (s.lever n).lastProved = some e) :
    ∃ row d, s.reachEnd n e = s.proveQuietly n row d e := by
  unfold State.reachEnd
  rcases h with h | h
  · rw [h]; exact ⟨_, _, rfl⟩
  · rw [h]; dsimp only; rw [if_pos rfl]; split
    · exact ⟨_, _, rfl⟩
    · exact ⟨_, _, rfl⟩

theorem fittedMove_end (n : Nat) (e : LeverEnd) (s : State) : s.fittedMove n e.position = s.reachEnd n e := by
  cases e <;> rfl

/-- R25: a lever that leaves a proved end, or a CONTACT_FAULT that began there. -/
theorem fittedMove_departs {n : Nat} {e : LeverEnd} {s : State} (h : (s.lever n).position = e.position ∨
    (s.lever n).position = .contactFault ∧ (s.lever n).provedBeforeFault = true ∧ (s.lever n).lastProved = some e) :
    s.fittedMove n .transit = s.depart n e := by
  unfold State.fittedMove; dsimp only
  rcases h with h | ⟨h1, h2, h3⟩
  · rw [h, LeverEnd.provedEnd_position]
  · rw [h1, h2, h3]; rfl

/-- R24: a stroke that continues, or an open pair that follows no proved end. -/
theorem fittedMove_continues {n : Nat} {s : State} (h : (s.lever n).position.provedEnd = none)
    (hc : ¬((s.lever n).position = .contactFault ∧ (s.lever n).provedBeforeFault = true ∧ (s.lever n).lastProved ≠ none)) :
    s.fittedMove n .transit = s.continueStroke n := by
  unfold State.fittedMove; dsimp only; rw [h]; dsimp only
  split
  · rename_i h1 h2 h3
    exact absurd ⟨h1, h2, by rw [h3]; exact Option.some_ne_none _⟩ hc
  · rfl

end State

/-- R21, R22: what every contact that changes its level leaves of the levers. -/
theorem contactChange_contacts {n : Nat} (hn : leverOk n = true) {k : LeverContact} {made : Bool} {s : State} {nm rm : Bool}
    (hnm : (if k = .normal then made else (s.lever n).normalMade) = nm)
    (hrm : (if k = .reverse then made else (s.lever n).reverseMade) = rm)
    (h : ¬(nm = (s.lever n).normalMade ∧ rm = (s.lever n).reverseMade)) :
    (({ s.lever n with normalMade := nm, reverseMade := rm } : LeverState).movedTo (positionOf nm rm)).SameContacts
      ((s.contactChange n k made).lever n) ∧ OtherLevers n s (s.contactChange n k made) := by
  refine ⟨?_, fun m hm =>
    (contactsStandBut (L := fun j => j = n) (n := m) hm (s.lever m)).raising.contactChange n k made rfl (.refl _)⟩
  rw [State.contactChange_eq hnm hrm h, ← State.contacted_lever hn nm rm s]
  split
  · exact State.fittedMove_contacts hn _ _
  · exact (State.unfittedMove_spec hn _ _).1

/-- Settles O29. -/
theorem leverContacts : Obligations.LeverContacts := by
  intro s n k made hn nm rm
  have hN : (if k = .normal then made else (s.lever n).normalMade) = nm := rfl
  have hR : (if k = .reverse then made else (s.lever n).reverseMade) = rm := rfl
  have taken := State.exec_leverContactChange hn k made s
  refine ⟨fun h1 h2 => taken.trans (congrArg Host.Outcome.next (if_pos ⟨h1, h2⟩)), fun h => ?_⟩
  clear_value nm rm
  obtain ⟨⟨c1, c2, c3, c4, c5⟩, others⟩ := contactChange_contacts hn hN hR h
  have eq := State.contactChange_eq hN hR h
  have read := State.contacted_lever hn nm rm s
  have made_only : OnlyEval s (s.contacted n nm rm) := State.updLever_only n _ s
  refine ⟨_, taken, c1, c2, c3, c4.trans (State.positionOf_eq nm rm), others, State.contactChange_only n k made s,
    fun e hf hnm hrm hl => ?_, fun hf hnm hrm => ?_, fun hf hnm hrm hp hc => ?_, fun hf => ?_⟩
  · have home : positionOf nm rm = e.position := by rw [hnm, hrm]; exact State.positionOf_end e
    rw [eq, if_pos hf, home, State.fittedMove_end]
    obtain ⟨row, d, quiet⟩ := State.reachEnd_quiet (s := s.contacted n nm rm) (n := n) (e := e) (by rw [read]; exact hl)
    rw [quiet]
    obtain ⟨moved, contact, forced⟩ := State.proveQuietly_spec hn (s.contacted n nm rm) row d e
    obtain ⟨_, _, _, _, _, _, level⟩ := moved.lever
    rw [read] at contact forced
    rw [level]
    exact ⟨rfl, rfl, rfl, rfl, contact, forced, moved.supply, moved.fresh, made_only.trans moved.only⟩
  · have fault : positionOf nm rm = .contactFault := by rw [hnm, hrm]; rfl
    have moves : s.contactChange n k made = (s.contacted n nm rm).enterContactFault n := by rw [eq, if_pos hf, fault]; rfl
    obtain ⟨moved, shown⟩ := State.enterContactFault_spec hn (s.contacted n nm rm)
    obtain ⟨_, _, _, _, _, _, level⟩ := moved.lever
    rw [read] at level
    rw [moves, level]
    exact ⟨rfl, shown, rfl, rfl, rfl, moved.supply, moved.fresh, made_only.trans moved.only⟩
  · have transit : positionOf nm rm = .transit := by rw [hnm, hrm]; rfl
    rw [eq, if_pos hf, transit, State.fittedMove_continues (s := s.contacted n nm rm) (by rw [read]; exact hp) (by rw [read]; exact hc)]
    obtain ⟨moved, contact⟩ := State.continueStroke_spec hn (s.contacted n nm rm)
    obtain ⟨_, _, _, _, _, _, level⟩ := moved.lever
    rw [read] at contact level
    rw [level]
    exact ⟨rfl, rfl, rfl, contact, rfl, moved.supply, moved.fresh, made_only.trans moved.only⟩
  · obtain ⟨-, f, only⟩ := State.unfittedMove_spec hn (positionOf nm rm) (s.contacted n nm rm)
    have eq : s.contactChange n k made = (s.contacted n nm rm).unfittedMove n (positionOf nm rm) :=
      eq.trans (if_neg (by rw [hf]; exact Bool.false_ne_true))
    refine ⟨c5.trans ?_, ?_⟩
    · cases nm <;> cases rm <;> rfl
    · rw [eq]
      obtain ⟨_, h⟩ := only
      rw [h]
      exact ⟨rfl, rfl, _, _, _, rfl⟩

/-- Settles O30. -/
theorem leverDepartures : Obligations.LeverDepartures := by
  intro s n k made e hn hf nm rm
  have hN : (if k = .normal then made else (s.lever n).normalMade) = nm := rfl
  have hR : (if k = .reverse then made else (s.lever n).reverseMade) = rm := rfl
  clear_value nm rm
  intro h hnm hrm hp
  have read := State.contacted_lever hn nm rm s
  have departs : s.contactChange n k made = (s.contacted n nm rm).depart n e := by
    refine (State.contactChange_eq hN hR h).trans ((if_pos hf).trans ?_)
    rw [show positionOf nm rm = .transit by rw [hnm, hrm]; rfl]
    exact State.fittedMove_departs (s := s.contacted n nm rm) (by rw [read]; exact hp)
  have spec := State.depart_spec hn e (s.contacted n nm rm)
  have fresh : ((s.contacted n nm rm).depart n e).verdictsFresh :=
    Locking.verdicts.ordering.raising.depart n e trivial trivial
  have others := (contactChange_contacts hn hN hR h).2
  have field := State.contactChange_only n k made s
  rw [departs] at others field
  refine ⟨_, (State.exec_leverContactChange hn k made s).trans (congrArg Host.Outcome.next departs), ?_⟩
  beta_reduce
  intro forced
  have forced_iff : (s.contacted n nm rm).forced n = true ↔ forced := by
    rw [State.contacted_forced hn]; exact s.forced_iff n
  obtain ⟨_, _, _, _, _, _, level⟩ := spec.lever
  rw [read] at level
  have ended := spec.ended
  rw [read] at ended
  rw [level]
  refine ⟨rfl, rfl, rfl, rfl, rfl, ended, fresh, fun hno => ?_, fun hyes => ?_, fun a ha => ?_, spec.notices, others, field⟩
  · have off := Bool.eq_false_iff.2 (mt forced_iff.1 hno)
    refine ⟨spec.free off, ?_⟩
    dsimp only; rw [off]; rfl
  · have on := forced_iff.2 hyes
    obtain ⟨all, reg, shown⟩ := spec.forced on
    refine ⟨?_, shown, all.1, reg, fun m hm hk => all.2 m hm ?_⟩
    · dsimp only; rw [on]; rfl
    · refine (State.hasLock_congr ?_ m).trans hk
      obtain ⟨_, _, _, _, _, _, _, _, h⟩ := field
      rw [h]
  · rw [spec.lock a ha]
    have engaged : (s.contacted n nm rm).engagedBy n a = s.engagedBy n a := (State.engages_congr (State.updLever_only n _ s).locks rfl).2
    rw [engaged]
    refine ⟨fun rec hr hs he => ?_, fun hno => ?_⟩
    · rw [if_pos he]
      unfold State.engagedBy State.engages
      rw [hr]
      cases hph : (s.lockn a).phase <;> simp [hs, hph]
    · split
      · rename_i he
        unfold State.engagedBy
        rw [if_neg]
        intro hy
        unfold State.engages at hy
        rw [Bool.and_eq_true, Option.any_eq_true] at hy
        obtain ⟨⟨rec, hr, hs⟩, -⟩ := hy
        exact hno ⟨he, rec, hr, by simpa using hs⟩
      · rfl

/-! ### O31: a list that names one condition twice -/

/-- A section whose signal is lever 2. -/
def twoSignalsSection (letter : Byte) : SectionRec := ⟨letter, 1, 2, 255, 255, 255, 255, 0, 200, 80⟩

/-- An entry of BLOCK_IRREGULAR of section B that has ended. -/
def irregularEntryB (unmasked : Bool) : FaultEntry := ⟨.blockIrregular, 1, 0, 0, false, 1, unmasked, false⟩

/-- Lever 2 in TRANSIT, the signal of the sections A and B. BLOCK_IRREGULAR is masked, and the full list holds two entries
of it for section B, the first of them raised under the mask: no list that obeys R157 names a condition twice. -/
def doublyListed : State :=
  let s : State :=
    { store := { part := .running, active := some ⟨[.lever ⟨2, 0, 0, [], []⟩, .blockSection (twoSignalsSection 0),
        .blockSection (twoSignalsSection 1)], 0⟩ }
      faults :=
        { masked := 1#16 <<< FaultClass.blockIrregular.number
          entries := [irregularEntryB false, irregularEntryB true] ++
            (List.range 14).map fun k => ⟨.trackChannel, k, 0, 0, true, 1, false, false⟩ } }
  s.updLever 2 fun l => { l with position := .transit, lastProved := some .normal }

/-- The raise of section A displaces B's first entry, and that of section B then finds the second. -/
theorem doublyListed_freezes :
    ((doublyListed.contactChange 2 .reverse true).sectn .b).frozen = true ∧ (doublyListed.sectn .b).frozen = false := by
  decide +kernel

/-- Refutes O31: in `doublyListed` the completed move of lever 2 freezes section B, whose BLOCK_IRREGULAR is masked in the
set and on its entry. -/
theorem not_arrivals : ¬ Obligations.Arrivals := by
  intro h
  obtain ⟨-, -, t, taken, h⟩ := h doublyListed 2 .reverse true .reverse (by decide) (by decide +kernel) (by decide +kernel)
    (by decide +kernel) (by decide +kernel) (by decide +kernel)
  obtain rfl : doublyListed.contactChange 2 .reverse true = t :=
    Host.Outcome.next.inj ((State.exec_leverContactChange (by decide) .reverse true doublyListed).symm.trans taken)
  obtain ⟨-, -, -, -, -, -, -, -, -, move, -⟩ := h
  have unforced : ¬((∃ rec, doublyListed.leverRec 2 = some rec ∧ rec.flags.getLsbD 0 = true) ∧
      (doublyListed.lever 2).command = .held ∧
      doublyListed.travelTime < doublyListed.now - (doublyListed.lever 2).commandTime) := fun hf =>
    absurd ((doublyListed.forced_iff 2).2 hf) (by decide +kernel)
  obtain ⟨-, -, -, -, -, -, -, sections⟩ := move unforced
  obtain ⟨-, -, stands, -⟩ := (sections .b).2 (twoSignalsSection 1) (by decide +kernel) (by decide) rfl
  obtain ⟨frozen, free⟩ := doublyListed_freezes
  have same := stands (by decide +kernel) ?_
  · rw [same, free] at frozen; exact nomatch frozen
  · rintro (hm | ⟨f, hf, hu⟩)
    · exact absurd hm (by decide +kernel)
    · obtain rfl : irregularEntryB false = f := Option.some.inj hf
      exact nomatch hu

/-! ### O23: COMMISSION -/

namespace State

/-- R182: no report, no end and no evaluation forms a reply. -/
theorem report_replies (c : Category) (o e : Nat) (d : List Byte) (s : State) :
    (s.report c o e d).link.replies = s.link.replies := by
  unfold State.report; split
  · dsimp only; split <;> rfl
  · rfl

theorem endFault_replies (c : FaultClass) (o : Nat) (s : State) : (s.endFault c o).link.replies = s.link.replies := by
  unfold State.endFault; split
  · rfl
  · split
    · exact report_replies _ _ _ _ _
    · rfl

theorem evaluate_replies (cause : LockCause) (s : State) : (s.evaluate cause).link.replies = s.link.replies :=
  evaluate_keeps (P := fun u => u.link.replies = s.link.replies) (fun _ _ _ _ u hu => (report_replies _ _ _ _ u).trans hu)
    (fun _ u hu => (endFault_replies _ _ u).trans hu) (fun _ _ _ hu => hu) cause rfl

/-- R177: every fitted lever proved Normal, every fitted section BLOCKED, no fitted approach lock timing or awaiting. -/
theorem quiet_iff (s : State) : s.quiet = true ↔
    (∀ n, leverOk n = true → s.leverFitted n = true → (s.lever n).position = .normal) ∧
    (∀ x, s.sectionFitted x = true → (s.sectn x).state = some .blocked) ∧
    ∀ a, lockOk a = true → s.approachFitted a = true → (s.lockn a).phase ≠ .timing ∧ (s.lockn a).phase ≠ .awaitRelease := by
  unfold State.quiet
  rw [Bool.and_eq_true, Bool.and_eq_true, List.all_eq_true, List.all_eq_true, List.all_eq_true, and_assoc]
  refine and_congr (forall_congr' fun n => ?_) (and_congr (forall_congr' fun x => ?_) (forall_congr' fun a => ?_))
  · rw [mem_allLevers]; cases s.leverFitted n <;> simp
  · cases s.sectionFitted x <;> simp [mem_allSections]
  · rw [mem_allLocks]; cases s.approachFitted a <;> simp

/-- R177: a COMMISSION of the right length goes to its test, with the key as it is read. -/
theorem exec_commission {s : State} {hi lo : Byte} (key : Bool) (hr : s.receives [hi, lo] = true) :
    exec (.commission [hi, lo] key) s = .next (({ s with commissioningKey := key } : State).commission (word hi lo) key) :=
  congrArg Host.Outcome.next (request_of_fits .commission _ hr rfl)

theorem commission_refused {fp : Word16} {key : Bool} {s : State} {why : ReplyOutcome} (h : s.commissionTest fp key = .error why) :
    s.commission fp key = State.answered .commission why [] (s.report .part 0 2 [1, why.code]) := by
  unfold State.commission; rw [h]; rfl

/-- R170, R177: the entry into STORING. -/
theorem enterStoring_spec (fp : Word16) (s : State) :
    let t := s.enterStoring fp
    t.store = { s.store with
      buffer := some { records := s.store.staged.map Record.filled, fingerprint := fp }
      copy := .spoiled, part := .storing, entered := s.now } ∧
    t.link.replies = s.link.replies ∧
    (∀ n, leverOk n = true → s.hasLock n = true → (t.lever n).command = .held) ∧
    OnlyEval { s with store := t.store } t := by
  intro t
  generalize hst : ({ s.store with
      buffer := some { records := s.store.staged.map Record.filled, fingerprint := fp }
      copy := .spoiled, part := .storing, entered := s.now } : TableStore) = st
  have storing : st.part = .storing := by rw [← hst]
  have active : st.active = s.store.active := by rw [← hst]
  have entered : t = ((s.setStore st).partReport 2 (0 :: be16 fp)).evaluate .partState := by rw [← hst]; rfl
  have told : OnlyLink (s.setStore st) ((s.setStore st).partReport 2 (0 :: be16 fp)) := report_only _ _ _ _ _
  have replies : ((s.setStore st).partReport 2 (0 :: be16 fp)).link.replies = s.link.replies := report_replies _ _ _ _ _
  rw [entered]
  generalize (s.setStore st).partReport 2 (0 :: be16 fp) = u at told replies ⊢
  have store : u.store = st := by obtain ⟨_, rfl⟩ := told; rfl
  have only := evaluate_only .partState u
  have kept : (u.evaluate .partState).store = st := only.store_eq.trans store
  refine ⟨kept, (evaluate_replies _ u).trans replies, fun n hn hk => ?_, ?_⟩
  · have lock : u.hasLock n = true := (hasLock_congr ((congrArg TableStore.active store).trans active) n).trans hk
    have goes := evaluate_command .partState hn lock
    have stays : u.wantsFree n = false := by
      unfold State.wantsFree State.isRunning; rw [store, storing]; rfl
    rw [stays] at goes
    cases hc : ((u.evaluate .partState).lever n).command with
    | held => rfl
    | free => exact nomatch goes.1 hc
  · rw [kept]
    exact told.eval.trans only

end State

/-- Settles O23. -/
theorem commission : Obligations.Commission := by
  refine ⟨fun s hi lo key hr => ?_, fun s hi lo hr hv hp => ?_⟩
  · intro quiet refusedWith
    have quiet_iff : s.quiet = true ↔ quiet := s.quiet_iff
    have refuses : ∀ why, ({ s with commissioningKey := key } : State).commissionTest (word hi lo) key = .error why →
        refusedWith why := fun why h =>
      (State.exec_commission key hr).trans (congrArg Host.Outcome.next (State.commission_refused h))
    refine ⟨fun h => refuses _ (if_pos h), fun h => refuses _ ?_, fun h => ?_⟩
    · exact (if_neg (by rw [show State.store _ = s.store from rfl, h]; decide)).trans (if_pos h)
    · have tested : ({ s with commissioningKey := key } : State).commissionTest (word hi lo) key =
          match s.store.load with
          | .verified v =>
            if word hi lo ≠ v then .error .mismatch
            else if key = false then .error .keyOff
            else if s.store.part = .running ∧ s.quiet = false then .error .notQuiet
            else .ok v
          | .empty | .opened | .rejected _ _ => .error .noTable := by
        refine (if_neg ?_).trans (if_neg ?_) <;>
        · change s.store.part ≠ _
          rcases h with h | h <;> rw [h] <;> decide
      refine ⟨fun hno => refuses _ (tested.trans ?_), fun v hv => ?_⟩
      · cases hl : s.store.load with
        | verified v => exact absurd hl (hno v)
        | _ => rfl
      · rw [hv] at tested
        refine ⟨fun hw => refuses _ (tested.trans (if_pos hw)), fun hw hk => refuses _ (tested.trans ?_),
          fun hw hk hrun hq => refuses _ (tested.trans ?_)⟩
        · exact (if_neg (not_not.2 hw)).trans (if_pos hk)
        · exact (if_neg (not_not.2 hw)).trans ((if_neg (by rw [hk]; decide)).trans
            (if_pos ⟨hrun, Bool.eq_false_iff.2 (mt quiet_iff.1 hq)⟩))
  · have passed : ({ s with commissioningKey := true } : State).commissionTest (word hi lo) true = .ok (word hi lo) := by
      have quiet : s.store.part = .running → s.quiet = true := fun hrun => by
        rcases hp with hp | ⟨-, levers, sections, locks⟩
        · rw [hp] at hrun; exact nomatch hrun
        · refine s.quiet_iff.2 ⟨levers, sections, fun a ha hf => ?_⟩
          rcases locks a ha hf with h | h <;> rw [h] <;> exact ⟨by decide, by decide⟩
      have part : s.store.part ≠ .storing ∧ s.store.part ≠ .proving := by
        rcases hp with hp | ⟨hp, -⟩ <;> rw [hp] <;> exact ⟨by decide, by decide⟩
      unfold State.commissionTest
      refine (if_neg part.1).trans ((if_neg part.2).trans ?_)
      rw [show State.store _ = s.store from rfl, hv]; dsimp only
      rw [if_neg (not_not.2 rfl), if_neg (by decide)]
      exact if_neg fun h => Bool.false_ne_true (h.2.symm.trans (quiet h.1))
    obtain ⟨store, replies, held, only⟩ := State.enterStoring_spec (word hi lo) { s with commissioningKey := true }
    have taken := State.exec_commission true hr
    unfold State.commission at taken; rw [passed] at taken; dsimp only at taken
    generalize State.enterStoring _ _ = u at taken store replies held only
    refine ⟨u.accept RequestKind.commission.code [], taken, ?_⟩
    beta_reduce
    refine ⟨store, ?_, held, ?_⟩
    · change u.link.replies ++ _ = _
      rw [replies]
    obtain ⟨_, _, _, h⟩ := only
    rw [h]; exact ⟨_, _, _, rfl⟩

/-! ### O50 to O53: presses, codes and drives of the bells -/

@[simp] theorem BellState.side_setSide_same (b : BellState) (d : Direction) (a : Assembler) : (b.setSide d a).side d = a := by
  cases d <;> rfl

@[simp] theorem BellState.side_setSide_other (b : BellState) (d : Direction) (a : Assembler) :
    (b.setSide d a).side (otherDir d) = b.side (otherDir d) := by cases d <;> rfl

theorem otherBells_updBell (x : SectionId) (f : BellState → BellState) (s : State) : OtherBells x s (s.updBell x f) :=
  fun y hy => by rw [State.bell_updBell, if_neg hy]

/-- An update of one section's bells, and then the list and the link alone. -/
theorem otherBells_of_onlyFaults {x : SectionId} {f : BellState → BellState} {s t : State} (h : OnlyFaults (s.updBell x f) t) :
    OtherBells x s t := (onlyFaults_updBell h).2.1

theorem onlyBells_of_onlyFaults {x : SectionId} {f : BellState → BellState} {s t : State} (h : OnlyFaults (s.updBell x f) t) :
    OnlyBells s t := by
  obtain ⟨l, g, rfl⟩ := h
  exact ⟨(s.updBell x f).bells, l, g, s.frame, s.tracks, s.seqs, s.sections, s.locks, s.notices, rfl⟩

namespace State

theorem settleDue_iff {s : State} {x : SectionId} {d : Direction} {p : Press} (hp : ((s.bell x).side d).press = some p)
    (ha : s.assembles x = true) : s.settleDue x d = true ↔ ∃ r, p.release = some r ∧ r + s.timing.mergeGap.toNat ≤ s.now := by
  unfold State.settleDue; rw [hp, ha]
  cases hr : p.release <;> simp [hr]

theorem pressDue_iff {s : State} {x : SectionId} {d : Direction} {p : Press} (hp : ((s.bell x).side d).press = some p)
    (ha : s.assembles x = true) (taken : Press → Bool) (limit : Word16) :
    s.pressDue x d taken limit = true ↔ taken p = false ∧ limit.toNat ≤ p.release.getD s.now - p.start := by
  unfold State.pressDue; rw [hp, ha]
  change (true && (!taken p && decide (limit.toNat ≤ p.extent s.now))) = true ↔ _
  rw [Bool.true_and, Bool.and_eq_true, Bool.not_eq_true']
  exact and_congr_right fun _ => decide_eq_true_iff

/-- R106: without a press that has not settled, or without assemblers, no event of a press is due. -/
theorem pressDue_absent {s : State} {x : SectionId} {d : Direction} (h : ((s.bell x).side d).press = none ∨ s.assembles x = false)
    (taken : Press → Bool) (limit : Word16) : s.pressDue x d taken limit = false := by
  unfold State.pressDue
  rcases h with h | h <;> rw [h]
  · exact Bool.and_false _
  · rfl

theorem settleDue_absent {s : State} {x : SectionId} {d : Direction}
    (h : ((s.bell x).side d).press = none ∨ s.assembles x = false) : s.settleDue x d = false := by
  unfold State.settleDue
  rcases h with h | h <;> rw [h]
  · exact Bool.and_false _
  · rfl

end State

/-- R107: the code of a press that settles, after its beat or without it. -/
def settledCode (long same : Bool) (p : Press) (c : Option Code) : Option Code :=
  if p.qualified && !long then c.map (Code.addBeat same) else c

/-- R107: what one beat makes of a code. -/
theorem Code.addBeat_spec (same : Bool) (c : Code) :
    (24 ≤ c.groups.sum → c.addBeat same = { c with malformed := true }) ∧
    (c.groups = [] → c.addBeat same = { c with groups := [1] }) ∧
    (∀ gs g, c.groups = gs ++ [g] → c.groups.sum < 24 → c.addBeat same =
      if same = true then (if 12 ≤ g then { c with malformed := true } else { c with groups := gs ++ [g + 1] })
      else if 4 ≤ c.groups.length then { c with malformed := true } else { c with groups := c.groups ++ [1] }) := by
  have total : c.groups.foldl (· + ·) 0 = c.groups.sum := by rw [List.sum_eq_foldl]
  unfold Code.addBeat; dsimp only; rw [total]
  refine ⟨fun h => if_pos h, fun h => ?_, fun gs g hg hlt => ?_⟩
  · rw [h]; rfl
  · rw [if_neg (Nat.not_le.2 hlt), hg, List.getLast?_concat, List.dropLast_concat]

namespace State

/-- R106, R107: a direction of the bells after its press `p` has settled. -/
def settledSide (s : State) (p : Press) (a : Assembler) : Assembler :=
  { a with
    press := none
    code := settledCode (decide (s.timing.longPress.toNat ≤ p.release.getD s.now - p.start))
      (decide (p.gap < s.timing.groupGap.toNat)) p a.code }

theorem settle_eq {s : State} {x : SectionId} {d : Direction} {p : Press} (hp : ((s.bell x).side d).press = some p) :
    s.settle x d =
      let u := s.setAssembler x d (s.settledSide p)
      if p.ringReached then
        (if u.bellFaults x && !u.ringStands x then u.endFault .heldRing (secCode x).toNat else u).bellReport x 13
          (dirCode d :: sat16 (p.extent s.now))
      else u := by
  unfold State.settle; rw [hp]; rfl

/-- R106, R107, R110: a press settles. -/
theorem settle_spec {s : State} {x : SectionId} {d : Direction} {p : Press} (hp : ((s.bell x).side d).press = some p) :
    let ends := p.ringReached = true ∧ s.sectionFitted x = true ∧
      ∀ o, ((s.bell x).side (otherDir d)).press = some o → o.ringReached = false
    OnlyFaults (s.setAssembler x d (s.settledSide p)) (s.settle x d) ∧
    (ends → (s.settle x d).faultOver .heldRing (secCode x).toNat) ∧ (¬ends → (s.settle x d).faults = s.faults) := by
  intro ends
  have settled := settle_eq hp
  dsimp only at settled
  generalize hf : s.settledSide p = f at settled ⊢
  have none : ∀ a, (f a).press = none := fun a => by rw [← hf]; rfl
  have stands : (s.setAssembler x d f).ringStands x = true ↔
      ∃ o, ((s.bell x).side (otherDir d)).press = some o ∧ o.ringReached = true := by
    unfold State.ringStands
    rw [State.bell_setAssembler_same, ← Option.any_eq_true]
    cases d
    · exact iff_of_eq (congrArg (· = true) ((congrArg (fun r : Option Press => r.any (·.ringReached) || _) (none _)).trans
        (Bool.false_or _)))
    · exact iff_of_eq (congrArg (· = true) ((congrArg (fun r : Option Press => _ || r.any (·.ringReached)) (none _)).trans
        (Bool.or_false _)))
  have clears : ends ↔ p.ringReached = true ∧
      ((s.setAssembler x d f).bellFaults x && !(s.setAssembler x d f).ringStands x) = true := by
    refine and_congr_right fun _ => ?_
    rw [Bool.and_eq_true, Bool.not_eq_true', Bool.eq_false_iff, Ne, stands]
    refine and_congr Iff.rfl ⟨fun h ⟨o, ho, hr⟩ => ?_, fun h o ho => ?_⟩
    · rw [h o ho] at hr; exact nomatch hr
    · exact Bool.eq_false_iff.2 fun hr => h ⟨o, ho, hr⟩
  rw [settled]
  refine ⟨?_, fun h => ?_, fun h => ?_⟩
  · refine ite_keeps (P := OnlyFaults (s.setAssembler x d f)) ?_ (.refl _)
    exact (ite_keeps (P := OnlyFaults (s.setAssembler x d f)) (endFault_only _ _ _) (.refl _)).trans (report_only _ _ _ _ _).faults
  · obtain ⟨ring, free⟩ := clears.1 h
    rw [if_pos ring, if_pos free]
    exact (report_faultOver _ _ _ _ _).2 (endFault_over _ _ _)
  · split
    · rename_i ring
      rw [if_neg fun free => h (clears.2 ⟨ring, free⟩)]
      exact State.report_faults _ _ _ _ _
    · rfl

end State

theorem exec_pressSettles (x : SectionId) (d : Direction) (s : State) :
    exec (.pressSettles x d) s = .next (if s.settleDue x d then s.settle x d else s) := rfl

/-- Settles O52. -/
theorem pressSettles : Obligations.PressSettles := by
  refine ⟨fun s x d p hp ha => ?_, fun s x d => ⟨fun h => ?_, fun h => ?_⟩⟩
  · intro due long
    have iff : s.settleDue x d = true ↔ due := State.settleDue_iff hp ha
    refine ⟨fun h => congrArg Host.Outcome.next (if_neg (mt iff.1 h)), fun h => ?_⟩
    have taken : exec (.pressSettles x d) s = .next (s.settle x d) := congrArg Host.Outcome.next (if_pos (iff.2 h))
    obtain ⟨only, ends, stands⟩ := State.settle_spec hp
    obtain ⟨bell, others, rest⟩ := onlyFaults_updBell only
    refine ⟨_, taken, ?_⟩
    beta_reduce
    rw [bell, BellState.side_setSide_same, BellState.side_setSide_other]
    refine ⟨rfl, rfl, fun h => ?_, fun c hc hq hl => ?_, ⟨ends, stands⟩, rfl, others, rest⟩
    · refine if_neg fun hb => ?_
      rw [Bool.and_eq_true, Bool.not_eq_true', decide_eq_false_iff_not] at hb
      rcases h with h | h
      · exact Bool.false_ne_true (h.symm.trans hb.1)
      · exact hb.2 h
    · have beat : settledCode (decide (s.timing.longPress.toNat ≤ long)) (decide (p.gap < s.timing.groupGap.toNat)) p
          ((s.bell x).side d).code = some (c.addBeat (decide (p.gap < s.timing.groupGap.toNat))) := by
        unfold settledCode
        rw [hq, decide_eq_false (Nat.not_le.2 hl), hc]; rfl
      obtain ⟨full, first, later⟩ := c.addBeat_spec (decide (p.gap < s.timing.groupGap.toNat))
      refine ⟨fun h => beat.trans (congrArg some (full h)), fun h => beat.trans (congrArg some (first h)),
        fun gs g hg hlt => beat.trans (congrArg some ((later gs g hg hlt).trans ?_))⟩
      by_cases hgap : p.gap < s.timing.groupGap.toNat
      · rw [if_pos hgap, if_pos (decide_eq_true hgap)]
      · rw [if_neg hgap, if_neg (by rw [decide_eq_false hgap]; exact Bool.false_ne_true)]
  · have press := State.pressDue_absent h
    have no : ∀ {b : Bool} {t : State}, b = false → (.next (if b then t else s) : Result) = .next s := fun hb => by
      rw [hb]; rfl
    exact ⟨no ((congrArg (!(s.bell x).crossed && ·) (press _ _)).trans (Bool.and_false _)), no (press _ _), no (press _ _),
      no (press _ _), no (State.settleDue_absent h)⟩
  · refine congrArg Host.Outcome.next (if_neg ?_)
    unfold State.codeEndDue; dsimp only; rw [h]; exact Bool.false_ne_true

/-! #### O51: the thresholds of a press -/

/-- R109, R112: what follows a change of a piece leaves the directions, the drive and the levels of the inputs. -/
theorem BellState.after_spec (now : Time) (b : BellState) :
    let u := (b.holdUpdate now).silenceUpdate now
    u.outbound = b.outbound ∧ u.inbound = b.inbound ∧ u.crossed = b.crossed ∧ u.plunger = b.plunger ∧ u.sense = b.sense ∧
    u.driveSince = b.driveSince ∧ u.sounderUntil = b.sounderUntil ∧
    u.heldSince = (b.holdUpdate now).heldSince ∧ u.awaited = (b.holdUpdate now).awaited ∧ u.owed = (b.holdUpdate now).owed ∧
    (b.crossed = true → u.silentSince =
      if b.outbound.pressed || b.inbound.pressed then none else some (b.silentSince.getD now)) ∧
    (b.crossed = false → u.silentSince = b.silentSince) := by
  have held : (b.holdUpdate now).outbound = b.outbound ∧ (b.holdUpdate now).inbound = b.inbound ∧
      (b.holdUpdate now).crossed = b.crossed ∧ (b.holdUpdate now).plunger = b.plunger ∧
      (b.holdUpdate now).sense = b.sense ∧ (b.holdUpdate now).driveSince = b.driveSince ∧
      (b.holdUpdate now).sounderUntil = b.sounderUntil ∧ (b.holdUpdate now).silentSince = b.silentSince := by
    unfold BellState.holdUpdate; split <;> exact ⟨rfl, rfl, rfl, rfl, rfl, rfl, rfl, rfl⟩
  obtain ⟨ho, hi, hc, hp, hs, hd, hu, hq⟩ := held
  dsimp only
  generalize b.holdUpdate now = k at ho hi hc hp hs hd hu hq ⊢
  rw [← ho, ← hi, ← hc, ← hp, ← hs, ← hd, ← hu, ← hq]
  unfold BellState.silenceUpdate
  cases hk : k.crossed with
  | true =>
    rw [if_pos rfl]
    cases k.outbound.pressed || k.inbound.pressed <;>
      exact ⟨rfl, rfl, rfl, rfl, rfl, rfl, rfl, rfl, rfl, rfl, fun _ => rfl, fun h => nomatch h⟩
  | false =>
    exact ⟨rfl, rfl, hk, rfl, rfl, rfl, rfl, rfl, rfl, rfl, fun h => (nomatch h), fun _ => rfl⟩

theorem BellState.after_side (now : Time) (b : BellState) (d : Direction) :
    ((b.holdUpdate now).silenceUpdate now).side d = b.side d := by
  obtain ⟨ho, hi, -⟩ := b.after_spec now
  cases d
  · exact ho
  · exact hi

/-- R109: a hold that goes on stands, and one that begins takes the time. -/
theorem BellState.holdUpdate_holds {now : Time} {b : BellState} (h : b.holds = true) :
    (b.holdUpdate now).heldSince = some (b.heldSince.getD now) ∧ (b.holdUpdate now).awaited = b.awaited ∧
    (b.holdUpdate now).owed = b.owed := by
  unfold BellState.holdUpdate; rw [h]
  cases hs : b.heldSince with
  | none => exact ⟨rfl, rfl, rfl⟩
  | some k => exact ⟨hs, rfl, rfl⟩

/-- R109: a hold that ends moves the deadlines of both slots. -/
theorem BellState.holdUpdate_released {now : Time} {b : BellState} (h : b.holds = false) :
    (b.holdUpdate now).heldSince = none ∧
    (∀ k, b.heldSince = some k → (b.holdUpdate now).awaited = b.awaited.map (Slot.moved k now) ∧
      (b.holdUpdate now).owed = b.owed.map (Slot.moved k now)) ∧
    (b.heldSince = none → (b.holdUpdate now).awaited = b.awaited ∧ (b.holdUpdate now).owed = b.owed) := by
  unfold BellState.holdUpdate; rw [h]
  cases hs : b.heldSince with
  | none => exact ⟨hs, fun _ h => (nomatch h), fun _ => ⟨rfl, rfl⟩⟩
  | some k => exact ⟨rfl, fun _ h => by cases h; exact ⟨rfl, rfl⟩, fun h => (nomatch h)⟩

theorem Assembler.holds_iff (a : Assembler) : a.holds = true ↔
    ∃ p, a.press = some p ∧ p.release = none ∧ p.pendingReached = true := by
  unfold Assembler.holds; rw [Option.any_eq_true]
  refine exists_congr fun p => and_congr_right fun _ => ?_
  rw [Bool.and_eq_true]; unfold Press.pressed; rw [Option.isNone_iff_eq_none]

theorem BellState.holds_iff (b : BellState) : b.holds = true ↔
    ∃ d p, (b.side d).press = some p ∧ p.release = none ∧ p.pendingReached = true := by
  unfold BellState.holds; rw [Bool.or_eq_true, Assembler.holds_iff, Assembler.holds_iff]
  refine ⟨fun h => h.elim (fun h => ⟨.outbound, h⟩) fun h => ⟨.inbound, h⟩, fun ⟨d, h⟩ => ?_⟩
  cases d
  · exact .inl h
  · exact .inr h

theorem Assembler.pressed_iff (a : Assembler) : a.pressed = true ↔ ∃ p, a.piece = some p ∧ p.release = none := by
  unfold Assembler.pressed; rw [Option.any_eq_true]
  refine exists_congr fun p => and_congr_right fun _ => ?_
  unfold Piece.pressed; rw [Option.isNone_iff_eq_none]

theorem BellState.pressed_iff (b : BellState) : (b.outbound.pressed || b.inbound.pressed) = true ↔
    ∃ d p, (b.side d).piece = some p ∧ p.release = none := by
  rw [Bool.or_eq_true, Assembler.pressed_iff, Assembler.pressed_iff]
  refine ⟨fun h => h.elim (fun h => ⟨.outbound, h⟩) fun h => ⟨.inbound, h⟩, fun ⟨d, h⟩ => ?_⟩
  cases d
  · exact .inl h
  · exact .inr h

namespace State

/-- R186, R187: the queue of reports only grows at its end. -/
theorem report_queue (c : Category) (o e : Nat) (d : List Byte) (s : State) : s.link.queue <+: (s.report c o e d).link.queue := by
  unfold State.report; split
  · dsimp only; split
    · exact List.prefix_append _ _
    · exact List.prefix_refl _
  · exact List.prefix_refl _

theorem enterRaise_queue (c : FaultClass) (o : Nat) (m : Bool) (s : State) :
    s.link.queue <+: (s.enterRaise c o m).link.queue := by
  have told : ∀ {u : State} (k : Category) (n e : Nat) (d : List Byte), s.link.queue <+: u.link.queue →
      s.link.queue <+: (u.report k n e d).link.queue := fun k n e d h => h.trans (report_queue k n e d _)
  have sounds : ∀ (b : Bool) (u : State), s.link.queue <+: u.link.queue → s.link.queue <+: (u.soundFor c b).link.queue := by
    intro b u h
    unfold State.soundFor; dsimp only
    cases (b && c.isAlarm && u.faults.overflow) <;> cases (c == .heldRing && !b) <;> exact h
  have new : ∀ b, s.link.queue <+: (s.enterNew c o b m).link.queue := fun b => by
    have made : ∀ u : State, s.link.queue <+: u.link.queue → s.link.queue <+: (if m then
        u.report .fault o 5 [c.code, responseByte b, 1]
        else u.report .fault o 1 [c.code, responseByte b, orderByte c b]).link.queue := fun u h => by
      split <;> exact told _ _ _ _ h
    unfold State.enterNew; dsimp only; split
    · exact made _ (List.prefix_refl _)
    · split
      · refine told _ _ _ _ (made _ ?_)
        split <;> exact List.prefix_refl _
      · exact told _ _ _ _ (List.prefix_refl _)
  have recurs : ∀ e b, s.link.queue <+: (s.enterRecurrence c o e b m).link.queue := fun e b => by
    unfold State.enterRecurrence; dsimp only; split <;> exact told _ _ _ _ (List.prefix_refl _)
  unfold State.enterRaise; dsimp only
  refine sounds _ _ ?_
  split
  · exact recurs _ _
  · exact new _

end State

namespace State

/-- Two updates of a section's bells are one. -/
theorem updBell_updBell (x : SectionId) (f g : BellState → BellState) (s : State) :
    (s.updBell x f).updBell x g = s.updBell x fun b => g (f b) := by
  have bell : State.bell { s with bells := Bank.put s.bells (secNo x) (f (s.bell x)) } x = f (s.bell x) := bell_updBell_same x f s
  unfold State.updBell; rw [bell]; dsimp only; rw [Bank.put_put]

theorem updBell_congr {x : SectionId} {f g : BellState → BellState} {s : State} (h : f (s.bell x) = g (s.bell x)) :
    s.updBell x f = s.updBell x g := by
  unfold State.updBell; rw [h]

theorem bellAfter_bell (x : SectionId) (s : State) :
    (s.bellAfter x).bell x = ((s.bell x).holdUpdate s.now).silenceUpdate s.now := bell_updBell_same x _ s

theorem qualifyDue_iff {s : State} {x : SectionId} {d : Direction} {p : Press} (hp : ((s.bell x).side d).press = some p)
    (ha : s.assembles x = true) : s.qualifyDue x d = true ↔
      p.qualified = false ∧ (s.bell x).crossed = false ∧ s.timing.beatMinimum.toNat ≤ p.release.getD s.now - p.start := by
  unfold State.qualifyDue
  rw [Bool.and_eq_true, Bool.not_eq_true', pressDue_iff hp ha, and_left_comm]

end State

theorem OnlyFaults.updBell {s t : State} (h : OnlyFaults s t) (x : SectionId) (f : BellState → BellState) :
    OnlyFaults (s.updBell x f) (t.updBell x f) := by
  obtain ⟨l, g, rfl⟩ := h; exact ⟨l, g, rfl⟩

/-- R107: a press as it qualifies, with the gap before it. -/
def Assembler.qualified (a : Assembler) : Assembler :=
  { a with press := a.press.map fun p =>
      { p with qualified := true, gap := p.start - ((a.code.bind (·.release)).getD p.start) } }

/-- R107: the code that a press begins or joins. -/
def Assembler.joined (r : Option Time) (a : Assembler) : Assembler :=
  { a with code := some (match a.code with
      | some c => { c with release := if r = none then c.release else r }
      | none => { groups := [], malformed := false, release := r }) }

namespace State

/-- R107: a press begins a code, with its report, or joins the one in progress. -/
theorem beginOrJoin_eq (x : SectionId) (d : Direction) (r : Option Time) (s : State) : s.beginOrJoin x d r =
    if ((s.bell x).side d).code = none then (s.setAssembler x d (Assembler.joined r)).bellReport x 1 [dirCode d]
    else s.setAssembler x d (Assembler.joined r) := by
  have own : ∀ f g : Assembler → Assembler, f ((s.bell x).side d) = g ((s.bell x).side d) →
      s.setAssembler x d f = s.setAssembler x d g := fun f g h => by
    unfold State.setAssembler State.updBell; dsimp only; rw [h]
  unfold State.beginOrJoin
  split
  · rename_i c hc
    rw [if_neg (by rw [hc]; exact Option.some_ne_none c)]
    refine own _ _ ?_
    unfold Assembler.joined; rw [hc]
    cases r <;> rfl
  · rename_i hc
    rw [if_pos hc]
    refine congrArg (State.bellReport x 1 [dirCode d]) (own _ _ ?_)
    unfold Assembler.joined; rw [hc]

/-- R107: a press that qualifies, before a crossing. -/
def joins (x : SectionId) (d : Direction) (s : State) : State :=
  (s.setAssembler x d Assembler.qualified).beginOrJoin x d (((s.bell x).side d).press.bind (·.release))

theorem qualify_eq (x : SectionId) (d : Direction) (s : State) : s.qualify x d =
    if ((s.bell x).side (otherDir d)).code.isSome then (s.joins x d).crossBells x else s.joins x d := rfl

theorem setAssembler_setAssembler (x : SectionId) (d : Direction) (f g : Assembler → Assembler) (s : State) :
    (s.setAssembler x d f).setAssembler x d g = s.setAssembler x d fun a => g (f a) := by
  unfold State.setAssembler; rw [updBell_updBell]
  congr 1; funext b
  rw [BellState.side_setSide_same]; cases d <;> rfl

theorem joins_spec (x : SectionId) (d : Direction) (s : State) :
    OnlyLink (s.setAssembler x d fun a => (a.qualified).joined (((s.bell x).side d).press.bind (·.release))) (s.joins x d) ∧
    (((s.bell x).side d).code = none → s.joins x d = (s.setAssembler x d
      fun a => (a.qualified).joined (((s.bell x).side d).press.bind (·.release))).bellReport x 1 [dirCode d]) := by
  have code : (((s.setAssembler x d Assembler.qualified).bell x).side d).code = ((s.bell x).side d).code := by
    rw [bell_setAssembler_same, BellState.side_setSide_same]; rfl
  unfold joins
  rw [beginOrJoin_eq, setAssembler_setAssembler, code]
  refine ⟨?_, fun h => if_pos h⟩
  split
  · exact report_only _ _ _ _ _
  · exact OnlyLink.refl _

end State

/-- R111: the bells of a section as they cross. -/
def BellState.crossing (b : BellState) : BellState :=
  { b with outbound := { b.outbound with code := none }, inbound := { b.inbound with code := none },
           crossed := true, silentSince := none }

namespace State

/-- R111: the bells cross. -/
theorem crossBells_spec (x : SectionId) (s : State) :
    OnlyFaults (s.updBell x fun b => ((b.crossing).holdUpdate s.now).silenceUpdate s.now) (s.crossBells x) ∧
    (s.sectionFitted x = true → (s.crossBells x).faultShown .bellCrossed (secCode x).toNat) ∧
    s.link.queue <+: (s.crossBells x).link.queue := by
  have fused : (s.updBell x BellState.crossing).bellAfter x =
      s.updBell x fun b => ((b.crossing).holdUpdate s.now).silenceUpdate s.now := updBell_updBell x _ _ s
  have crossed : s.crossBells x = (if s.sectionFitted x then
      ((s.updBell x BellState.crossing).bellAfter x).raise .bellCrossed (secCode x).toNat
      else (s.updBell x BellState.crossing).bellAfter x).bellReport x 10
        (patternBytes (s.patternSoFar x .outbound) ++ patternBytes (s.patternSoFar x .inbound)) := rfl
  rw [fused] at crossed
  rw [crossed]
  generalize hu : (s.updBell x fun b => ((b.crossing).holdUpdate s.now).silenceUpdate s.now) = u
  have queue : u.link.queue = s.link.queue := by rw [← hu]; rfl
  cases s.sectionFitted x with
  | true =>
    have raised : u.raise .bellCrossed (secCode x).toNat = u.enterRaise .bellCrossed (secCode x).toNat false := raiseWith_of_noOrder rfl _ _ _
    refine ⟨(raise_onlyFaults (c := .bellCrossed) rfl false _ u).trans (report_only _ _ _ _ _).faults, fun _ => ?_, ?_⟩
    · exact (report_faultShown _ _ _ _ _).2 (raise_shown _ _ u)
    · rw [← queue]
      refine List.IsPrefix.trans ?_ (report_queue _ _ _ _ _)
      rw [if_pos rfl, raised]; exact enterRaise_queue _ _ _ u
  | false =>
    refine ⟨(report_only _ _ _ _ _).faults, fun h => (nomatch h), ?_⟩
    rw [← queue]; exact report_queue _ _ _ _ _

/-- R107: a press that qualifies with no code of the other direction in progress. -/
theorem qualify_alone {x : SectionId} {d : Direction} {s : State} (h : ((s.bell x).side (otherDir d)).code = none) :
    s.qualify x d = s.joins x d := by
  rw [qualify_eq, h]; rfl

/-- R111: a press that qualifies against a code of the other direction. -/
theorem qualify_crosses {x : SectionId} {d : Direction} {s : State} (h : ((s.bell x).side (otherDir d)).code ≠ none) :
    s.qualify x d = (s.joins x d).crossBells x := by
  rw [qualify_eq, if_pos (Option.isSome_iff_ne_none.2 h)]

/-- R107: the report of a code that a press begins. -/
def codeBegun (s : State) (x : SectionId) (d : Direction) : Report where
  seq := s.link.nextSeq
  time := s.now
  category := .bell
  object := (secCode x).toNat
  event := 1
  detail := [dirCode d]

theorem qualify_queue {x : SectionId} {d : Direction} {s : State} (h : ((s.bell x).side d).code = none)
    (enabled : s.link.filters.getLsbD Category.bell.number = true) (room : s.link.queue.length < 64) :
    (s.link.queue ++ [s.codeBegun x d]) <+: (s.qualify x d).link.queue := by
  have begun : s.link.queue ++ [s.codeBegun x d] = (s.joins x d).link.queue := by
    rw [(joins_spec x d s).2 h]
    exact (congrArg (fun u : State => u.link.queue) (report_queued (s := s.setAssembler x d
      fun a => (a.qualified).joined (((s.bell x).side d).press.bind (·.release))) (secCode x).toNat 1 [dirCode d] enabled room)).symm
  rw [begun, qualify_eq]
  split
  · exact (crossBells_spec x _).2.2
  · exact List.prefix_refl _

end State

/-- R107: the direction of a press that has qualified, when no crossing follows. -/
theorem Assembler.joined_qualified {a : Assembler} {p : Press} (hp : a.press = some p) :
    let b := (a.qualified).joined (a.press.bind (·.release))
    b.press = some { p with qualified := true, gap := p.start - (a.code.bind (·.release)).getD p.start } ∧
    b.piece = a.piece ∧
    (a.code = none → b.code = some { groups := [], malformed := false, release := p.release }) ∧
    (∀ c, a.code = some c → b.code = some { c with release := if p.release = none then c.release else p.release }) := by
  unfold Assembler.joined Assembler.qualified; dsimp only; rw [hp]
  refine ⟨rfl, rfl, fun h => ?_, fun c h => ?_⟩ <;> rw [h] <;> rfl

/-- R111: the bells of a section after a press that crosses them. -/
theorem BellState.crossing_spec (now : Time) (d : Direction) (a : Assembler) (b : BellState) (ha : a.piece = (b.side d).piece) :
    let u := (((b.setSide d a).crossing).holdUpdate now).silenceUpdate now
    u.crossed = true ∧ u.outbound.code = none ∧ u.inbound.code = none ∧ (u.side d).press = a.press ∧
    ((∃ e q, (b.side e).piece = some q ∧ q.release = none) → u.silentSince = none) ∧
    (¬(∃ e q, (b.side e).piece = some q ∧ q.release = none) → u.silentSince = some now) := by
  obtain ⟨ho, hi, hc, -, -, -, -, -, -, -, silent, -⟩ := BellState.after_spec now (b.setSide d a).crossing
  have side := BellState.after_side now (b.setSide d a).crossing d
  have press : (((b.setSide d a).crossing).side d).press = a.press := by cases d <;> rfl
  have pieces : ∀ e, (((b.setSide d a).crossing).side e).piece = (b.side e).piece := fun e => by
    cases d <;> cases e
    · exact ha
    · rfl
    · rfl
    · exact ha
  have pressed := ((b.setSide d a).crossing).pressed_iff
  simp only [pieces] at pressed
  have silent := silent rfl
  dsimp only
  generalize (((b.setSide d a).crossing).holdUpdate now).silenceUpdate now = u at ho hi hc side silent ⊢
  refine ⟨hc, by rw [ho]; rfl, by rw [hi]; rfl, by rw [side, press], fun h => ?_, fun h => ?_⟩
  · rw [silent, if_pos (pressed.2 h)]
  · rw [silent, if_neg (mt pressed.1 h)]; rfl

namespace State

/-- R107: a press that qualifies, with no code of the other direction in progress. -/
theorem qualify_joins {x : SectionId} {d : Direction} {s : State}
    (h : ((s.bell x).side (otherDir d)).code = none) :
    (s.qualify x d).bell x = (s.bell x).setSide d ((((s.bell x).side d).qualified).joined (((s.bell x).side d).press.bind (·.release))) ∧
    OtherBells x s (s.qualify x d) ∧ OnlyBells s (s.qualify x d) := by
  obtain ⟨only, -⟩ := joins_spec x d s
  rw [qualify_alone h]
  exact ⟨(onlyFaults_updBell only.faults).1, otherBells_of_onlyFaults only.faults, onlyBells_of_onlyFaults only.faults⟩

/-- R111: a press that qualifies against a code of the other direction. -/
theorem qualify_crossed {x : SectionId} {d : Direction} {s : State} (h : ((s.bell x).side (otherDir d)).code ≠ none) :
    let a := (((s.bell x).side d).qualified).joined (((s.bell x).side d).press.bind (·.release))
    (s.qualify x d).bell x = ((((s.bell x).setSide d a).crossing).holdUpdate s.now).silenceUpdate s.now ∧
    (s.sectionFitted x = true → (s.qualify x d).faultShown .bellCrossed (secCode x).toNat) ∧
    OtherBells x s (s.qualify x d) ∧ OnlyBells s (s.qualify x d) := by
  intro a
  obtain ⟨only, -⟩ := joins_spec x d s
  obtain ⟨crossed, shown, -⟩ := crossBells_spec x (s.joins x d)
  rw [qualify_crosses h]
  have fitted : (s.joins x d).sectionFitted x = s.sectionFitted x := by obtain ⟨_, hs⟩ := only; rw [hs]; rfl
  have now : (s.joins x d).now = s.now := by obtain ⟨_, hs⟩ := only; rw [hs]; rfl
  rw [now] at crossed
  rw [fitted] at shown
  have whole := (only.faults.updBell x fun b => ((b.crossing).holdUpdate s.now).silenceUpdate s.now).trans crossed
  unfold State.setAssembler at whole
  rw [updBell_updBell] at whole
  exact ⟨(onlyFaults_updBell whole).1, shown, otherBells_of_onlyFaults whole, onlyBells_of_onlyFaults whole⟩

/-- R110: a press that reaches the held ring. -/
theorem ringHeld_spec (x : SectionId) (d : Direction) (s : State) :
    OnlyFaults (s.setAssembler x d fun a => { a with press := a.press.map fun p => { p with ringReached := true }, code := none })
      (s.ringHeld x d) ∧
    (s.sectionFitted x = true → (s.ringHeld x d).faultShown .heldRing (secCode x).toNat) := by
  generalize hu : (s.setAssembler x d fun a =>
    { a with press := a.press.map fun p => { p with ringReached := true }, code := none }) = u
  have held : s.ringHeld x d = (if s.sectionFitted x then u.raise .heldRing (secCode x).toNat else u).bellReport x 12 [dirCode d] := by
    rw [← hu]; rfl
  rw [held]
  cases s.sectionFitted x with
  | true =>
    exact ⟨(raise_onlyFaults (c := .heldRing) rfl false _ u).trans (report_only _ _ _ _ _).faults,
      fun _ => (report_faultShown _ _ _ _ _).2 (raise_shown _ _ u)⟩
  | false => exact ⟨(report_only _ _ _ _ _).faults, fun h => nomatch h⟩

end State

/-- Settles O51. -/
theorem pressThresholds : Obligations.PressThresholds := by
  intro s x d p hp ha long own other
  have qualifies : s.qualifyDue x d = true ↔ _ := State.qualifyDue_iff hp ha
  have due : ∀ taken limit, s.pressDue x d taken limit = true ↔ _ := State.pressDue_iff hp ha
  refine ⟨fun h => congrArg Host.Outcome.next (if_neg (mt qualifies.1 h)), fun hq hc hl => ?_,
    fun h => congrArg Host.Outcome.next (if_neg (mt (due _ _).1 h)), fun h1 h2 => ?_,
    fun h => congrArg Host.Outcome.next (if_neg (mt (due _ _).1 h)), fun h1 h2 => ?_,
    fun h => congrArg Host.Outcome.next (if_neg (mt (due _ _).1 h)), fun h1 h2 => ?_⟩
  · have taken : exec (.pressQualifies x d) s = .next (s.qualify x d) :=
      congrArg Host.Outcome.next (if_pos (qualifies.2 ⟨hq, hc, hl⟩))
    obtain ⟨press, piece, first, later⟩ := Assembler.joined_qualified hp
    refine ⟨_, taken, ?_⟩
    beta_reduce
    by_cases ho : other = none
    · obtain ⟨bell, others, only⟩ := State.qualify_joins ho
      rw [bell, BellState.side_setSide_same, BellState.side_setSide_other]
      refine ⟨press, fun hn => State.qualify_queue hn, fun _ => first, fun c hcode _ => later c hcode, fun _ => ⟨rfl, ?_⟩,
        fun h => absurd ho h, others, only⟩
      cases d <;> exact hc
    · obtain ⟨bell, shown, others, only⟩ := State.qualify_crossed (s := s) ho
      obtain ⟨crossed, out, inb, side, pressed, silent⟩ := BellState.crossing_spec s.now d _ (s.bell x) piece
      rw [bell]
      exact ⟨side.trans press, fun hn => State.qualify_queue hn, fun h => absurd h ho, fun _ _ h => absurd h ho,
        fun h => absurd h ho, fun _ => ⟨crossed, out, inb, ⟨pressed, silent⟩, shown⟩, others, only⟩
  · refine ⟨s.longPress x d, congrArg Host.Outcome.next (if_pos ((due _ _).2 ⟨h1, h2⟩)), ?_⟩
    beta_reduce
    rw [show (s.longPress x d).bell x = _ from State.bell_setAssembler_same x d _ s, BellState.side_setSide_same,
      BellState.side_setSide_other]
    dsimp only
    rw [hp]
    refine ⟨rfl, ?_, rfl, otherBells_updBell x _ s, rfl⟩
    change (if p.qualified then _ else _) = _
    rfl
  · refine ⟨s.heldPending x d, congrArg Host.Outcome.next (if_pos ((due _ _).2 ⟨h1, h2⟩)), ?_⟩
    beta_reduce
    generalize hb : (s.bell x).setSide d { (s.bell x).side d with
      press := ((s.bell x).side d).press.map fun p => { p with pendingReached := true } } = b
    have bell : (s.heldPending x d).bell x = (b.holdUpdate s.now).silenceUpdate s.now := by
      rw [← hb]
      exact (State.bellAfter_bell x _).trans (congrArg (fun b => (BellState.holdUpdate s.now b).silenceUpdate s.now)
        (State.bell_setAssembler_same x d _ s))
    have press : (b.side d).press = some { p with pendingReached := true } := by
      rw [← hb, BellState.side_setSide_same, hp]; rfl
    have since : b.heldSince = (s.bell x).heldSince := by rw [← hb]; cases d <;> rfl
    rw [bell, BellState.after_side]
    refine ⟨press, fun hr => ?_, ?_, rfl⟩
    · obtain ⟨-, -, -, -, -, -, -, held, -⟩ := b.after_spec s.now
      rw [held, ← since]
      exact (BellState.holdUpdate_holds (b.holds_iff.2 ⟨d, _, press, hr, rfl⟩)).1
    · exact fun y hy => (otherBells_updBell x _ _ y hy).trans (otherBells_updBell x _ s y hy)
  · obtain ⟨only, shown⟩ := State.ringHeld_spec x d s
    refine ⟨s.ringHeld x d, congrArg Host.Outcome.next (if_pos ((due _ _).2 ⟨h1, h2⟩)), ?_⟩
    beta_reduce
    rw [(onlyFaults_updBell only).1, BellState.side_setSide_same, BellState.side_setSide_other]
    dsimp only
    rw [hp]
    exact ⟨rfl, rfl, shown, rfl, otherBells_of_onlyFaults only, onlyBells_of_onlyFaults only⟩

/-! #### O49, O50: pieces -/

/-- Two records of a section's bells agree in the crossing, the hold and the slots. -/
structure BellState.SameClocks (b c : BellState) : Prop where
  crossed : c.crossed = b.crossed
  silent : c.silentSince = b.silentSince
  held : c.heldSince = b.heldSince
  awaited : c.awaited = b.awaited
  owed : c.owed = b.owed

/-- Two records of a section's bells agree in all but the levels of the inputs, the drive and the sounder. -/
structure BellState.SameRinging (b c : BellState) : Prop extends BellState.SameClocks b c where
  outbound : c.outbound = b.outbound
  inbound : c.inbound = b.inbound

theorem BellState.SameRinging.side {b c : BellState} (h : b.SameRinging c) (d : Direction) : c.side d = b.side d := by
  cases d
  · exact h.outbound
  · exact h.inbound

theorem BellState.setSide_rest (b : BellState) (d : Direction) (a : Assembler) :
    (b.setSide d a).heldSince = b.heldSince ∧ (b.setSide d a).awaited = b.awaited ∧ (b.setSide d a).owed = b.owed ∧
    (b.setSide d a).crossed = b.crossed ∧ (b.setSide d a).silentSince = b.silentSince ∧
    (b.setSide d a).plunger = b.plunger ∧ (b.setSide d a).sense = b.sense ∧
    (b.setSide d a).driveSince = b.driveSince ∧ (b.setSide d a).sounderUntil = b.sounderUntil := by
  cases d <;> exact ⟨rfl, rfl, rfl, rfl, rfl, rfl, rfl, rfl, rfl⟩

/-- R109: the hold and the deadlines after a change of a piece. -/
theorem holdMoves_after {x : SectionId} {s t : State} {b : BellState} (ht : t.bell x = (b.holdUpdate s.now).silenceUpdate s.now)
    (held : b.heldSince = (s.bell x).heldSince) (awaited : b.awaited = (s.bell x).awaited) (owed : b.owed = (s.bell x).owed) :
    HoldMoves x s t := by
  unfold HoldMoves; intro goesOn
  have iff : b.holds = true ↔ goesOn := by
    refine b.holds_iff.trans (exists_congr fun d => ?_)
    rw [ht, BellState.after_side]
  obtain ⟨-, -, -, -, -, -, -, h1, h2, h3, -⟩ := b.after_spec s.now
  rw [← held, ← awaited, ← owed, ht, h1, h2, h3]
  refine ⟨fun h => (BellState.holdUpdate_holds (iff.2 h)).1, fun h => ?_, fun k hk h => ?_, fun h => ?_⟩
  · exact (BellState.holdUpdate_released (Bool.eq_false_iff.2 (mt iff.1 h))).1
  · exact (BellState.holdUpdate_released (Bool.eq_false_iff.2 (mt iff.1 h))).2.1 k hk
  · by_cases hg : goesOn
    · exact (BellState.holdUpdate_holds (iff.2 hg)).2
    · exact (BellState.holdUpdate_released (Bool.eq_false_iff.2 (mt iff.1 hg))).2.2 (h.resolve_right hg)

/-- R112: the silence of a section after a change of a piece. -/
theorem silenceRuns_after {x : SectionId} {s t : State} {b : BellState} (ht : t.bell x = (b.holdUpdate s.now).silenceUpdate s.now)
    (crossed : b.crossed = (s.bell x).crossed) (silent : b.silentSince = (s.bell x).silentSince) : SilenceRuns x s t := by
  unfold SilenceRuns; intro pressed
  have iff : (b.outbound.pressed || b.inbound.pressed) = true ↔ pressed := by
    refine b.pressed_iff.trans (exists_congr fun d => ?_)
    rw [ht, BellState.after_side]
  obtain ⟨-, -, h1, -, -, -, -, -, -, -, h2, h3⟩ := b.after_spec s.now
  rw [← crossed, ← silent, ht]
  exact ⟨h1, fun hc hp => (h2 hc).trans (if_pos (iff.2 hp)), fun hc hp => (h2 hc).trans (if_neg (mt iff.1 hp)), h3⟩

/-- R106: a piece ends, its press and the code of a qualified press with it. -/
theorem Assembler.pieceEnd_spec (now : Time) (a : Assembler) :
    (∀ p, a.piece = some p → p.release = none →
      (a.pieceEnd now).piece = some { p with release := some now } ∧
      (a.pieceEnd now).press = a.press.map (fun q => { q with release := some now }) ∧
      ((∃ q, a.press = some q ∧ q.qualified = true) → (a.pieceEnd now).code = a.code.map fun c => { c with release := some now }) ∧
      ((∀ q, a.press = some q → q.qualified = false) → (a.pieceEnd now).code = a.code)) ∧
    ((∀ p, a.piece = some p → p.release ≠ none) → a.pieceEnd now = a) := by
  unfold Assembler.pieceEnd
  refine ⟨fun p hp hr => ?_, fun h => if_neg fun hb => ?_⟩
  · rw [if_pos (a.pressed_iff.2 ⟨p, hp, hr⟩)]
    dsimp only; rw [hp]
    refine ⟨rfl, rfl, fun ⟨q, hq, hqq⟩ => ?_, fun h => ?_⟩
    · exact if_pos (by rw [hq]; exact hqq)
    · refine if_neg fun hb => ?_
      obtain ⟨q, hq, hqq⟩ := (Option.any_eq_true _ _).1 hb
      rw [h q hq] at hqq; exact nomatch hqq
  · obtain ⟨p, hp, hr⟩ := a.pressed_iff.1 hb
    exact h p hp hr

namespace State

variable {x : SectionId} {g : BellState → BellState} {s : State}

/-- R106: the end of a piece, after an update of the levels. -/
theorem endPiece_eq (d : Direction) : (s.updBell x g).endPiece x d =
    s.updBell x fun b => (((g b).setSide d (((g b).side d).pieceEnd s.now)).holdUpdate s.now).silenceUpdate s.now := by
  change (((s.updBell x g).updBell x fun b => b.setSide d ((b.side d).pieceEnd s.now)).updBell x
    fun b => (b.holdUpdate s.now).silenceUpdate s.now) = _
  rw [updBell_updBell, updBell_updBell]

theorem endPiece_spec {d : Direction} (hg : (s.bell x).SameClocks (g (s.bell x))) (hd : (g (s.bell x)).side d = (s.bell x).side d) :
    let t := (s.updBell x g).endPiece x d
    PieceEnds x d s t ∧ HoldMoves x s t ∧ SilenceRuns x s t ∧ OtherBells x s t ∧
    (t.bell x).side (otherDir d) = (g (s.bell x)).side (otherDir d) ∧
    (t.bell x).plunger = (g (s.bell x)).plunger ∧ (t.bell x).sense = (g (s.bell x)).sense ∧
    (t.bell x).driveSince = (g (s.bell x)).driveSince ∧ (t.bell x).sounderUntil = (g (s.bell x)).sounderUntil := by
  intro t
  have eq : t = _ := endPiece_eq d
  have bell : t.bell x = ((((g (s.bell x)).setSide d (((g (s.bell x)).side d).pieceEnd s.now)).holdUpdate s.now).silenceUpdate
      s.now) := by rw [eq, bell_updBell_same]
  have side : (t.bell x).side d = ((s.bell x).side d).pieceEnd s.now := by
    rw [bell, BellState.after_side, BellState.side_setSide_same, hd]
  obtain ⟨ends, stands⟩ := Assembler.pieceEnd_spec s.now ((s.bell x).side d)
  rw [← side] at ends stands
  obtain ⟨-, -, -, p1, p2, p3, p4, -⟩ := BellState.after_spec s.now ((g (s.bell x)).setSide d (((g (s.bell x)).side d).pieceEnd s.now))
  obtain ⟨k1, k2, k3, k4, k5, k6, k7, k8, k9⟩ := (g (s.bell x)).setSide_rest d (((g (s.bell x)).side d).pieceEnd s.now)
  refine ⟨⟨ends, stands, by rw [eq]; rfl⟩,
    holdMoves_after bell (k1.trans hg.held) (k2.trans hg.awaited) (k3.trans hg.owed),
    silenceRuns_after bell (k4.trans hg.crossed) (k5.trans hg.silent),
    by rw [eq]; exact otherBells_updBell x _ s, ?_, ?_, ?_, ?_, ?_⟩
  · rw [bell, BellState.after_side, BellState.side_setSide_other]
  · rw [bell, p1, k6]
  · rw [bell, p2, k7]
  · rw [bell, p3, k8]
  · rw [bell, p4, k9]

end State

/-- Two states that differ in the bells alone. -/
def ButBells (s t : State) : Prop := t = { s with bells := t.bells }

namespace State

/-- The state with other bells. -/
def withBells (b : Bank BellState 4) (s : State) : State := { s with bells := b }

theorem report_withBells (c : Category) (o e : Nat) (d : List Byte) (s : State) (b : Bank BellState 4) :
    (s.withBells b).report c o e d = (s.report c o e d).withBells b := by
  unfold State.report
  rw [show (s.withBells b).reports c = s.reports c from rfl]
  cases s.reports c with
  | false => rfl
  | true =>
    rw [if_pos rfl, if_pos rfl]; dsimp only
    rw [show (s.withBells b).link = s.link from rfl]
    split <;> rfl

theorem endFault_withBells (c : FaultClass) (o : Nat) (s : State) (b : Bank BellState 4) :
    (s.withBells b).endFault c o = (s.endFault c o).withBells b := by
  unfold State.endFault
  rw [show (s.withBells b).faults = s.faults from rfl]
  cases s.faults.entryOf c o with
  | none => rfl
  | some e =>
    dsimp only
    split
    · exact report_withBells _ _ _ _ (s.setEntries _) b
    · rfl

end State

namespace ButBells

variable {s t : State} (h : ButBells s t)
include h

theorem report (c : Category) (o e : Nat) (d : List Byte) : ButBells (s.report c o e d) (t.report c o e d) := by
  have told := State.report_withBells c o e d s t.bells
  rw [show s.withBells t.bells = t from h.symm] at told
  rw [told]; rfl

theorem endFault (c : FaultClass) (o : Nat) : ButBells (s.endFault c o) (t.endFault c o) := by
  have ended := State.endFault_withBells c o s t.bells
  rw [show s.withBells t.bells = t from h.symm] at ended
  rw [ended]; rfl

theorem setAssembler (x : SectionId) (d : Direction) (f : Assembler → Assembler) :
    ButBells (s.setAssembler x d f) (t.setAssembler x d f) := by
  unfold ButBells; rw [h]; rfl

theorem ite (b : Bool) {u v : State} (g : ButBells u v) : ButBells (if b then u else s) (if b then v else t) := by
  cases b
  · exact h
  · exact g

end ButBells

namespace State

variable {x : SectionId} {g : BellState → BellState} {s : State}

/-- R106: a press settles alike whatever the levels, the drive and the sounder. -/
theorem settle_butBells (hg : (s.bell x).SameRinging (g (s.bell x))) (d : Direction) :
    ButBells (s.settle x d) ((s.updBell x g).settle x d) := by
  have butBells : ButBells s (s.updBell x g) := rfl
  have side : ∀ e, ((s.updBell x g).bell x).side e = (s.bell x).side e := fun e => by rw [bell_updBell_same, hg.side]
  cases hp : ((s.bell x).side d).press with
  | none =>
    have idle : ∀ u : State, ((u.bell x).side d).press = none → u.settle x d = u := fun u h => by unfold State.settle; rw [h]
    rw [idle s hp, idle _ (by rw [side]; exact hp)]; exact butBells
  | some p =>
    rw [settle_eq hp, settle_eq (s := s.updBell x g) (by rw [side]; exact hp)]
    dsimp only
    rw [show (s.updBell x g).settledSide p = s.settledSide p from rfl]
    generalize s.settledSide p = f
    have settled := butBells.setAssembler x d f
    have rings : ((s.updBell x g).setAssembler x d f).ringStands x = (s.setAssembler x d f).ringStands x := by
      unfold State.ringStands
      rw [bell_setAssembler_same, bell_setAssembler_same, side, bell_updBell_same]
      cases d
      · exact congrArg (fun a : Assembler => _ || a.press.any (·.ringReached)) hg.inbound
      · exact congrArg (fun a : Assembler => a.press.any (·.ringReached) || _) hg.outbound
    have faults : ((s.updBell x g).setAssembler x d f).bellFaults x = (s.setAssembler x d f).bellFaults x := rfl
    rw [rings, faults]
    exact settled.ite p.ringReached (ButBells.report (settled.ite _ (settled.endFault _ _)) _ _ _ _)

end State

/-- R106: a piece starts. -/
theorem Assembler.pieceStart_spec (now merge : Nat) (assembles : Bool) (a : Assembler) :
    let b := a.pieceStart now merge assembles
    b.piece = some (newPiece now) ∧ b.code = a.code ∧ (assembles = false → b.press = none) ∧
    (assembles = true → a.press = none → b.press = some (newPress now)) ∧
    (∀ p r, assembles = true → a.press = some p → p.release = some r → now < r + merge →
      b.press = some { p with release := none }) := by
  refine ⟨rfl, rfl, fun h => ?_, fun h hp => ?_, fun p r h hp hr hlt => ?_⟩ <;>
    (unfold Assembler.pieceStart; dsimp only; rw [h])
  · rfl
  · rw [hp]; rfl
  · rw [hp, if_pos rfl]; exact if_pos (by rw [hr]; exact hlt)

namespace State

theorem settleDue_iff_press (s : State) (x : SectionId) (d : Direction) : s.settleDue x d = true ↔
    s.assembles x = true ∧ ∃ p r, ((s.bell x).side d).press = some p ∧ p.release = some r ∧
      r + s.timing.mergeGap.toNat ≤ s.now := by
  cases ha : s.assembles x with
  | false => rw [settleDue_absent (.inr ha)]; simp
  | true =>
    cases hp : ((s.bell x).side d).press with
    | none => rw [settleDue_absent (.inl hp)]; simp
    | some p => rw [settleDue_iff hp ha]; simp

variable {x : SectionId} {g : BellState → BellState} {s : State}

/-- R106: a piece starts on the bells `u`, of which the press before it may have settled. -/
theorem pieceStarted_bell {u : State} {a : Assembler} (d : Direction) (now : u.now = s.now) (store : u.store = s.store)
    (bell : u.bell x = (g (s.bell x)).setSide d a) :
    let t := (u.setAssembler x d (Assembler.pieceStart u.now u.timing.mergeGap.toNat (u.assembles x))).bellAfter x
    t.bell x = (((g (s.bell x)).setSide d (a.pieceStart s.now s.timing.mergeGap.toNat (s.assembles x))).holdUpdate
      s.now).silenceUpdate s.now := by
  intro t
  have table : u.table = s.table := by unfold State.table; rw [store]
  have assembles : u.assembles x = s.assembles x := by
    unfold State.assembles State.hasTable State.sectionFitted State.sectionRec; rw [table, store]
  have timing : u.timing = s.timing := by unfold State.timing; rw [table]
  change ((u.setAssembler x d _).bellAfter x).bell x = _
  rw [bellAfter_bell, bell_setAssembler_same, assembles, timing]
  change ((((u.bell x).setSide d _).holdUpdate u.now).silenceUpdate u.now) = _
  rw [now, bell, BellState.side_setSide_same]
  cases d <;> rfl

/-- R103, R106, R109, R112: a piece starts, after an update of the levels. -/
theorem startPiece_spec (hg : (s.bell x).SameRinging (g (s.bell x))) (d : Direction) :
    let t := (s.updBell x g).startPiece x d
    PieceStarts x d s t ∧ HoldMoves x s t ∧ SilenceRuns x s t ∧ OtherBells x s t ∧ OnlyBells s t ∧
    (t.bell x).side (otherDir d) = (s.bell x).side (otherDir d) ∧
    (t.bell x).plunger = (g (s.bell x)).plunger ∧ (t.bell x).sense = (g (s.bell x)).sense ∧
    (t.bell x).driveSince = (g (s.bell x)).driveSince ∧ (t.bell x).sounderUntil = (g (s.bell x)).sounderUntil := by
  intro t
  have sides : ∀ e, ((s.updBell x g).bell x).side e = (s.bell x).side e := fun e => by rw [bell_updBell_same, hg.side]
  have due : (s.updBell x g).settleDue x d = s.settleDue x d := by
    rw [Bool.eq_iff_iff, settleDue_iff_press, settleDue_iff_press, sides]; rfl
  -- the bells after the press before the piece has settled, or as they stand
  have before : ∃ u a, t = (u.setAssembler x d (Assembler.pieceStart u.now u.timing.mergeGap.toNat (u.assembles x))).bellAfter x ∧
      OnlyBells s u ∧ u.now = s.now ∧ u.store = s.store ∧ OtherBells x s u ∧ u.bell x = (g (s.bell x)).setSide d a ∧
      (s.settleDue x d = false → a = (s.bell x).side d ∧ ButBells s u) ∧
      (s.settleDue x d = true → a.press = none ∧ a.code = (((s.settle x d).bell x).side d).code ∧ ButBells (s.settle x d) u) := by
    cases hd : s.settleDue x d with
    | false =>
      refine ⟨s.updBell x g, (s.bell x).side d, ?_, onlyBells_of_onlyFaults (.refl _), rfl, rfl, otherBells_updBell x g s, ?_,
        fun _ => ⟨rfl, rfl⟩, fun h => nomatch h⟩
      · change (s.updBell x g).startPiece x d = _
        unfold State.startPiece; rw [due, hd]; rfl
      · rw [bell_updBell_same, ← hg.side]; cases d <;> rfl
    | true =>
      obtain ⟨-, p, -, hp, -, -⟩ := (settleDue_iff_press s x d).1 hd
      obtain ⟨own, -⟩ := settle_spec hp
      obtain ⟨only, -⟩ := settle_spec (s := s.updBell x g) (d := d) ((congrArg Assembler.press (sides d)).trans hp)
      have fused : OnlyFaults (s.updBell x fun b => (g b).setSide d (s.settledSide p ((g b).side d))) ((s.updBell x g).settle x d) := by
        rw [show (s.updBell x g).settledSide p = s.settledSide p from rfl] at only
        unfold State.setAssembler at only; rw [updBell_updBell] at only; exact only
      obtain ⟨bell, others, -⟩ := onlyFaults_updBell fused
      refine ⟨(s.updBell x g).settle x d, s.settledSide p ((s.bell x).side d), ?_, onlyBells_of_onlyFaults fused, ?_, ?_, others, ?_,
        fun h => (nomatch h), fun _ => ⟨rfl, ?_, settle_butBells hg d⟩⟩
      · change (s.updBell x g).startPiece x d = _
        unfold State.startPiece; rw [due, hd]; rfl
      · obtain ⟨_, _, h⟩ := fused; rw [h]; rfl
      · obtain ⟨_, _, h⟩ := fused; rw [h]; rfl
      · rw [bell, hg.side]
      · rw [(onlyFaults_updBell own).1, BellState.side_setSide_same]
  obtain ⟨u, a, eq, only, now, store, others, bell, stands, settled⟩ := before
  have after := pieceStarted_bell (s := s) d now store bell
  dsimp only at after
  rw [← eq] at after
  have side : (t.bell x).side d = a.pieceStart s.now s.timing.mergeGap.toNat (s.assembles x) := by
    rw [after, BellState.after_side, BellState.side_setSide_same]
  obtain ⟨piece, code, bare, fresh, joins⟩ := Assembler.pieceStart_spec s.now s.timing.mergeGap.toNat (s.assembles x) a
  rw [← side] at piece code bare fresh joins
  obtain ⟨-, -, -, p1, p2, p3, p4, -⟩ := BellState.after_spec s.now
    ((g (s.bell x)).setSide d (a.pieceStart s.now s.timing.mergeGap.toNat (s.assembles x)))
  obtain ⟨k1, k2, k3, k4, k5, k6, k7, k8, k9⟩ := (g (s.bell x)).setSide_rest d (a.pieceStart s.now s.timing.mergeGap.toNat (s.assembles x))
  have butBells : ButBells u t := by rw [eq]; rfl
  have iff := settleDue_iff_press s x d
  refine ⟨⟨piece, bare, fun ha h => fresh ha ?_, fun p r ha hp hr hlt => ?_, fun h => ?_, fun h w taken => ?_⟩,
    holdMoves_after after (k1.trans hg.held) (k2.trans hg.awaited) (k3.trans hg.owed),
    silenceRuns_after after (k4.trans hg.crossed) (k5.trans hg.silent), ?_, ?_, ?_, ?_, ?_, ?_, ?_⟩
  · cases hd : s.settleDue x d with
    | true => exact (settled hd).1
    | false => rw [(stands hd).1]; exact h.resolve_right fun hs => Bool.false_ne_true (hd.symm.trans (iff.2 hs))
  · have idle : s.settleDue x d = false := Bool.eq_false_iff.2 fun hd => by
      obtain ⟨-, q, w, hq, hw, hle⟩ := iff.1 hd
      rw [hp] at hq; cases hq
      rw [hr] at hw; cases hw
      exact absurd hlt (Nat.not_lt.2 hle)
    exact joins p r ha (by rw [(stands idle).1]; exact hp) hr hlt
  · obtain ⟨ha, hu⟩ := stands (Bool.eq_false_iff.2 (mt iff.1 h))
    refine ⟨by rw [code, ha], ?_⟩
    rw [butBells, hu]
  · obtain ⟨-, hcode, hu⟩ := settled (iff.2 h)
    obtain rfl : s.settle x d = w := by
      have := (exec_pressSettles x d s).symm.trans taken
      rw [iff.2 h] at this
      exact Host.Outcome.next.inj this
    refine ⟨code.trans hcode, ?_⟩
    rw [butBells, hu]
  · intro y hy
    refine Eq.trans ?_ (others y hy)
    rw [eq]
    exact (otherBells_updBell x _ _ y hy).trans (otherBells_updBell x _ u y hy)
  · rw [butBells]
    obtain ⟨_, l, f, fr, tr, sq, se, lo, no, h⟩ := only
    rw [h]; exact ⟨t.bells, l, f, fr, tr, sq, se, lo, no, rfl⟩
  · rw [after, BellState.after_side, BellState.side_setSide_other, hg.side]
  · rw [after, p1, k6]
  · rw [after, p2, k7]
  · rw [after, p3, k8]
  · rw [after, p4, k9]

end State

theorem onlyBells_withBells (s t : State) (h : t = { s with bells := t.bells }) : OnlyBells s t :=
  ⟨t.bells, s.link, s.faults, s.frame, s.tracks, s.seqs, s.sections, s.locks, s.notices, h⟩

/-- Settles O49. -/
theorem bellInputs : Obligations.BellInputs := by
  intro s x on
  have plunger : (s.bell x).SameRinging { s.bell x with plunger := on } := ⟨⟨rfl, rfl, rfl, rfl, rfl⟩, rfl, rfl⟩
  have sense : (s.bell x).SameRinging { s.bell x with sense := on } := ⟨⟨rfl, rfl, rfl, rfl, rfl⟩, rfl, rfl⟩
  refine ⟨fun h => congrArg Host.Outcome.next (if_pos h), fun h => congrArg Host.Outcome.next (if_pos h), fun h => ?_,
    fun h hd => ?_, fun h hd => ?_⟩
  · have taken : exec (.bellPlungerChange x on) s = .next (if on then (s.updBell x fun b => { b with plunger := on }).startPiece x .outbound
        else (s.updBell x fun b => { b with plunger := on }).endPiece x .outbound) := congrArg Host.Outcome.next (if_neg h)
    refine ⟨_, taken, ?_⟩
    beta_reduce
    cases on with
    | true =>
      obtain ⟨starts, hold, silence, others, only, other, p1, p2, p3, p4⟩ :=
        State.startPiece_spec (g := fun b => { b with plunger := true }) plunger .outbound
      exact ⟨p1, p2, other, p3, p4, fun _ => starts, fun h => (nomatch h), hold, silence, others, only⟩
    | false =>
      obtain ⟨ends, hold, silence, others, other, p1, p2, p3, p4⟩ :=
        State.endPiece_spec (g := fun b => { b with plunger := false }) (d := .outbound) plunger.toSameClocks rfl
      exact ⟨p1, p2, other, p3, p4, fun h => (nomatch h), fun _ => ends, hold, silence, others, onlyBells_withBells _ _ ends.2.2⟩
  · have taken : exec (.bellSenseChange x on) s = .next (if on then (s.updBell x fun b => { b with sense := on }).startPiece x .inbound
        else (s.updBell x fun b => { b with sense := on }).endPiece x .inbound) :=
      congrArg Host.Outcome.next ((if_neg h).trans (if_neg (by unfold BellState.driving; rw [hd]; exact Bool.false_ne_true)))
    refine ⟨_, taken, ?_⟩
    beta_reduce
    cases on with
    | true =>
      obtain ⟨starts, hold, silence, others, only, other, p1, p2, p3, p4⟩ :=
        State.startPiece_spec (g := fun b => { b with sense := true }) sense .inbound
      exact ⟨p2, p1, other, p3.trans hd, p4, fun _ => starts, fun h => (nomatch h), hold, silence, others, only⟩
    | false =>
      obtain ⟨ends, hold, silence, others, other, p1, p2, p3, p4⟩ :=
        State.endPiece_spec (g := fun b => { b with sense := false }) (d := .inbound) sense.toSameClocks rfl
      exact ⟨p2, p1, other, p3.trans hd, p4, fun h => (nomatch h), fun _ => ends, hold, silence, others,
        onlyBells_withBells _ _ ends.2.2⟩
  · exact congrArg Host.Outcome.next ((if_neg h).trans (if_pos (Option.isSome_iff_ne_none.2 hd)))

/-- R104, R105: a piece of the beat minimum that has not been counted. -/
theorem ripe_iff (a : Assembler) (now limit : Nat) :
    (a.piece.any fun p => !p.counted && decide (limit ≤ p.extent now)) = true ↔
      ∃ p, a.piece = some p ∧ p.counted = false ∧ limit ≤ p.release.getD now - p.start := by
  rw [Option.any_eq_true]
  refine exists_congr fun p => and_congr_right fun _ => ?_
  rw [Bool.and_eq_true, Bool.not_eq_true']
  exact and_congr_right fun _ => decide_eq_true_iff

theorem State.driveEndDue_iff (s : State) (x : SectionId) : s.driveEndDue x = true ↔
    ∃ d, (s.bell x).driveSince = some d ∧ d + 60 ≤ s.now ∧
      ∀ p, (s.bell x).outbound.piece = some p → p.counted = true → p.release ≠ none := by
  unfold State.driveEndDue
  cases hd : (s.bell x).driveSince with
  | none => simp
  | some d =>
    dsimp only
    rw [Bool.and_eq_true, Bool.not_eq_true']
    have none : (s.bell x).outbound.piece.any (fun p => p.pressed && p.counted) = false ↔
        ∀ p, (s.bell x).outbound.piece = some p → p.counted = true → p.release ≠ none := by
      rw [Bool.eq_false_iff, Ne, Option.any_eq_true]
      refine ⟨fun h p hp hc hr => h ⟨p, hp, ?_⟩, fun h ⟨p, hp, hb⟩ => ?_⟩
      · unfold Piece.pressed; rw [hr, hc]; rfl
      · obtain ⟨hr, hc⟩ := Bool.and_eq_true_iff.1 hb
        exact h p hp hc (Option.isNone_iff_eq_none.1 hr)
    rw [none]
    refine ⟨fun ⟨h1, h2⟩ => ⟨d, rfl, of_decide_eq_true h1, h2⟩, fun ⟨k, hk, h1, h2⟩ => ?_⟩
    obtain rfl := Option.some.inj hk
    exact ⟨decide_eq_true h1, h2⟩

/-- A piece that has asked for its pulse or its strike. -/
def Assembler.countedPiece (a : Assembler) : Assembler := { a with piece := a.piece.map fun p => { p with counted := true } }

/-- R104: the bells of a section as its line drive starts. -/
def BellState.drivenFrom (now : Time) (b : BellState) : BellState :=
  { b with outbound := b.outbound.countedPiece, driveSince := some now }

/-- R103, R104: the line drive starts. -/
theorem State.driveStart_spec {s : State} {x : SectionId} (hd : (s.bell x).driveSince = none) :
    let t := s.driveStart x
    (t.bell x).driveSince = some s.now ∧ (t.bell x).outbound = (s.bell x).outbound.countedPiece ∧ PieceEnds x .inbound s t ∧
    ((∃ p, (s.bell x).inbound.piece = some p ∧ p.release = none) → HoldMoves x s t ∧ SilenceRuns x s t) ∧
    OtherBells x s t ∧ t = { s with bells := t.bells } := by
  intro t
  have driven : (s.setAssembler x .outbound Assembler.countedPiece).updBell x (fun b => { b with driveSince := some s.now }) =
      s.updBell x (BellState.drivenFrom s.now) := State.updBell_updBell x _ _ s
  have started : t = if (s.bell x).inbound.pressed then (s.updBell x (BellState.drivenFrom s.now)).endPiece x .inbound
      else s.updBell x (BellState.drivenFrom s.now) := by
    rw [← driven]
    exact if_neg (by unfold BellState.driving; rw [hd]; exact Bool.false_ne_true)
  have clocks : (s.bell x).SameClocks (BellState.drivenFrom s.now (s.bell x)) := ⟨rfl, rfl, rfl, rfl, rfl⟩
  by_cases hp : (s.bell x).inbound.pressed = true
  · rw [started, if_pos hp]
    obtain ⟨ends, hold, silence, others, other, -, -, p3, -⟩ :=
      State.endPiece_spec (g := BellState.drivenFrom s.now) (d := .inbound) clocks rfl
    exact ⟨p3, other, ends, fun _ => ⟨hold, silence⟩, others, ends.2.2⟩
  · rw [started, if_neg hp]
    have bell := State.bell_updBell_same x (BellState.drivenFrom s.now) s
    have idle : ∀ p, (s.bell x).inbound.piece = some p → p.release ≠ none := fun p h hr =>
      hp ((s.bell x).inbound.pressed_iff.2 ⟨p, h, hr⟩)
    refine ⟨by rw [bell]; rfl, by rw [bell]; rfl, ⟨fun p h hr => absurd hr (idle p h), fun _ => ?_, rfl⟩,
      fun ⟨p, h, hr⟩ => absurd hr (idle p h), otherBells_updBell x _ s, rfl⟩
    rw [bell]; rfl

/-- Settles O50. -/
theorem drivesAndStrikes : Obligations.DrivesAndStrikes := by
  intro s x ripe stop counted
  have ripeOut : s.driveStartDue x = true ↔ ripe (s.bell x).outbound := ripe_iff _ _ _
  have ripeIn : s.strikeDue x = true ↔ ripe (s.bell x).inbound := ripe_iff _ _ _
  have stops : s.driveEndDue x = true ↔ stop := s.driveEndDue_iff x
  refine ⟨fun h => congrArg Host.Outcome.next (if_neg (mt ripeOut.1 h)), fun h hd => ?_, fun h hd => ?_,
    fun h => congrArg Host.Outcome.next (if_neg (mt stops.1 h)), fun h => ?_,
    fun h => congrArg Host.Outcome.next (if_neg (mt ripeIn.1 h)), fun h => congrArg Host.Outcome.next (if_pos (ripeIn.2 h)),
    fun d hd hle => ?_, fun h => ?_⟩
  · exact congrArg Host.Outcome.next ((if_pos (ripeOut.2 h)).trans (if_pos (Option.isSome_iff_ne_none.2 hd)))
  · exact ⟨_, congrArg Host.Outcome.next (if_pos (ripeOut.2 h)), State.driveStart_spec hd⟩
  · refine ⟨s.driveStop x, congrArg Host.Outcome.next (if_pos (stops.2 h)), ?_⟩
    beta_reduce
    have off : (s.bell x).SameRinging { s.bell x with driveSince := none } := ⟨⟨rfl, rfl, rfl, rfl, rfl⟩, rfl, rfl⟩
    cases hs : (s.bell x).sense with
    | true =>
      have started : s.driveStop x = (s.updBell x fun b => { b with driveSince := none }).startPiece x .inbound := if_pos hs
      rw [started]
      obtain ⟨starts, hold, silence, others, only, other, -, -, p3, -⟩ :=
        State.startPiece_spec (g := fun b => { b with driveSince := none }) off .inbound
      exact ⟨p3, other, fun _ => ⟨starts, hold, silence⟩, fun h => (nomatch h), others, only⟩
    | false =>
      have stopped : s.driveStop x = s.updBell x fun b => { b with driveSince := none } :=
        if_neg (by rw [hs]; exact Bool.false_ne_true)
      rw [stopped]
      have bell := State.bell_updBell_same x (fun b => { b with driveSince := none }) s
      refine ⟨by rw [bell], by rw [bell], fun h => (nomatch h), fun _ => rfl, otherBells_updBell x _ s, onlyBells_withBells _ _ rfl⟩
  · refine congrArg Host.Outcome.next (if_pos ?_)
    unfold State.soundOffDue; rw [hd]; exact decide_eq_true hle
  · refine congrArg Host.Outcome.next (if_neg ?_)
    unfold State.soundOffDue
    rcases h with h | ⟨d, h, hlt⟩
    · rw [h]; exact Bool.false_ne_true
    · rw [h]; exact fun hb => absurd (of_decide_eq_true hb) (Nat.not_le.2 hlt)

/-! ### O53: the end of a code -/

theorem codeInSet_append {k : Nat} {gs : List Nat} {before after : List Record} {r : CodeRec}
    (hr : r.codeSets.getLsbD k = true ∧ r.groups.map (·.toNat) = gs)
    (hb : ∀ q, .code q ∈ before → ¬(q.codeSets.getLsbD k = true ∧ q.groups.map (·.toNat) = gs)) :
    codeInSet k gs (before ++ .code r :: after) = some r := by
  induction before with
  | nil => exact if_pos (by simp [hr])
  | cons q qs ih =>
    have rest := ih fun p hp => hb p (List.mem_cons_of_mem q hp)
    cases q with
    | code p => exact (if_neg (by have := hb p List.mem_cons_self; simpa using this)).trans rest
    | _ => exact rest

theorem codeInSet_none {k : Nat} {gs : List Nat} {rs : List Record}
    (h : ∀ q, .code q ∈ rs → ¬(q.codeSets.getLsbD k = true ∧ q.groups.map (·.toNat) = gs)) : codeInSet k gs rs = none := by
  induction rs with
  | nil => rfl
  | cons q qs ih =>
    have rest := ih fun p hp => h p (List.mem_cons_of_mem q hp)
    cases q with
    | code p => exact (if_neg (by have := h p List.mem_cons_self; simpa using this)).trans rest
    | _ => exact rest

namespace State

theorem codeEndDue_iff {s : State} {x : SectionId} {d : Direction} {c : Code} (hc : ((s.bell x).side d).code = some c) :
    s.codeEndDue x d = true ↔ (∀ p, ((s.bell x).side d).press = some p → p.qualified = true → p.release ≠ none) ∧
      ∃ r, c.release = some r ∧ r + s.timing.codeEndGap.toNat ≤ s.now := by
  unfold State.codeEndDue; dsimp only; rw [hc]; dsimp only
  rw [Bool.and_eq_true, Bool.not_eq_true', Bool.eq_false_iff, Ne, Option.any_eq_true]
  refine and_congr ⟨fun h p hp hq hr => h ⟨p, hp, ?_⟩, fun h ⟨p, hp, hb⟩ => ?_⟩ ?_
  · unfold Press.pressed; rw [hr, hq]; rfl
  · obtain ⟨hr, hq⟩ := Bool.and_eq_true_iff.1 hb
    exact h p hp hq (Option.isNone_iff_eq_none.1 hr)
  · cases c.release with
    | none => simp
    | some r =>
      refine ⟨fun h => ⟨r, rfl, of_decide_eq_true h⟩, fun ⟨k, hk, h⟩ => ?_⟩
      obtain rfl := Option.some.inj hk
      exact decide_eq_true h

theorem updBell_of_same {x : SectionId} {f : BellState → BellState} {s : State} (h : f (s.bell x) = s.bell x) :
    s.updBell x f = s := by
  unfold State.updBell; rw [h]
  unfold State.bell; rw [Bank.put_at_self]

end State

theorem OnlyLink.updBell {s t : State} (h : OnlyLink s t) (x : SectionId) (f : BellState → BellState) :
    OnlyLink (s.updBell x f) (t.updBell x f) := by
  obtain ⟨l, rfl⟩ := h; exact ⟨l, rfl⟩

theorem OnlyEval.sections_eq {s t : State} (h : OnlyEval s t) : t.sections = s.sections := by
  obtain ⟨_, _, _, rfl⟩ := h; rfl

namespace State

variable {x : SectionId} {r : CodeRec} {s : State}

/-- R115, R116, R118: an exchange completes: its report, and the block unit takes it. -/
theorem completeExchange_spec (d : Direction) :
    let told := s.report .bell (secCode x).toNat 3 [dirCode d, r.entry, r.meaning, r.trainClass]
    (∀ m, Meaning.ofCode r.meaning.toNat = some m → s.completeExchange x d r =
      told.takeExchange x { dir := d, entry := r.entry.toNat, meaning := m, trainClass := r.trainClass.toNat }) ∧
    OnlyField s (s.completeExchange x d r) := by
  intro told
  have only : OnlyField s told := (report_only _ _ _ _ s).field
  have completes : s.completeExchange x d r = match exchangeOf d r with | none => told | some e => told.takeExchange x e := rfl
  refine ⟨fun m hm => ?_, ?_⟩
  · rw [completes]
    unfold exchangeOf; rw [hm]; rfl
  · rw [completes]
    cases exchangeOf d r with
    | none => exact only
    | some e => exact only.trans (takeExchange_only x e told)

/-- R115: an outbound code that answers the owed one. -/
theorem outboundEnded_answers {o : Slot} (ho : (s.bell x).owed = some o) (he : o.entry = r.entry.toNat) :
    s.outboundEnded x r = (s.updBell x fun b => { b with owed := none }).completeExchange x .inbound r := by
  refine if_pos ?_
  rw [ho]; exact beq_iff_eq.2 he

/-- R115: an owed code lapses, with its report. -/
def owedLapsed (x : SectionId) (s : State) : State :=
  match (s.bell x).owed with
  | none => s
  | some o => (s.updBell x fun b => { b with owed := none }).bellReport x 7 [byte o.entry]

theorem owedLapsed_only (x : SectionId) (s : State) : OnlyLink (s.updBell x fun b => { b with owed := none }) (s.owedLapsed x) := by
  unfold owedLapsed
  cases ho : (s.bell x).owed with
  | none =>
    have same : s.updBell x (fun b => { b with owed := none }) = s := updBell_of_same (by rw [← ho])
    rw [same]; exact OnlyLink.refl s
  | some o => exact report_only _ _ _ _ _

/-- R115: any other outbound code is awaited, and an owed one lapses. -/
theorem outboundEnded_awaits (h : ∀ o, (s.bell x).owed = some o → o.entry ≠ r.entry.toNat) :
    OnlyLink (s.updBell x fun b => { b with owed := none, awaited := some (s.newSlot r.entry.toNat) }) (s.outboundEnded x r) := by
  have other : ¬(s.bell x).owed.any (fun o => o.entry == r.entry.toNat) = true := fun hb => by
    obtain ⟨o, ho, he⟩ := (Option.any_eq_true _ _).1 hb
    exact h o ho (beq_iff_eq.1 he)
  have awaits := (owedLapsed_only x s).updBell x fun b => { b with awaited := some (s.newSlot r.entry.toNat) }
  rw [updBell_updBell] at awaits
  have told := awaits.trans (report_only .bell (secCode x).toNat 4 [byte r.entry.toNat] _)
  have ended : s.outboundEnded x r = match (s.bell x).awaited with
      | none => ((s.owedLapsed x).updBell x fun b => { b with awaited := some (s.newSlot r.entry.toNat) }).bellReport x 4
          [byte r.entry.toNat]
      | some o => (((s.owedLapsed x).updBell x fun b => { b with awaited := some (s.newSlot r.entry.toNat) }).bellReport x 4
          [byte r.entry.toNat]).bellReport x 5 [byte o.entry] := if_neg other
  rw [ended]
  cases (s.bell x).awaited with
  | none => exact told
  | some o => exact told.trans (report_only _ _ _ _ _)

/-- R116, R133: an inbound code that becomes owed. -/
theorem becomeOwed_spec (hf : s.sectionFitted x = true) :
    let u := s.updBell x fun b => { b with owed := some (s.newSlot r.entry.toNat) }
    OnlyOrders u (s.becomeOwed x r) ∧
    (Meaning.ofCode r.meaning.toNat = some .obstruction →
      (s.becomeOwed x r).sections = (s.updSect x fun y => { y with obstruction := true }).sections) ∧
    (Meaning.ofCode r.meaning.toNat ≠ some .obstruction → OnlyLink u (s.becomeOwed x r)) := by
  intro u
  have lapses : ∃ v, OnlyLink u v ∧ s.becomeOwed x r =
      if Meaning.ofCode r.meaning.toNat = some .obstruction then v.urgentReceipt x else v := by
    have told : OnlyLink u (u.bellReport x 6 [byte r.entry.toNat]) := report_only _ _ _ _ _
    unfold State.becomeOwed; dsimp only
    refine ⟨_, ?_, rfl⟩
    cases (s.bell x).owed with
    | none => exact told
    | some o => exact told.trans (report_only _ _ _ _ _)
  obtain ⟨v, only, eq⟩ := lapses
  rw [eq]
  have orders := urgentReceipt_only x v
  refine ⟨?_, fun h => ?_, fun h => by rw [if_neg h]; exact only⟩
  · split
    · exact only.faults.eval.orders.trans orders
    · exact only.faults.eval.orders
  · rw [if_pos h]
    have fitted : v.sectionFitted x = true := by obtain ⟨_, rfl⟩ := only; exact hf
    have same : v.sections = s.sections := by obtain ⟨_, rfl⟩ := only; rfl
    have sectn : v.sectn x = s.sectn x := by unfold State.sectn; rw [same]
    unfold State.urgentReceipt
    by_cases ho : (v.sectn x).obstruction = false
    · rw [if_pos ⟨fitted, ho⟩]
      have settled := (report_only .sec (secCode x).toNat 6 [1] (v.updSect x fun y => { y with obstruction := true })).faults.eval.trans
        (evaluate_only .verdict _)
      refine (OnlyEval.sections_eq settled).trans ?_
      unfold State.updSect; dsimp only; rw [same, sectn]
    · rw [if_neg fun h => ho h.2]
      rw [updSect_of_same (by rw [← sectn]; rw [← Bool.eq_true_of_not_eq_false ho])]
      exact same

/-- R157, R158: the list holds an entry of a condition, or no room for it. -/
def faultEntered (c : FaultClass) (o : Nat) (s : State) : Prop :=
  (∃ e ∈ s.faults.entries, e.cls = c ∧ e.object = o) ∨ s.faults.overflow = true

/-- R159: an end leaves the entry of a condition. -/
theorem steady_faultEntered (c : FaultClass) (o : Nat) : Steady (State.faultEntered c o) where
  congr s t hf _ hs := by unfold State.faultEntered at *; rw [hf]; exact hs
  endFault d p s hs := by
    obtain ⟨g, hg, h⟩ := s.endFault_faults d p
    unfold State.faultEntered at *; rw [h]
    refine hs.imp_left fun ⟨e, he, hc, ho⟩ => ⟨g e, List.mem_map.2 ⟨e, he, rfl⟩, ?_⟩
    obtain ⟨-, h2, -, h4⟩ := hg e
    exact ⟨h2.trans hc, h4.trans ho⟩

theorem becomeOwed_entered {c : FaultClass} {o : Nat} (hs : s.faultEntered c o) : (s.becomeOwed x r).faultEntered c o := by
  have settling := (steady_faultEntered c o).settling
  have owed : (s.updBell x fun b => { b with owed := some (s.newSlot r.entry.toNat) }).faultEntered c o := hs
  have told := settling.firm.report .bell (secCode x).toNat 6 [byte r.entry.toNat] _ owed
  unfold State.becomeOwed; dsimp only
  refine ite_keeps (P := State.faultEntered c o) (settling.urgentReceipt x ?_) ?_ <;>
  · cases (s.bell x).owed with
    | none => exact told
    | some o => exact settling.firm.report _ _ _ _ _ told

end State

namespace State

variable {x : SectionId} {r : CodeRec} {s : State}

/-- R115: an inbound code that answers the awaited one. -/
theorem inboundEnded_answers {o : Slot} (ho : (s.bell x).awaited = some o) (he : o.entry = r.entry.toNat) :
    s.inboundEnded x r = (s.updBell x fun b => { b with awaited := none }).completeExchange x .outbound r := by
  unfold State.inboundEnded; dsimp only; rw [ho]; exact if_pos he

/-- R115, R116: any other inbound code becomes owed; the awaited one is misrepeated. -/
theorem inboundEnded_owes (h : ∀ o, (s.bell x).awaited = some o → o.entry ≠ r.entry.toNat) :
    ∃ v, OnlyFaults (s.updBell x fun b => { b with awaited := none }) v ∧ s.inboundEnded x r = v.becomeOwed x r ∧
      ((s.bell x).awaited ≠ none → v.faultEntered .bellMisrepeat (secCode x).toNat) := by
  unfold State.inboundEnded; dsimp only
  cases ho : (s.bell x).awaited with
  | none =>
    have same : s.updBell x (fun b => { b with awaited := none }) = s := updBell_of_same (by rw [← ho])
    exact ⟨s, by rw [same]; exact OnlyFaults.refl s, rfl, fun hn => absurd rfl hn⟩
  | some o =>
    refine ⟨_, ?_, if_neg (h o ho), fun _ => ?_⟩
    · exact (raise_onlyFaults (c := .bellMisrepeat) rfl true _ _).trans (report_only _ _ _ _ _).faults
    · refine (steady_faultEntered .bellMisrepeat (secCode x).toNat).settling.firm.report _ _ _ _ _ ?_
      unfold State.raiseAndEnd; rw [raiseWith_of_noOrder rfl]
      exact enterRaise_entered _ _ _ _

theorem recognise_of_first {c : Code} {rec : SectionRec} {before after : List Record} (hrec : s.sectionRec x = some rec)
    (ht : s.table = before ++ .code r :: after) (hm : c.malformed = false)
    (hr : r.codeSets.getLsbD rec.codeSet.toNat = true ∧ r.groups.map (·.toNat) = c.groups)
    (hb : ∀ q, .code q ∈ before → ¬(q.codeSets.getLsbD rec.codeSet.toNat = true ∧ q.groups.map (·.toNat) = c.groups)) :
    s.recognise x c = some r := by
  unfold State.recognise; rw [hrec]
  refine (if_neg (by rw [hm]; exact Bool.false_ne_true)).trans ?_
  rw [ht]; exact codeInSet_append hr hb

theorem recognise_none {c : Code} (h : c.malformed = true ∨ s.sectionRec x = none ∨ ∀ rec q, s.sectionRec x = some rec →
    .code q ∈ s.table → ¬(q.codeSets.getLsbD rec.codeSet.toNat = true ∧ q.groups.map (·.toNat) = c.groups)) :
    s.recognise x c = none := by
  unfold State.recognise
  cases hrec : s.sectionRec x with
  | none => rfl
  | some rec =>
    obtain hm | hn | hq := h
    · exact if_pos hm
    · exact nomatch hrec.symm.trans hn
    · by_cases hm : c.malformed = true
      · exact if_pos hm
      · exact (if_neg hm).trans (codeInSet_none fun q => hq rec q hrec)

/-- R114: a code is recognised in a fitted section alone. -/
theorem sectionFitted_of_recognise {c : Code} (h : s.recognise x c = some r) : s.sectionFitted x = true := by
  unfold State.recognise at h
  unfold State.sectionFitted
  cases hrec : s.sectionRec x with
  | none => rw [hrec] at h; exact nomatch h
  | some rec => rfl

/-- R108: a recognised code is forgotten, and reported. -/
def codeForgotten (x : SectionId) (d : Direction) (c : Code) (r : CodeRec) (s : State) : State :=
  State.report .bell (secCode x).toNat 2 (0 :: dirCode d :: (patternBytes c.groups ++ [r.entry, r.meaning, r.trainClass]))
    (s.updBell x fun b => b.setSide d { b.side d with code := none })

theorem codeForgotten_only (x : SectionId) (d : Direction) (c : Code) (r : CodeRec) (s : State) :
    OnlyLink (s.updBell x fun b => b.setSide d { b.side d with code := none }) (s.codeForgotten x d c r) := report_only _ _ _ _ _

theorem endCode_of_outbound {c : Code} (hc : ((s.bell x).side .outbound).code = some c) (hr : s.recognise x c = some r) :
    s.endCode x .outbound = (s.codeForgotten x .outbound c r).outboundEnded x r := by
  unfold State.endCode; rw [hc]; dsimp only; rw [hr]; rfl

theorem endCode_of_inbound {c : Code} (hc : ((s.bell x).side .inbound).code = some c) (hr : s.recognise x c = some r) :
    s.endCode x .inbound = (s.codeForgotten x .inbound c r).inboundEnded x r := by
  unfold State.endCode; rw [hc]; dsimp only; rw [hr]; rfl

theorem endCode_of_unrecognised {c : Code} {d : Direction} (hc : ((s.bell x).side d).code = some c) (hr : s.recognise x c = none) :
    s.endCode x d = State.report .bell (secCode x).toNat 2 (1 :: dirCode d :: (patternBytes c.groups ++ [flag c.malformed]))
      (s.updBell x fun b => b.setSide d { b.side d with code := none }) := by
  unfold State.endCode; rw [hc]; dsimp only; rw [hr]; rfl

/-- The bells of one section as `f` gives them, and then what a field event can reach. -/
theorem rung_spec {f g : BellState → BellState} {u t : State} (hu : OnlyLink (s.updBell x f) u) (ht : OnlyField (u.updBell x g) t) :
    t.bell x = g (f (s.bell x)) ∧ OtherBells x s t ∧ OnlyBells s t := by
  have only : OnlyField (s.updBell x fun b => g (f b)) t := by
    rw [← updBell_updBell]; exact (hu.updBell x g).faults.field.trans ht
  have bells : ∀ y, t.bell y = (s.updBell x fun b => g (f b)).bell y := fun y => by
    obtain ⟨_, _, _, _, _, _, _, _, rfl⟩ := only; rfl
  refine ⟨(bells x).trans (bell_updBell_same x _ s), fun y hy => (bells y).trans (otherBells_updBell x _ s y hy), ?_⟩
  exact ⟨_, only⟩

end State

/-- Settles O53. -/
theorem codeEnds : Obligations.CodeEnds := by
  intro s x d c hc
  have ends : exec (.codeEnd x d) s = .next (if s.codeEndDue x d = true then s.endCode x d else s) := rfl
  refine ⟨fun rec before r after hrec ht hm hr hb => State.recognise_of_first hrec ht hm hr hb,
    fun h => State.recognise_none h, fun hn => ?_, fun hdue hr => ?_, fun r hr hdue => ?_⟩
  · rw [ends, if_neg fun h => hn ((State.codeEndDue_iff hc).1 h)]
  · rw [ends, if_pos ((State.codeEndDue_iff hc).2 hdue), State.endCode_of_unrecognised hc hr]
  · have taken : exec (.codeEnd x d) s = .next (s.endCode x d) :=
      congrArg Host.Outcome.next (if_pos ((State.codeEndDue_iff hc).2 hdue))
    have link := State.codeForgotten_only x d c r s
    have fitted : (s.codeForgotten x d c r).sectionFitted x = true := by
      have := State.sectionFitted_of_recognise hr
      obtain ⟨_, h⟩ := link; rw [h]; exact this
    have bell : (s.codeForgotten x d c r).bell x = (s.bell x).setSide d { (s.bell x).side d with code := none } := by
      obtain ⟨_, h⟩ := link; rw [h]; exact State.bell_updBell_same x _ s
    refine ⟨_, taken, ?_⟩
    cases d with
    | outbound =>
      rw [State.endCode_of_outbound hc hr]
      have owed : ((s.codeForgotten x .outbound c r).bell x).owed = (s.bell x).owed := by rw [bell]; rfl
      by_cases h : ∃ o, (s.bell x).owed = some o ∧ o.entry = r.entry.toNat
      · obtain ⟨o, ho, he⟩ := h
        rw [State.outboundEnded_answers (owed.trans ho) he]
        obtain ⟨completes, only⟩ := State.completeExchange_spec (x := x) (r := r) .inbound
          (s := (s.codeForgotten x .outbound c r).updBell x fun b => { b with owed := none })
        obtain ⟨hb, other, bells⟩ := State.rung_spec link only
        exact ⟨by rw [hb]; rfl, other, bells, fun _ => ⟨fun _ _ _ => ⟨by rw [hb], by rw [hb]; rfl, completes⟩,
          fun hn => absurd he (hn o ho)⟩, nofun⟩
      · have hn : ∀ o, (s.bell x).owed = some o → o.entry ≠ r.entry.toNat := fun o ho he => h ⟨o, ho, he⟩
        have only := State.outboundEnded_awaits (x := x) (s := s.codeForgotten x .outbound c r) (owed ▸ hn)
        obtain ⟨hb, other, bells⟩ := State.rung_spec link only.faults.field
        have slot : (s.codeForgotten x .outbound c r).newSlot r.entry.toNat = s.newSlot r.entry.toNat := by
          obtain ⟨_, h⟩ := link; rw [h]; rfl
        refine ⟨by rw [hb]; rfl, other, bells, fun _ => ⟨fun o ho he => absurd he (hn o ho), fun _ => ⟨by rw [hb], ?_, ?_⟩⟩, nofun⟩
        · rw [hb, slot]; rfl
        · have whole := (link.updBell x _).trans only
          obtain ⟨l, hl⟩ := whole
          rw [hl]; exact ⟨l, rfl⟩
    | inbound =>
      rw [State.endCode_of_inbound hc hr]
      have awaited : ((s.codeForgotten x .inbound c r).bell x).awaited = (s.bell x).awaited := by rw [bell]; rfl
      by_cases h : ∃ o, (s.bell x).awaited = some o ∧ o.entry = r.entry.toNat
      · obtain ⟨o, ho, he⟩ := h
        rw [State.inboundEnded_answers (awaited.trans ho) he]
        obtain ⟨completes, only⟩ := State.completeExchange_spec (x := x) (r := r) .outbound
          (s := (s.codeForgotten x .inbound c r).updBell x fun b => { b with awaited := none })
        obtain ⟨hb, other, bells⟩ := State.rung_spec link only
        exact ⟨by rw [hb]; rfl, other, bells, nofun, fun _ => ⟨fun _ _ _ => ⟨by rw [hb], by rw [hb]; rfl, completes⟩,
          fun hn => absurd he (hn o ho)⟩⟩
      · have hn : ∀ o, (s.bell x).awaited = some o → o.entry ≠ r.entry.toNat := fun o ho he => h ⟨o, ho, he⟩
        obtain ⟨v, faults, owes, misrepeated⟩ :=
          State.inboundEnded_owes (x := x) (s := s.codeForgotten x .inbound c r) (awaited ▸ hn)
        have fittedV : v.sectionFitted x = true := by obtain ⟨_, _, h⟩ := faults; rw [h]; exact fitted
        have slot : v.newSlot r.entry.toNat = s.newSlot r.entry.toNat := by
          obtain ⟨_, _, h⟩ := faults; obtain ⟨_, h'⟩ := link; rw [h, h']; rfl
        have sections : v.sections = s.sections := by
          obtain ⟨_, _, h⟩ := faults; obtain ⟨_, h'⟩ := link; rw [h, h']; rfl
        have sectn : v.sectn x = s.sectn x := by unfold State.sectn; rw [sections]
        obtain ⟨orders, obstructs, quiet⟩ := State.becomeOwed_spec (x := x) (r := r) fittedV
        have only := (faults.updBell x fun b => { b with owed := some (v.newSlot r.entry.toNat) }).field.trans orders.field
        rw [State.updBell_updBell] at only
        obtain ⟨hb, other, bells⟩ := State.rung_spec link only
        rw [owes]
        refine ⟨by rw [hb]; rfl, other, bells, nofun, fun _ => ⟨fun o ho he => absurd he (hn o ho), fun _ =>
          ⟨by rw [hb], ?_, fun hm => (obstructs hm).trans ?_, fun hm => ?_, fun ha => ?_⟩⟩⟩
        · rw [hb, slot]; rfl
        · unfold State.updSect; dsimp only; rw [sections, sectn]
        · have whole := ((link.updBell x _).faults.trans faults).updBell x fun b => { b with owed := some (v.newSlot r.entry.toNat) }
          obtain ⟨l, f, hl⟩ := whole.trans (quiet hm).faults
          rw [hl]; exact ⟨l, f, rfl⟩
        · exact State.becomeOwed_entered (misrepeated (awaited.symm ▸ ha))

/-! ### O12: the readings -/

section Layout

@[simp] theorem be16_length (w : Word16) : (be16 w).length = 2 := rfl
@[simp] theorem be32_length (n : Nat) : (be32 n).length = 4 := rfl
@[simp] theorem sat16_length (n : Nat) : (sat16 n).length = 2 := rfl
@[simp] theorem absent16_length : absent16.length = 2 := rfl
@[simp] theorem elapsedTenths_length (now since : Time) : (elapsedTenths now since).length = 2 := rfl
@[simp] theorem leftTenths_length (now due : Time) : (leftTenths now due).length = 2 := rfl
@[simp] theorem patternBytes_length (gs : List Nat) : (patternBytes gs).length = 5 := rfl
@[simp] theorem absents_length (n : Nat) : (absents n).length = n := List.length_replicate

theorem stands_of_eq {d a bs c : List Byte} {k : Nat} (hd : d = a ++ (bs ++ c)) (hk : a.length = k) : Stands d k bs := by
  unfold Stands; rw [hd, ← hk, List.drop_left, List.take_left]

theorem stands_prefix {d : List Byte} {k : Nat} {bs : List Byte} (h : Stands d k bs) (a : List Byte) {j : Nat}
    (hj : a.length + k = j) : Stands (a ++ d) j bs := by
  unfold Stands at *; rw [← hj, List.drop_append, List.drop_of_length_le (Nat.le_add_right _ _), Nat.add_sub_cancel_left,
    List.nil_append, h]

theorem stands_shorter {d bs c : List Byte} {k : Nat} (h : Stands d k (bs ++ c)) : Stands d k bs := by
  have longer : ((d.drop k).take (bs ++ c).length).take bs.length = (bs ++ c).take bs.length := congrArg (List.take _) h
  rwa [List.take_take, List.length_append, Nat.min_eq_left (Nat.le_add_right _ _), List.take_left] at longer

theorem flatMap_length {α : Type} {f : α → List Byte} {k : Nat} (h : ∀ a, (f a).length = k) (l : List α) :
    (l.flatMap f).length = k * l.length := by
  induction l with
  | nil => rfl
  | cons a l ih => rw [List.flatMap_cons, List.length_append, h, ih, List.length_cons, Nat.mul_succ, Nat.add_comm]

/-- Entries of one length: the i-th stands at i of that length. -/
theorem stands_flatMap {α : Type} {f : α → List Byte} {k : Nat} (h : ∀ a, (f a).length = k) {l : List α} {i : Nat} {a : α}
    (hi : l[i]? = some a) {b bs c : List Byte} (ha : f a = b ++ (bs ++ c)) : Stands (l.flatMap f) (k * i + b.length) bs := by
  obtain ⟨hlt, rfl⟩ := List.getElem?_eq_some_iff.1 hi
  have split : l = l.take i ++ l[i] :: l.drop (i + 1) := by rw [List.cons_getElem_drop_succ, List.take_append_drop]
  have taken : (l.take i).length = i := by rw [List.length_take]; omega
  have whole : l.flatMap f = (l.take i).flatMap f ++ (f l[i] ++ (l.drop (i + 1)).flatMap f) := by
    conv_lhs => rw [split]
    rw [List.flatMap_append, List.flatMap_cons]
  refine stands_of_eq (a := (l.take i).flatMap f ++ b) (c := c ++ (l.drop (i + 1)).flatMap f) ?_ ?_
  · rw [whole, ha]; simp [List.append_assoc]
  · rw [List.length_append, flatMap_length h, taken]

theorem firstFrom_length (first count last : Nat) : (firstFrom first count last).length = min count (last + 1 - first) :=
  List.length_range'

theorem firstFrom_get {first count last n : Nat} (h : first ≤ n) (hc : n < first + count) (hl : n ≤ last) :
    (firstFrom first count last)[n - first]? = some n := by
  unfold firstFrom
  rw [List.getElem?_range' (by omega)]
  congr 1; omega

end Layout

namespace State

variable (s : State)

theorem leverEntry_length (n : Nat) : (s.leverEntry n).length = 13 := by
  unfold State.leverEntry; dsimp only
  simp only [List.length_append, List.length_cons, List.length_nil]
  split <;> split <;> rfl

theorem trackEntry_length (t : Nat) : (s.trackEntry t).length = 16 := by
  unfold State.trackEntry; dsimp only
  split
  · rfl
  · simp only [List.length_append, List.length_cons, List.length_nil]
    split <;> rfl

theorem approachEntry_length (a : Nat) : (s.approachEntry a).length = 14 := by
  unfold State.approachEntry
  split
  · dsimp only; unfold remainingBytes
    split <;> rfl
  · rfl

theorem sequenceEntry_length (q : Nat) : (s.sequenceEntry q).length = 14 := by
  unfold State.sequenceEntry
  split
  · dsimp only
    split <;> rfl
  · rfl

theorem faultEntry_length (e : FaultEntry) : (faultEntry e).length = 12 := rfl

theorem bellSideBytes_length (a : Assembler) : (bellSideBytes a).length = 7 := by
  unfold State.bellSideBytes; split <;> rfl

theorem slotBytes_length (now : Time) (o : Option Slot) : (slotBytes now o).length = 3 := by
  cases o <;> rfl

theorem leversData_length (b : Nat) : (s.leversData b).length = 4 + 13 * min 16 (49 - b) := by
  unfold State.leversData; dsimp only
  rw [List.length_append, flatMap_length s.leverEntry_length, firstFrom_length]; rfl

theorem tracksData_length (b : Nat) : (s.tracksData b).length = 1 + 16 * min 12 (25 - b) := by
  unfold State.tracksData; dsimp only
  rw [List.length_cons, flatMap_length s.trackEntry_length, firstFrom_length, Nat.add_comm]

theorem approachData_length : s.approachData.length = 224 := flatMap_length s.approachEntry_length allLocks

theorem sequencesData_length : s.sequencesData.length = 224 := flatMap_length s.sequenceEntry_length allSequences

theorem faultsData_length : s.faultsData.length = 11 + 12 * s.faults.entries.length := by
  unfold State.faultsData; dsimp only
  rw [List.length_append, flatMap_length faultEntry_length]; rfl

/-! Where the entries stand. -/

theorem stands_leversData {b n : Nat} (hb : b ≤ n) (hc : n < b + 16) (hn : n ≤ 48) {bs c : List Byte}
    (h : s.leverEntry n = bs ++ c) : Stands (s.leversData b) (4 + 13 * (n - b)) bs :=
  stands_prefix (stands_flatMap s.leverEntry_length (firstFrom_get hb hc hn) (b := []) h) _ rfl

theorem stands_tracksData {b t k : Nat} (hb : b ≤ t) (hc : t < b + 12) (ht : t ≤ 24) {a bs c : List Byte}
    (h : s.trackEntry t = a ++ (bs ++ c)) (hk : a.length = k) : Stands (s.tracksData b) (1 + 16 * (t - b) + k) bs := by
  subst hk
  exact stands_prefix (stands_flatMap s.trackEntry_length (firstFrom_get hb hc ht) h) [_] (Nat.add_assoc _ _ _).symm

theorem stands_approachData {n : Nat} (h1 : 1 ≤ n) (hn : n ≤ 16) {bs c : List Byte} (h : s.approachEntry n = bs ++ c) :
    Stands s.approachData (14 * (n - 1)) bs :=
  stands_flatMap s.approachEntry_length (firstFrom_get (count := 16) (last := 16) h1 (by omega) hn) (b := []) h

theorem stands_sequencesData {n : Nat} (h1 : 1 ≤ n) (hn : n ≤ 16) {bs c : List Byte} (h : s.sequenceEntry n = bs ++ c) :
    Stands s.sequencesData (14 * (n - 1)) bs :=
  stands_flatMap s.sequenceEntry_length (firstFrom_get (count := 16) (last := 16) h1 (by omega) hn) (b := []) h

end State

namespace State

variable (s : State) (x : SectionId)

/-- READ SECTION up to the handle. -/
def blockHead : List Byte :=
  let r := s.sectn x
  match s.sectionRec x with
  | some rec =>
    encodeRecord (.blockSection rec) ++ [optBlock r.state] ++ s.sectionFlags x ++
      (match r.attention with
       | none => absent16
       | some t => leftTenths s.now t) ++
      [optByte r.offered, r.measured.code, orAbsent (r.candidate.map Polarity.code), byte r.candRun, byte r.scaleRun,
        byte r.mismatchRun]
  | none => absents 13 ++ [absent] ++ s.sectionFlags x ++ absent16 ++ absents 6

/-- READ SECTION from the lit repeater lamp up to the bells. -/
def blockTail : List Byte :=
  let r := s.sectn x
  match s.sectionRec x with
  | some _ => optByte (litLamp r.state) :: be16 (r.lastRaw.setWidth 16)
  | none => absent :: absent16

/-- The 30 bytes of the block unit in READ SECTION. -/
def blockPart : List Byte :=
  let r := s.sectn x
  s.blockHead x ++ ([r.handle.code, contactBits r, r.drive.code] ++ s.blockTail x)

theorem sectionData_eq : s.sectionData x = s.blockPart x ++ s.bellPart x := by
  unfold State.sectionData blockPart blockHead blockTail; dsimp only
  cases s.sectionRec x with
  | some rec => simp only [List.append_assoc, List.cons_append, List.nil_append] <;> rfl
  | none => simp only [List.append_assoc, List.cons_append, List.nil_append]

theorem blockHead_length : (s.blockHead x).length = 24 := by
  unfold blockHead; dsimp only
  split
  · cases (s.sectn x).attention <;> rfl
  · rfl

theorem blockPart_length : (s.blockPart x).length = 30 := by
  unfold blockPart blockTail; dsimp only
  rw [List.length_append, blockHead_length]
  cases s.sectionRec x <;> rfl

theorem stands_blockPart {a bs c : List Byte} {k : Nat} (h : s.blockPart x = a ++ (bs ++ c)) (hk : a.length = k) :
    Stands (s.sectionData x) k bs :=
  stands_of_eq (c := c ++ s.bellPart x) (by rw [sectionData_eq, h]; simp only [List.append_assoc]) hk

theorem stands_bellPart {a bs c : List Byte} {k : Nat} (h : s.bellPart x = a ++ (bs ++ c)) (hk : 30 + a.length = k) :
    Stands (s.sectionData x) k bs := by
  rw [sectionData_eq]
  exact stands_prefix (stands_of_eq h rfl) _ (by rw [blockPart_length, hk])

/-- R123: where the bells of a section stand in READ SECTION. -/
theorem stands_bells :
    let b := s.bell x
    Stands (s.sectionData x) 30 (bellSideBytes b.outbound) ∧ Stands (s.sectionData x) 37 (bellSideBytes b.inbound) ∧
    Stands (s.sectionData x) 44 (match b.silentSince with
      | none => absent16
      | some t => elapsedTenths s.now t) ∧
    Stands (s.sectionData x) 46 (slotBytes s.now b.awaited) ∧ Stands (s.sectionData x) 49 (slotBytes s.now b.owed) := by
  intro b
  have silence : (match b.silentSince with
      | none => absent16
      | some t => elapsedTenths s.now t).length = 2 := by cases b.silentSince <;> rfl
  have bytes : s.bellPart x = bellSideBytes b.outbound ++ (bellSideBytes b.inbound ++ ((match b.silentSince with
      | none => absent16
      | some t => elapsedTenths s.now t) ++ (slotBytes s.now b.awaited ++ (slotBytes s.now b.owed ++ [])))) := by
    simp only [List.append_nil, ← List.append_assoc]; rfl
  generalize (match b.silentSince with
      | none => absent16
      | some t => elapsedTenths s.now t) = silent at silence bytes ⊢
  refine ⟨stands_bellPart s x (a := []) bytes rfl, stands_bellPart s x bytes (by rw [bellSideBytes_length]),
    stands_bellPart s x (a := bellSideBytes b.outbound ++ bellSideBytes b.inbound) (bytes.trans (by simp only [List.append_assoc]; rfl)) ?_,
    stands_bellPart s x (a := bellSideBytes b.outbound ++ bellSideBytes b.inbound ++ silent)
      (bytes.trans (by simp only [List.append_assoc]; rfl)) ?_,
    stands_bellPart s x (a := bellSideBytes b.outbound ++ bellSideBytes b.inbound ++ silent ++ slotBytes s.now b.awaited)
      (bytes.trans (by simp only [List.append_assoc]; rfl)) ?_⟩
  all_goals simp only [List.length_append, bellSideBytes_length, silence, slotBytes_length]

theorem sectionData_length : (s.sectionData x).length = 52 := by
  rw [sectionData_eq, List.length_append, blockPart_length]
  unfold State.bellPart; dsimp only
  simp only [List.length_append, bellSideBytes_length, slotBytes_length]
  cases (s.bell x).silentSince <;> rfl

end State

/-- R178: the first record of a kind and a number. -/
def recordOf (kind n : Nat) (rs : List Record) : Option Record :=
  match kind with
  | 0 => (frameOf rs).map .frame
  | 1 => (leverOf n rs).map .lever
  | 2 => (trackOf n rs).map .track
  | 3 => (sequenceOf n rs).map .sequence
  | 4 => (approachOf n rs).map .approach
  | 5 => (sectionOf n rs).map .blockSection
  | 6 => (timingOf rs).map .timing
  | 7 => (codeOf n rs).map .code
  | _ => none

theorem tableRecord_eq (s : State) (kind n : Nat) : s.tableRecord kind n = recordOf kind n s.table := rfl

theorem recordOf_cons {kind n : Nat} (hk : kind ≤ 7) (r : Record) (rs : List Record) :
    (r.named kind n → recordOf kind n (r :: rs) = some r) ∧ (¬r.named kind n → recordOf kind n (r :: rs) = recordOf kind n rs) := by
  unfold Record.named
  match kind, hk with
  | 0, _ => cases r <;> simp [recordOf, frameOf, Record.kindOrder]
  | 1, _ => cases r <;> simp +contextual [recordOf, leverOf, Record.kindOrder, Record.number]
  | 2, _ => cases r <;> simp +contextual [recordOf, trackOf, Record.kindOrder, Record.number]
  | 3, _ => cases r <;> simp +contextual [recordOf, sequenceOf, Record.kindOrder, Record.number]
  | 4, _ => cases r <;> simp +contextual [recordOf, approachOf, Record.kindOrder, Record.number]
  | 5, _ => cases r <;> simp +contextual [recordOf, sectionOf, Record.kindOrder, Record.number]
  | 6, _ => cases r <;> simp [recordOf, timingOf, Record.kindOrder]
  | 7, _ => cases r <;> simp +contextual [recordOf, codeOf, Record.kindOrder, Record.number]

theorem recordOf_nil {kind n : Nat} (hk : kind ≤ 7) : recordOf kind n [] = none := by
  match kind, hk with
  | 0, _ | 1, _ | 2, _ | 3, _ | 4, _ | 5, _ | 6, _ | 7, _ => rfl

theorem recordOf_first {kind n : Nat} (hk : kind ≤ 7) {before after : List Record} {r : Record} (hr : r.named kind n)
    (hb : ∀ q ∈ before, ¬q.named kind n) : recordOf kind n (before ++ r :: after) = some r := by
  induction before with
  | nil => exact (recordOf_cons hk r after).1 hr
  | cons q qs ih =>
    exact ((recordOf_cons hk q _).2 (hb q List.mem_cons_self)).trans (ih fun p hp => hb p (List.mem_cons_of_mem q hp))

theorem recordOf_none {kind n : Nat} (hk : kind ≤ 7) {rs : List Record} (h : ∀ q ∈ rs, ¬q.named kind n) : recordOf kind n rs = none := by
  induction rs with
  | nil => exact recordOf_nil hk
  | cons q qs ih =>
    exact ((recordOf_cons hk q _).2 (h q List.mem_cons_self)).trans (ih fun p hp => h p (List.mem_cons_of_mem q hp))

namespace State

variable {s : State}

/-- R43, R70 and the like: a reading with one byte, outside STORING. -/
theorem byteReading_eq {b : Byte} (k : RequestKind) (owner : Nat → State → State) (hr : s.receives [b] = true)
    (hs : s.store.part ≠ .storing) :
    s.byteRequest k [b] (fun n => unlessBusy k (owner n)) = owner b.toNat s :=
  (byteRequest_eq k _ hr).trans (unlessBusy_of_not_storing k _ hs)

theorem poolUse_eq (rs : List Record) : poolUse rs = (rs.map fun
    | .lever r => r.reverseList.length + r.normalList.length
    | _ => 0).sum := by
  induction rs with
  | nil => rfl
  | cons q qs ih => cases q <;> simp [poolUse, ih, LeverRec.poolUse]

end State

namespace State

variable (s : State)

theorem leverEntry_of_fitted {n : Nat} {rec : LeverRec} (h : s.leverRec n = some rec) :
    let l := s.lever n
    s.leverEntry n =
      [byte n, byte (flagBits [true, rec.lockFitted, l.normalMade, l.reverseMade, l.readback, l.verdict]), rec.kind,
        l.position.code, optEnd l.lastProved,
        (match l.position, l.lastProved with
         | .normal, _ => 0
         | .reverse, _ => 1
         | .transit, some .normal => 0
         | .transit, some .reverse => 1
         | _, _ => 255),
        optByte l.blocking, (if rec.lockFitted then l.command.code else 2)] ++
      (if rec.lockFitted = true ∧ l.command = .held then sat16 (s.now - l.commandTime) else absent16) ++
      (if l.position = .transit then sat16 ((s.now - l.transitSince) / 100) else absent16) ++ [0] := by
  intro l
  have governs : orAbsent (l.governing.map listCode) = (match l.position, l.lastProved with
         | .normal, _ => 0
         | .reverse, _ => 1
         | .transit, some .normal => 0
         | .transit, some .reverse => 1
         | _, _ => 255) := by
    unfold LeverState.governing
    cases l.position with
    | normal | reverse | contactFault => rfl
    | transit => 
      cases l.lastProved with
      | none => rfl
      | some e => cases e <;> rfl
  have locked : s.hasLock n = rec.lockFitted := by unfold State.hasLock; rw [h]; rfl
  unfold State.leverEntry; dsimp only
  rw [h, locked, Option.isSome_some, if_pos rfl, governs]
  simp only [Bool.and_eq_true, beq_iff_eq, Bool.true_and]
  rfl

theorem leverEntry_of_unfitted {n : Nat} (h : s.leverRec n = none) :
    let l := s.lever n
    s.leverEntry n =
      [byte n, byte (flagBits [false, false, l.normalMade, l.reverseMade, l.readback, l.verdict]), 255,
        l.position.code, optEnd l.lastProved, 255, optByte l.blocking, 2] ++ (absent16 ++ absent16 ++ [0]) := by
  have locked : s.hasLock n = false := by unfold State.hasLock; rw [h]; rfl
  unfold State.leverEntry; dsimp only
  rw [h, locked]; rfl

end State

/-- R123: a direction of the bells as its layout gives it. -/
theorem stands_side {d : List Byte} {k : Nat} {a : Assembler} (h : Stands d k (State.bellSideBytes a)) :
    Stands d k (match a.code with
      | none => [0]
      | some c => [1, flag c.malformed, byte c.groups.length, byte (c.groups.getD 0 0), byte (c.groups.getD 1 0),
          byte (c.groups.getD 2 0), byte (c.groups.getD 3 0)]) := by
  unfold State.bellSideBytes at h
  generalize a.code = code at h ⊢
  cases code with
  | none => exact stands_shorter (c := 0 :: patternBytes []) h
  | some c => exact h

/-- R123: a slot as its layout gives it. -/
theorem stands_slot {d : List Byte} {k : Nat} {now : Time} (o : Option Slot) : Stands d k (State.slotBytes now o) →
    Stands d k (match o with
      | none => [255]
      | some y => byte y.entry :: sat16 ((y.deadline - now) / 100)) := by
  cases o with
  | none => exact stands_shorter (bs := [255]) (c := absent16)
  | some y => exact id

/-- Settles O12. -/
theorem readings : Obligations.Readings := by
  refine ⟨fun s hr => ?_, fun s hr hs => ?_, ?_, ?_, ?_, ?_, ?_, ?_⟩
  · refine congrArg Host.Outcome.next ((State.request_of_fits _ _ hr rfl).trans ?_)
    unfold State.identifyData State.activePrint State.hasTable
    cases s.store.active <;> rfl
  · have one : ∀ b : Byte, s.receives [b] = true := fun _ => hr
    have none' : s.receives [] = true := by
      unfold State.receives at *
      exact (Bool.and_eq_true_iff.1 hr).2
    refine ⟨fun b h1 h2 => ⟨?_, s.leversData_length _⟩, fun b hb => ?_, fun b h1 h2 => ⟨?_, s.tracksData_length _⟩,
      fun b hb => ?_, fun x => ⟨?_, s.sectionData_length x⟩, fun b hb => ?_, ⟨?_, s.approachData_length⟩,
      ⟨?_, s.sequencesData_length⟩, ⟨?_, s.faultsData_length⟩, ?_⟩
    · refine congrArg Host.Outcome.next ((State.byteReading_eq _ _ (one b) hs).trans (if_pos ?_))
      simp [leverOk, h1, h2]
    · refine congrArg Host.Outcome.next ((State.byteReading_eq _ _ (one b) hs).trans (if_neg ?_))
      simp only [leverOk, Bool.and_eq_true, decide_eq_true_eq]; omega
    · exact congrArg Host.Outcome.next ((State.byteReading_eq _ _ (one b) hs).trans (if_pos ⟨h1, h2⟩))
    · exact congrArg Host.Outcome.next ((State.byteReading_eq _ _ (one b) hs).trans (if_neg (by omega)))
    · refine congrArg Host.Outcome.next ((State.byteReading_eq _ _ (one _) hs).trans ?_)
      cases x <;> rfl
    · refine congrArg Host.Outcome.next ((State.byteReading_eq _ _ (one _) hs).trans ?_)
      have other : secOfCode b.toNat = none := by unfold secOfCode; split <;> first | omega | rfl
      rw [other]; rfl
    · exact congrArg Host.Outcome.next (State.plainRequest_eq _ _ none' hs)
    · exact congrArg Host.Outcome.next (State.plainRequest_eq _ _ none' hs)
    · exact congrArg Host.Outcome.next (State.plainRequest_eq _ _ none' hs)
    · refine congrArg Host.Outcome.next ((State.plainRequest_eq _ _ none' hs).trans ?_)
      unfold State.loadData; rw [State.poolUse_eq]
      cases s.store.load <;> rfl
  · intro s b n _ hb hc hn l
    refine ⟨stands_of_eq (a := []) (c := (firstFrom b 16 48).flatMap s.leverEntry) ?_ rfl, ?_⟩
    · unfold State.leversData; dsimp only; rw [firstFrom_length]; rfl
    · cases h : s.leverRec n with
      | some rec => exact s.stands_leversData hb hc hn (c := []) ((s.leverEntry_of_fitted h).trans (List.append_nil _).symm)
      | none => exact s.stands_leversData hb hc hn (s.leverEntry_of_unfitted h)
  · intro s b t _ hb hc ht x
    refine ⟨stands_of_eq (a := []) (c := (firstFrom b 12 24).flatMap s.trackEntry) ?_ rfl, ?_, fun hn => ?_⟩
    · unfold State.tracksData; dsimp only; rw [firstFrom_length]; rfl
    · cases h : s.trackRec t with
      | some rec =>
        refine s.stands_tracksData hb hc ht (a := []) (c := []) ?_ rfl
        unfold State.trackEntry; rw [h]; dsimp only
        cases x.lastClass <;> rfl
      | none =>
        refine s.stands_tracksData hb hc ht (a := []) (bs := [byte t, 0])
          (c := absent16 ++ absent16 ++ absents 6 ++
            (if s.hasTable then absent16 else be16 ((Bank.at s.scanner.raw t).setWidth 16)) ++ [absent, 0]) ?_ rfl
        unfold State.trackEntry; rw [h]; rfl
    · have h : s.trackRec t = none := by unfold State.trackRec State.table; rw [hn]; rfl
      refine s.stands_tracksData hb hc ht (a := [byte t, 0] ++ absent16 ++ absent16 ++ absents 6) (c := [absent, 0]) ?_ rfl
      unfold State.trackEntry State.hasTable; rw [h, hn]; rfl
  · intro s x r b side slot
    obtain ⟨outbound, inbound, silence, awaited, owed⟩ := s.stands_bells x
    refine ⟨fun rec h => ⟨?_, ?_⟩, fun hf => ?_, ?_, ?_, ?_, ?_, ?_, ?_⟩
    · refine State.stands_blockPart s x (a := []) (c := [r.handle.code, State.contactBits r, r.drive.code] ++ s.blockTail x) ?_ rfl
      unfold State.blockPart State.blockHead State.sectionFlags State.sectionFitted; dsimp only; rw [h]
      simp only [Option.isSome_some, Bool.true_and]
      cases r.attention <;> cases r.candidate <;> rfl
    · refine State.stands_blockPart s x (a := s.blockHead x ++ [r.handle.code, State.contactBits r, r.drive.code]) (c := []) ?_ ?_
      · unfold State.blockPart State.blockTail; dsimp only; rw [h, List.append_assoc, List.append_nil]
        cases r.state with
        | none => rfl
        | some b => cases b <;> rfl
      · rw [List.length_append, State.blockHead_length]; rfl
    · have h : s.sectionRec x = none := Option.not_isSome_iff_eq_none.1 (by unfold State.sectionFitted at hf; rw [hf]; exact Bool.false_ne_true)
      refine State.stands_blockPart s x (a := []) (bs := List.replicate 14 255) (c := s.sectionFlags x ++ absent16 ++ absents 6 ++
        ([r.handle.code, State.contactBits r, r.drive.code] ++ s.blockTail x)) ?_ rfl
      unfold State.blockPart State.blockHead; dsimp only; rw [h]; rfl
    · exact State.stands_blockPart s x rfl (State.blockHead_length s x)
    · exact stands_side outbound
    · exact stands_side inbound
    · exact silence
    · exact stands_slot _ awaited
    · exact stands_slot _ owed
  · intro s n h1 hn r q
    refine ⟨?_, ?_⟩
    · cases h : s.approachRec n with
      | some rec =>
        refine s.stands_approachData h1 hn (c := []) ?_
        unfold State.approachEntry; rw [h]; dsimp only
        cases r.remaining <;> rfl
      | none =>
        refine s.stands_approachData h1 hn (bs := [byte n, 0])
          (c := [absent, absent] ++ absent16 ++ [absent, absent, 0, absent] ++ absent16 ++ absent16) ?_
        unfold State.approachEntry; rw [h]; rfl
    · cases h : s.seqRec n with
      | some rec =>
        refine s.stands_sequencesData h1 hn (c := []) ?_
        unfold State.sequenceEntry; rw [h]; dsimp only
        cases q.stepTime <;> rfl
      | none =>
        refine s.stands_sequencesData h1 hn (bs := [byte n, 0])
          (c := [absent] ++ absents 4 ++ [absent] ++ absent16 ++ [absent] ++ absent16 ++ [0]) ?_
        unfold State.sequenceEntry; rw [h]; rfl
  · intro s
    refine ⟨stands_of_eq (a := []) (c := s.faults.entries.flatMap State.faultEntry) rfl rfl, fun i e hi => ?_⟩
    exact stands_prefix (stands_flatMap State.faultEntry_length hi (b := []) (c := []) (List.append_nil (State.faultEntry e)).symm)
      ([flag s.faults.overflow] ++ be16 s.faults.masked ++ [flag s.faults.frameCut, s.faults.frozenSet.setWidth 8] ++
        State.trackSetBytes s.faults.failedSet ++ [flag s.alarmSounds, byte s.lamp, byte s.faults.entries.length]) rfl
  · intro s kind n hr hs
    have taken : exec (.readTable [kind, n]) s = .next (s.readTable kind.toNat n.toNat) :=
      congrArg Host.Outcome.next ((State.request_of_fits _ _ hr rfl).trans (State.unlessBusy_of_not_storing _ _ hs))
    have table : s.store.active ≠ none → s.hasTable = true := fun h => Option.isSome_iff_ne_none.2 h
    rw [taken]
    refine ⟨fun hn => ?_, fun ha hk => ?_, fun ha hk => ⟨fun before r after ht hn hb => ?_, fun hn => ?_⟩⟩
    · exact congrArg Host.Outcome.next (if_neg (by unfold State.hasTable; rw [hn]; exact Bool.false_ne_true))
    · exact congrArg Host.Outcome.next ((if_pos (table ha)).trans (if_neg (by omega)))
    all_goals
      refine congrArg Host.Outcome.next ((if_pos (table ha)).trans ((if_pos hk).trans ?_))
      unfold State.tableData; rw [tableRecord_eq]
    · rw [ht, recordOf_first hk hn hb]; rfl
    · rw [recordOf_none hk hn]; rfl

/-! ### O21: verification -/

/-! The first record of a kind and a number. -/

theorem recordOf_isSome {kind n : Nat} (hk : kind ≤ 7) (rs : List Record) :
    (recordOf kind n rs).isSome = true ↔ ∃ q ∈ rs, q.named kind n := by
  induction rs with
  | nil => simp [recordOf_nil hk]
  | cons r rs ih =>
    by_cases h : r.named kind n
    · rw [(recordOf_cons hk r rs).1 h]
      exact ⟨fun _ => ⟨r, List.mem_cons_self, h⟩, fun _ => rfl⟩
    · rw [(recordOf_cons hk r rs).2 h, ih]
      simp only [List.mem_cons, exists_eq_or_imp, h, false_or]

/-- A finder of one kind of record finds a record of a number exactly where there is one. -/
theorem isSome_of_recordOf {α : Type} {f : α → Record} {num : α → Byte} {found : Option α} {kind : Nat} {n : Byte} {rs : List Record}
    (hk : kind ≤ 7) (same : recordOf kind n.toNat rs = found.map f)
    (own : ∀ q, q.named kind n.toNat ↔ ∃ a, f a = q ∧ (num a).toNat = n.toNat) :
    found.isSome = true ↔ ∃ a, f a ∈ rs ∧ num a = n := by
  have finds : (recordOf kind n.toNat rs).isSome = found.isSome := by rw [same, Option.isSome_map]
  rw [← finds, recordOf_isSome hk]
  constructor
  · rintro ⟨q, hq, hn⟩
    obtain ⟨a, rfl, ha⟩ := (own q).1 hn
    exact ⟨a, hq, BitVec.eq_of_toNat_eq ha⟩
  · rintro ⟨a, ha, rfl⟩
    exact ⟨f a, ha, (own _).2 ⟨a, rfl, rfl⟩⟩

theorem leverOf_isSome (n : Byte) (rs : List Record) :
    (leverOf n.toNat rs).isSome = true ↔ ∃ l : LeverRec, .lever l ∈ rs ∧ l.number = n :=
  isSome_of_recordOf (kind := 1) (num := LeverRec.number) (by decide) rfl fun q => by
    cases q <;> simp [Record.named, Record.kindOrder, Record.number]

theorem trackOf_isSome (n : Byte) (rs : List Record) :
    (trackOf n.toNat rs).isSome = true ↔ ∃ k : TrackRec, .track k ∈ rs ∧ k.circuit = n :=
  isSome_of_recordOf (kind := 2) (num := TrackRec.circuit) (by decide) rfl fun q => by
    cases q <;> simp [Record.named, Record.kindOrder, Record.number]

theorem sequenceOf_isSome (n : Byte) (rs : List Record) :
    (sequenceOf n.toNat rs).isSome = true ↔ ∃ q : SequenceRec, .sequence q ∈ rs ∧ q.number = n :=
  isSome_of_recordOf (kind := 3) (num := SequenceRec.number) (by decide) rfl fun q => by
    cases q <;> simp [Record.named, Record.kindOrder, Record.number]

theorem approachOf_isSome (n : Byte) (rs : List Record) :
    (approachOf n.toNat rs).isSome = true ↔ ∃ q : ApproachRec, .approach q ∈ rs ∧ q.number = n :=
  isSome_of_recordOf (kind := 4) (num := ApproachRec.number) (by decide) rfl fun q => by
    cases q <;> simp [Record.named, Record.kindOrder, Record.number]

theorem sectionOf_isSome (n : Byte) (rs : List Record) :
    (sectionOf n.toNat rs).isSome = true ↔ ∃ q : SectionRec, .blockSection q ∈ rs ∧ q.letter = n :=
  isSome_of_recordOf (kind := 5) (num := SectionRec.letter) (by decide) rfl fun q => by
    cases q <;> simp [Record.named, Record.kindOrder, Record.number]

theorem codeOf_isSome (n : Byte) (rs : List Record) :
    (codeOf n.toNat rs).isSome = true ↔ ∃ q : CodeRec, .code q ∈ rs ∧ q.entry = n :=
  isSome_of_recordOf (kind := 7) (num := CodeRec.entry) (by decide) rfl fun q => by
    cases q <;> simp [Record.named, Record.kindOrder, Record.number]

theorem leverOf_isNone (n : Byte) (rs : List Record) :
    (leverOf n.toNat rs).isNone = true ↔ ∀ l : LeverRec, .lever l ∈ rs → l.number ≠ n := by
  rw [Option.isNone_iff_eq_none, ← Option.not_isSome_iff_eq_none, leverOf_isSome]
  exact ⟨fun h l hl hn => h ⟨l, hl, hn⟩, fun h ⟨l, hl, hn⟩ => h l hl hn⟩

theorem trackOf_isNone (n : Byte) (rs : List Record) :
    (trackOf n.toNat rs).isNone = true ↔ ∀ k : TrackRec, .track k ∈ rs → k.circuit ≠ n := by
  rw [Option.isNone_iff_eq_none, ← Option.not_isSome_iff_eq_none, trackOf_isSome]
  exact ⟨fun h l hl hn => h ⟨l, hl, hn⟩, fun h ⟨l, hl, hn⟩ => h l hl hn⟩

theorem sequenceOf_isNone (n : Byte) (rs : List Record) :
    (sequenceOf n.toNat rs).isNone = true ↔ ∀ q : SequenceRec, .sequence q ∈ rs → q.number ≠ n := by
  rw [Option.isNone_iff_eq_none, ← Option.not_isSome_iff_eq_none, sequenceOf_isSome]
  exact ⟨fun h l hl hn => h ⟨l, hl, hn⟩, fun h ⟨l, hl, hn⟩ => h l hl hn⟩

theorem leverOf_mem {n : Nat} {rs : List Record} {l : LeverRec} (h : leverOf n rs = some l) : .lever l ∈ rs ∧ l.number.toNat = n := by
  induction rs with
  | nil => exact nomatch h
  | cons r rs ih =>
    cases r with
    | lever k =>
      by_cases hk : k.number.toNat = n
      · obtain rfl : k = l := Option.some.inj ((if_pos hk).symm.trans h)
        exact ⟨List.mem_cons_self, hk⟩
      · exact (ih ((if_neg hk).symm.trans h)).imp_left (List.mem_cons_of_mem _)
    | _ => exact (ih h).imp_left (List.mem_cons_of_mem _)

/-! The checks of a table, in their order. -/

/-- Each check, and what it tests. -/
def Tests : List (Bool × LoadReason) → List (Prop × LoadReason) → Prop :=
  List.Forall₂ fun b c => (b.1 = true ↔ c.1) ∧ b.2 = c.2

theorem Tests.firstFailing {bs : List (Bool × LoadReason)} {cs : List (Prop × LoadReason)} (h : Tests bs cs) :
    FirstFailing cs (firstReason bs) := by
  induction h with
  | nil => rfl
  | @cons b c bs cs hd _ ih =>
    obtain ⟨bad, why⟩ := b
    obtain ⟨hb, hw⟩ := hd
    refine ⟨fun hc => ?_, fun hc => ?_⟩
    · exact (if_pos (hb.2 hc)).trans (congrArg some hw)
    · rw [show firstReason ((bad, why) :: bs) = firstReason bs from if_neg fun h => hc (hb.1 h)]; exact ih

theorem firstFailing_none {cs : List (Prop × LoadReason)} (h : FirstFailing cs none) : ∀ c ∈ cs, ¬c.1 := by
  induction cs with
  | nil => exact fun _ hc => nomatch hc
  | cons c cs ih =>
    obtain ⟨pos, neg⟩ := h
    have hn : ¬c.1 := fun hc => nomatch pos hc
    intro d hd
    rcases List.mem_cons.1 hd with rfl | hd
    · exact hn
    · exact ih (neg hn) d hd

/-- Of checks in the order of their codes the first that holds gives the reason. -/
theorem firstFailing_some {cs : List (Prop × LoadReason)} {why : LoadReason} {found : Option LoadReason}
    (h : FirstFailing cs found) (hs : cs.Pairwise fun a b => a.2.code < b.2.code) :
    found = some why ↔ (∃ c ∈ cs, c.2 = why ∧ c.1) ∧ ∀ c ∈ cs, c.2.code < why.code → ¬c.1 := by
  induction cs with
  | nil =>
    obtain rfl : found = none := h
    exact ⟨fun h => (nomatch h), fun ⟨⟨_, hp, _⟩, _⟩ => nomatch hp⟩
  | cons c cs ih =>
    obtain ⟨first, rest⟩ := List.pairwise_cons.1 hs
    obtain ⟨pos, neg⟩ := h
    by_cases hc : c.1
    · rw [pos hc]
      constructor
      · rintro ⟨⟩
        refine ⟨⟨c, List.mem_cons_self, rfl, hc⟩, fun d hd hlt => ?_⟩
        rcases List.mem_cons.1 hd with rfl | hd
        · exact absurd hlt (BitVec.lt_irrefl _)
        · exact absurd hlt (BitVec.not_lt.2 (BitVec.le_of_lt (first d hd)))
      · rintro ⟨⟨d, hd, rfl, -⟩, hmin⟩
        rcases List.mem_cons.1 hd with rfl | hd
        · rfl
        · exact absurd hc (hmin c List.mem_cons_self (first d hd))
    · rw [ih (neg hc) rest]
      simp only [List.exists_mem_cons_iff, List.forall_mem_cons, hc, and_false, false_or, not_false_eq_true, implies_true, true_and]

/-! The passes (R175). -/

theorem firstPass_none {all : List Record} (rs : List Record) : ∀ (earlier : List Record) (i : Nat), firstPass all earlier i rs = none ↔
    ∀ p q z, rs = p ++ q :: z → recordReason all (earlier ++ p) q = none := by
  induction rs with
  | nil =>
    refine fun _ _ => ⟨fun _ p q z h => ?_, fun _ => rfl⟩
    exact absurd h.symm (List.append_ne_nil_of_right_ne_nil p (List.cons_ne_nil q z))
  | cons r rs ih =>
    intro earlier i
    unfold firstPass
    cases hr : recordReason all earlier r with
    | some why =>
      refine ⟨fun h => (nomatch h), fun h => ?_⟩
      have := h [] r rs rfl
      rw [List.append_nil, hr] at this; cases this
    | none =>
      refine (ih (earlier ++ [r]) (i + 1)).trans ⟨fun h p q z hp => ?_, fun h p q z hp => ?_⟩
      · match p, hp with
        | [], hp => obtain ⟨rfl, -⟩ := List.cons.inj hp; rw [List.append_nil]; exact hr
        | x :: p, hp =>
          obtain ⟨rfl, tail⟩ := List.cons.inj hp
          have := h p q z tail; rwa [List.append_assoc] at this
      · have := h (r :: p) q z (congrArg (r :: ·) hp)
        rw [List.append_assoc]; exact this

theorem firstPass_some {all : List Record} {r : Record} {after : List Record} {why : LoadReason} (before : List Record) :
    ∀ (earlier : List Record) (i : Nat), (∀ p q z, before = p ++ q :: z → recordReason all (earlier ++ p) q = none) →
    recordReason all (earlier ++ before) r = some why →
    firstPass all earlier i (before ++ r :: after) = some (i + before.length, why) := by
  induction before with
  | nil =>
    intro earlier i _ hr
    rw [List.append_nil] at hr
    unfold firstPass; rw [List.nil_append]; dsimp only; rw [hr]; rfl
  | cons b before ih =>
    intro earlier i hb hr
    have head : recordReason all earlier b = none := by simpa using hb [] b before rfl
    have tail := ih (earlier ++ [b]) (i + 1) (fun p q z hp => by
      rw [List.append_assoc]; exact hb (b :: p) q z (congrArg (b :: ·) hp)) (by rw [List.append_assoc]; exact hr)
    rw [List.cons_append]
    unfold firstPass; rw [head]; dsimp only
    rw [tail, List.length_cons]; congr 2; omega

theorem positions_length (p : Record → Bool) (rs : List Record) : ∀ i, (positions p i rs).length = (rs.filter p).length := by
  induction rs with
  | nil => exact fun _ => rfl
  | cons r rs ih =>
    intro i
    unfold positions
    by_cases h : p r = true
    · rw [if_pos h, List.filter_cons_of_pos h, List.length_cons, List.length_cons, ih]
    · rw [if_neg h, List.filter_cons_of_neg h, ih]

theorem positions_append (p : Record → Bool) (as bs : List Record) :
    ∀ i, positions p i (as ++ bs) = positions p i as ++ positions p (i + as.length) bs := by
  induction as with
  | nil => exact fun _ => rfl
  | cons a as ih =>
    intro i
    have next : i + (a :: as).length = i + 1 + as.length := by rw [List.length_cons]; omega
    rw [List.cons_append, next]
    simp only [positions]
    by_cases h : p a = true
    · rw [if_pos h, if_pos h, ih, List.cons_append]
    · rw [if_neg h, if_neg h, ih]

theorem countFails_none {ps : List Nat} : countFails ps = none ↔ ps.length = 1 := by
  match ps with
  | [] => simp [countFails]
  | [_] => simp [countFails]
  | _ :: _ :: _ => simp [countFails]

/-- R175: the second of a kind. -/
theorem countFails_second {p : Record → Bool} {before after : List Record} {q : Record} (hq : p q = true)
    (hb : (before.filter p).length = 1) : countFails (positions p 1 (before ++ q :: after)) = some (before.length + 1) := by
  rw [positions_append]
  have one := (positions_length p before 1).trans hb
  obtain ⟨i, hi⟩ := List.length_eq_one_iff.1 one
  rw [hi]
  unfold positions; rw [if_pos hq, Nat.add_comm]; rfl

theorem countFails_empty {p : Record → Bool} {rs : List Record} (h : rs.filter p = []) : countFails (positions p 1 rs) = some 0 := by
  have := positions_length p rs 1
  rw [h] at this
  rw [List.length_eq_zero_iff.1 this]; rfl

/-! The checks of each kind, as propositions. -/

/-- Outside a range. -/
def Outside (lo hi n : Nat) : Prop := n < lo ∨ hi < n

def NoLever (all : List Record) (n : Byte) : Prop := ∀ l : LeverRec, .lever l ∈ all → l.number ≠ n
def NoTrack (all : List Record) (n : Byte) : Prop := ∀ k : TrackRec, .track k ∈ all → k.circuit ≠ n
def NoSequence (all : List Record) (n : Byte) : Prop := ∀ q : SequenceRec, .sequence q ∈ all → q.number ≠ n
def NoSignal (all : List Record) (n : Byte) : Prop := ∀ l, leverOf n.toNat all = some l → l.kind ≠ 0

theorem not_within (lo hi n : Nat) : (!within lo hi n) = true ↔ Outside lo hi n := by
  unfold within Outside; rw [Bool.not_eq_true', decide_eq_false_iff_not]; omega

theorem within_false (lo hi n : Nat) : within lo hi n = false ↔ Outside lo hi n := by rw [← not_within, Bool.not_eq_true']

theorem within_iff (lo hi n : Nat) : within lo hi n = true ↔ ¬Outside lo hi n := by
  rw [← not_within, Bool.not_eq_true', Bool.not_eq_false]

theorem notSignal_iff (all : List Record) (n : Byte) : notSignal all n.toNat = true ↔ NoSignal all n := by
  unfold notSignal NoSignal
  cases leverOf n.toNat all with
  | none => simp
  | some l =>
    have signal : l.isSignal = true ↔ l.kind = 0 := by
      unfold LeverRec.isSignal
      revert l; intro l; generalize l.kind = k; revert k; decide
    rw [Option.any_some, Bool.not_eq_true', ← Bool.not_eq_true, signal]
    exact ⟨fun h k hk => Option.some.inj hk ▸ h, fun h => h l rfl⟩

def FrameRec.checks (r : FrameRec) : List (Prop × LoadReason) :=
  [((r.transitLimit ≠ 0 ∧ Outside 2 60 r.transitLimit.toNat) ∨ (r.travelTime ≠ 0 ∧ Outside 50 500 r.travelTime.toNat) ∨
      Outside 100 1000 r.threshold.toNat, .badValue)]

def TrackRec.checks (earlier : List Record) (r : TrackRec) : List (Prop × LoadReason) :=
  [(Outside 1 24 r.circuit.toNat ∨ Outside 16 1000 r.pick.toNat ∨ r.pick.toNat < r.drop.toNat + 16 ∨
      Outside 8 200 r.clearCount.toNat ∨ r.degrade.toNat < 32, .badValue),
    (∃ k : TrackRec, .track k ∈ earlier ∧ k.circuit = r.circuit, .duplicate)]

def SequenceRec.checks (all earlier : List Record) (r : SequenceRec) : List (Prop × LoadReason) :=
  [(Outside 1 16 r.number.toNat ∨ Outside 2 4 r.circuits.length ∨ Outside 5 600 r.timeout.toNat, .badValue),
    (∃ q : SequenceRec, .sequence q ∈ earlier ∧ q.number = r.number, .duplicate),
    ((∃ c ∈ r.circuits, Outside 1 24 c.toNat) ∨ (r.gate ≠ absent ∧ Outside 1 48 r.gate.toNat), .refRange),
    (¬r.circuits.Nodup, .repeatedTrack),
    ((∃ c ∈ r.circuits, NoTrack all c) ∨ (r.gate ≠ absent ∧ NoLever all r.gate), .refAbsent)]

def ApproachRec.checks (all earlier : List Record) (r : ApproachRec) : List (Prop × LoadReason) :=
  [(Outside 1 16 r.number.toNat ∨ Outside 100 6000 r.hold.toNat, .badValue),
    (∃ q : ApproachRec, .approach q ∈ earlier ∧ q.number = r.number, .duplicate),
    (Outside 1 48 r.signal.toNat ∨ Outside 1 24 r.track.toNat ∨ (r.plunger ≠ absent ∧ Outside 1 8 r.plunger.toNat) ∨
      (r.release ≠ absent ∧ Outside 1 16 r.release.toNat), .refRange),
    (NoLever all r.signal ∨ NoTrack all r.track ∨ (r.release ≠ absent ∧ NoSequence all r.release), .refAbsent),
    (NoSignal all r.signal, .notSignal)]

def SectionRec.checks (all earlier : List Record) (r : SectionRec) : List (Prop × LoadReason) :=
  [(3 < r.letter.toNat ∨ (r.fitted = true ∧ (Outside 1 3 r.codeSet.toNat ∨ Outside 64 400 r.onLevel.toNat ∨
      r.offLevel.toNat < 16 ∨ r.onLevel.toNat < r.offLevel.toNat + 16)), .badValue),
    (∃ q : SectionRec, .blockSection q ∈ earlier ∧ q.letter = r.letter, .duplicate),
    (r.fitted = true ∧ (Outside 1 48 r.signal.toNat ∨ Outside 1 48 r.home.toNat ∨ Outside 1 16 r.arrival.toNat ∨
      (r.clearing ≠ absent ∧ Outside 1 24 r.clearing.toNat)), .refRange),
    (r.fitted = true ∧ (NoLever all r.signal ∨ NoLever all r.home ∨ NoSequence all r.arrival ∨
      (r.clearing ≠ absent ∧ NoTrack all r.clearing)), .refAbsent),
    (r.fitted = true ∧ (NoSignal all r.signal ∨ NoSignal all r.home), .notSignal)]

/-- A time of the bells written, and outside its range. -/
def WrongTime (w : Word16) (lo hi : Nat) : Prop := w ≠ 0 ∧ Outside lo hi w.toNat

def TimingRec.checks (r : TimingRec) : List (Prop × LoadReason) :=
  let t := r.filled
  [(WrongTime r.beatMinimum 20 60 ∨ WrongTime r.longPress 400 900 ∨ WrongTime r.heldPending 700 1200 ∨
      WrongTime r.heldRing 1200 3000 ∨ WrongTime r.mergeGap 20 100 ∨ WrongTime r.groupGap 300 800 ∨
      WrongTime r.codeEndGap 1200 3000 ∨ WrongTime r.repetition 5 60 ∨ WrongTime r.attentionLife 10 120, .badValue),
    (t.longPress.toNat ≤ t.beatMinimum.toNat ∨ t.heldPending.toNat ≤ t.longPress.toNat ∨
      t.heldRing.toNat ≤ t.heldPending.toNat ∨ t.groupGap.toNat ≤ t.mergeGap.toNat ∨
      t.codeEndGap.toNat ≤ t.groupGap.toNat, .timingOrder)]

def CodeRec.checks (earlier : List Record) (r : CodeRec) : List (Prop × LoadReason) :=
  [(Outside 1 32 r.entry.toNat ∨ Outside 1 4 r.groups.length ∨ (∃ g ∈ r.groups, Outside 1 12 g.toNat) ∨
      24 < (r.groups.map (·.toNat)).sum ∨ 7 < r.meaning.toNat ∨ (r.meaning = 1 ∧ 7 < r.trainClass.toNat) ∨
      (r.meaning ≠ 1 ∧ r.trainClass ≠ absent) ∨ r.codeSets &&& 0x0E = 0 ∨ r.codeSets &&& 0xF1 ≠ 0, .badValue),
    (∃ q : CodeRec, .code q ∈ earlier ∧ q.entry = r.entry, .duplicate),
    (∃ q : CodeRec, .code q ∈ earlier ∧ q.groups = r.groups ∧ q.codeSets &&& r.codeSets ≠ 0, .ambiguous)]

theorem orDefault_wrong {w d : Word16} {lo hi : Nat} (hd : within lo hi d.toNat = true) :
    (!within lo hi (orDefault w d).toNat) = true ↔ WrongTime w lo hi := by
  rw [not_within]; unfold orDefault WrongTime
  by_cases h : w = 0
  · rw [if_pos h]; exact iff_of_false ((within_iff _ _ _).1 hd) fun hn => hn.1 h
  · rw [if_neg h]; exact (and_iff_right h).symm

theorem frameReason_checks (r : FrameRec) : FirstFailing r.checks (frameReason r) := by
  refine Tests.firstFailing (.cons ⟨?_, rfl⟩ .nil)
  simp only [Bool.or_eq_true, or_assoc]
  refine or_congr ?_ (or_congr (orDefault_wrong (by decide)) (not_within _ _ _))
  rw [not_within]; unfold FrameRec.filled; dsimp only
  by_cases h : r.transitLimit = 0
  · rw [if_pos h]; exact iff_of_false ((within_iff _ _ _).1 (by decide)) fun hn => hn.1 h
  · rw [if_neg h]; exact (and_iff_right h).symm

theorem trackReason_checks (earlier : List Record) (r : TrackRec) : FirstFailing (r.checks earlier) (trackReason earlier r) := by
  refine Tests.firstFailing (.cons ⟨?_, rfl⟩ (.cons ⟨trackOf_isSome _ _, rfl⟩ .nil))
  simp only [Bool.or_eq_true, or_assoc, Bool.not_eq_true', within_false, decide_eq_false_iff_not, not_le]
  refine or_congr_right (or_congr_right (or_congr_right (or_congr_right ?_)))
  have := r.degrade.isLt
  unfold Outside; omega

theorem sequenceReason_checks (all earlier : List Record) (r : SequenceRec) :
    FirstFailing (r.checks all earlier) (sequenceReason all earlier r) := by
  refine Tests.firstFailing (.cons ⟨?_, rfl⟩ (.cons ⟨sequenceOf_isSome _ _, rfl⟩ (.cons ⟨?_, rfl⟩ (.cons ⟨?_, rfl⟩
    (.cons ⟨?_, rfl⟩ .nil)))))
  · simp only [Bool.or_eq_true, or_assoc, not_within]
  · simp only [Bool.or_eq_true, Bool.and_eq_true, List.any_eq_true, not_within, bne_iff_ne]
  · simp only [Bool.not_eq_true', decide_eq_false_iff_not]
  · simp only [Bool.or_eq_true, Bool.and_eq_true, List.any_eq_true, trackOf_isNone, leverOf_isNone, bne_iff_ne]; rfl

theorem approachReason_checks (all earlier : List Record) (r : ApproachRec) :
    FirstFailing (r.checks all earlier) (approachReason all earlier r) := by
  refine Tests.firstFailing (.cons ⟨?_, rfl⟩ (.cons ⟨approachOf_isSome _ _, rfl⟩ (.cons ⟨?_, rfl⟩ (.cons ⟨?_, rfl⟩
    (.cons ⟨notSignal_iff _ _, rfl⟩ .nil)))))
  · simp only [Bool.or_eq_true, not_within]
  · simp only [Bool.or_eq_true, Bool.and_eq_true, not_within, bne_iff_ne, or_assoc]
  · simp only [Bool.or_eq_true, Bool.and_eq_true, trackOf_isNone, leverOf_isNone, sequenceOf_isNone, bne_iff_ne, or_assoc]; rfl

theorem sectionReason_checks (all earlier : List Record) (r : SectionRec) :
    FirstFailing (r.checks all earlier) (sectionReason all earlier r) := by
  refine Tests.firstFailing (.cons ⟨?_, rfl⟩ (.cons ⟨sectionOf_isSome _ _, rfl⟩ (.cons ⟨?_, rfl⟩ (.cons ⟨?_, rfl⟩
    (.cons ⟨?_, rfl⟩ .nil)))))
  · simp only [Bool.or_eq_true, Bool.and_eq_true, within_false, or_assoc, Bool.not_eq_true', decide_eq_false_iff_not]
    refine or_congr ?_ (and_congr_right fun _ => or_congr_right (or_congr_right ?_))
    · unfold Outside; omega
    · omega
  · simp only [Bool.or_eq_true, Bool.and_eq_true, not_within, bne_iff_ne, or_assoc]
  · simp only [Bool.or_eq_true, Bool.and_eq_true, trackOf_isNone, leverOf_isNone, sequenceOf_isNone, bne_iff_ne, or_assoc]; rfl
  · simp only [Bool.or_eq_true, Bool.and_eq_true, notSignal_iff]

theorem timingReason_checks (r : TimingRec) : FirstFailing r.checks (timingReason r) := by
  refine Tests.firstFailing (.cons ⟨?_, rfl⟩ (.cons ⟨?_, rfl⟩ .nil))
  · simp only [Bool.or_eq_true, or_assoc]
    exact or_congr (orDefault_wrong (by decide)) (or_congr (orDefault_wrong (by decide)) (or_congr (orDefault_wrong (by decide))
      (or_congr (orDefault_wrong (by decide)) (or_congr (orDefault_wrong (by decide)) (or_congr (orDefault_wrong (by decide))
      (or_congr (orDefault_wrong (by decide)) (or_congr (orDefault_wrong (by decide)) (orDefault_wrong (by decide)))))))))
  · rw [Bool.not_eq_true', decide_eq_false_iff_not]; omega

theorem codeSets_wrong (w : Byte) : (w = 0 ∨ w &&& 0xF1 ≠ 0) ↔ (w &&& 0x0E = 0 ∨ w &&& 0xF1 ≠ 0) := by
  revert w; decide

theorem codeReason_checks (earlier : List Record) (r : CodeRec) : FirstFailing (r.checks earlier) (codeReason earlier r) := by
  refine Tests.firstFailing (.cons ⟨?_, rfl⟩ (.cons ⟨codeOf_isSome _ _, rfl⟩ (.cons ⟨?_, rfl⟩ .nil)))
  · have beats : (r.groups.map (·.toNat)).any (fun n => !within 1 12 n) = true ↔ ∃ g ∈ r.groups, Outside 1 12 g.toNat := by
      rw [List.any_map, List.any_eq_true]; exact exists_congr fun g => and_congr_right fun _ => not_within _ _ _
    have total : (r.groups.map (·.toNat)).foldl (· + ·) 0 = (r.groups.map (·.toNat)).sum := List.sum_eq_foldl.symm
    have train : (if Meaning.ofCode r.meaning.toNat = some .offer then !within 0 7 r.trainClass.toNat
        else r.trainClass != absent) = true ↔ (r.meaning = 1 ∧ 7 < r.trainClass.toNat) ∨ (r.meaning ≠ 1 ∧ r.trainClass ≠ absent) := by
      have offer : Meaning.ofCode r.meaning.toNat = some .offer ↔ r.meaning = 1 := by
        generalize r.meaning = m; revert m; decide
      by_cases h : r.meaning = 1
      · rw [if_pos (offer.2 h), not_within]
        exact ⟨fun hn => .inl ⟨h, hn.resolve_left (Nat.not_lt_zero _)⟩, fun hn => hn.elim (fun hp => .inr hp.2) fun hp => absurd h hp.1⟩
      · rw [if_neg (mt offer.1 h), bne_iff_ne]
        exact ⟨fun hn => .inr ⟨h, hn⟩, fun hn => hn.elim (fun hp => absurd hp.1 h) And.right⟩
    have known : (Meaning.ofCode r.meaning.toNat).isNone = true ↔ 7 < r.meaning.toNat := by
      generalize r.meaning = m; revert m; decide
    simp only [Bool.or_eq_true, not_within, beats, total, train, known, decide_eq_true_iff, List.length_map, or_assoc, beq_iff_eq,
      bne_iff_ne, codeSets_wrong]
  · rw [List.any_eq_true]
    constructor
    · rintro ⟨q, hq, hw⟩
      cases q with
      | code q =>
        obtain ⟨hg, hs⟩ := Bool.and_eq_true_iff.1 hw
        exact ⟨q, hq, beq_iff_eq.1 hg, bne_iff_ne.1 hs⟩
      | _ => exact nomatch hw
    · rintro ⟨q, hq, hg, hs⟩
      exact ⟨_, hq, Bool.and_eq_true_iff.2 ⟨beq_iff_eq.2 hg, bne_iff_ne.2 hs⟩⟩

/-! The checks of a LEVER record (R18). -/

/-- Every condition of a known kind passes a test. -/
def LeverRec.Passes (r : LeverRec) (test : ConditionKind → Nat → Bool) : Prop :=
  ∀ c ∈ r.conditions, ∀ k, ConditionKind.ofCode c.1.toNat = some k → test k c.2.toNat = true

theorem conditionFails_some (test : ConditionKind → Nat → Bool) (c : Byte × Byte) :
    conditionFails test c = true ↔ ∃ k, ConditionKind.ofCode c.1.toNat = some k ∧ test k c.2.toNat = false := by
  unfold conditionFails
  cases ConditionKind.ofCode c.1.toNat with
  | none => exact ⟨fun h => (nomatch h), fun ⟨_, h, _⟩ => (nomatch h)⟩
  | some k => simp

theorem conditionFails_iff (r : LeverRec) (test : ConditionKind → Nat → Bool) :
    r.conditions.any (conditionFails test) = true ↔ ¬r.Passes test := by
  rw [List.any_eq_true]
  unfold LeverRec.Passes; push Not
  simp only [conditionFails_some, ne_eq, Bool.not_eq_true]

/-- A lever condition names the lever of its own record. -/
theorem namesSelf_iff (r : LeverRec) : r.conditions.any (conditionFails fun k x => !namesSelf r.number.toNat k x) = true ↔
    ∃ c ∈ r.conditions, c.1.toNat ≤ 1 ∧ c.2 = r.number := by
  have named : ∀ (k : ConditionKind) (x : Byte),
      namesSelf r.number.toNat k x.toNat = true ↔ (k = .leverNormal ∨ k = .leverReverse) ∧ x = r.number := fun k x => by
    cases k <;> simp [namesSelf, BitVec.toNat_inj]
  have kinds : ∀ b : Byte, (∃ k, ConditionKind.ofCode b.toNat = some k ∧ (k = .leverNormal ∨ k = .leverReverse)) ↔ b.toNat ≤ 1 := by
    have coded : ∀ b : Byte, (ConditionKind.ofCode b.toNat = some .leverNormal ∨ ConditionKind.ofCode b.toNat = some .leverReverse) ↔
        b.toNat ≤ 1 := by decide
    intro b
    rw [← coded]
    exact ⟨fun ⟨k, h, hk⟩ => hk.imp (fun e => h.trans (congrArg some e)) fun e => h.trans (congrArg some e), fun h => h.elim (fun h => ⟨_, h, .inl rfl⟩) fun h => ⟨_, h, .inr rfl⟩⟩
  rw [List.any_eq_true]
  refine exists_congr fun c => and_congr_right fun _ => ?_
  rw [conditionFails_some, ← kinds]
  simp only [Bool.not_eq_false', named]
  exact ⟨fun ⟨k, hk, h, e⟩ => ⟨⟨k, hk, h⟩, e⟩, fun ⟨⟨k, hk, h⟩, e⟩ => ⟨k, hk, h, e⟩⟩

def LeverRec.checks (all earlier : List Record) (r : LeverRec) : List (Prop × LoadReason) :=
  [(r.number.toNat = 0 ∨ 48 < r.number.toNat ∨ 3 < r.kind.toNat, .badValue),
    (∃ l : LeverRec, .lever l ∈ earlier ∧ l.number = r.number, .duplicate),
    (16 < r.reverseList.length ∨ 16 < r.normalList.length, .listLong),
    (∃ c ∈ r.conditions, 8 < c.1.toNat, .badCondition),
    (¬r.Passes operandInRange, .refRange),
    (∃ t ∈ r.reverseList ++ r.normalList, t.whenKind = 7, .whenPassage),
    (∃ c ∈ r.conditions, c.1.toNat ≤ 1 ∧ c.2 = r.number, .selfReference),
    (¬r.Passes (operandPresent all), .refAbsent),
    (r.kind = 3 ∧ r.reverseList ++ r.normalList ≠ [], .spareTerms),
    (768 < Sys2Proof.Machine.poolUse earlier + r.reverseList.length + r.normalList.length, .poolFull)]

theorem leverReason_checks (all earlier : List Record) (r : LeverRec) :
    FirstFailing (r.checks all earlier) (leverReason all earlier r) := by
  have unknownKind : (LeverKind.ofCode r.kind.toNat).isNone = true ↔ 3 < r.kind.toNat := by
    generalize r.kind = m; revert m; decide
  have unknown : ∀ k : Byte, (ConditionKind.ofCode k.toNat).isNone = true ↔ 8 < k.toNat := by decide
  have passage : ∀ k : Byte, (ConditionKind.ofCode k.toNat == some .passage) = true ↔ k = 7 := by decide
  have spare : r.isSpare = true ↔ r.kind = 3 := by
    unfold LeverRec.isSpare; generalize r.kind = m; revert m; decide
  refine Tests.firstFailing (.cons ⟨?_, rfl⟩ (.cons ⟨leverOf_isSome _ _, rfl⟩ (.cons ⟨?_, rfl⟩ (.cons ⟨?_, rfl⟩ (.cons
    ⟨conditionFails_iff _ _, rfl⟩ (.cons ⟨?_, rfl⟩ (.cons ⟨namesSelf_iff r, rfl⟩ (.cons ⟨conditionFails_iff _ _, rfl⟩ (.cons ⟨?_, rfl⟩
    (.cons ⟨?_, rfl⟩ .nil))))))))))
  · rw [Bool.or_eq_true, not_within, unknownKind]; unfold Outside; omega
  · rw [Bool.or_eq_true, decide_eq_true_iff, decide_eq_true_iff]
  · rw [List.any_eq_true]; exact exists_congr fun c => and_congr_right fun _ => unknown c.1
  · rw [List.any_eq_true]; exact exists_congr fun t => and_congr_right fun _ => passage t.whenKind
  · rw [Bool.and_eq_true, spare, Bool.not_eq_true', ← Bool.not_eq_true, List.isEmpty_iff]; rfl
  · rw [decide_eq_true_iff]; unfold LeverRec.poolUse; dsimp only; rw [Nat.add_assoc]; rfl

theorem LeverRec.checks_sorted (all earlier : List Record) (r : LeverRec) :
    (r.checks all earlier).Pairwise fun a b => a.2.code < b.2.code := by
  unfold LeverRec.checks
  simp [LoadReason.code]

/-! What passes (R175). -/

def Record.checks (all earlier : List Record) : Record → List (Prop × LoadReason)
  | .frame r => r.checks
  | .lever r => r.checks all earlier
  | .track r => r.checks earlier
  | .sequence r => r.checks all earlier
  | .approach r => r.checks all earlier
  | .blockSection r => r.checks all earlier
  | .timing r => r.checks
  | .code r => r.checks earlier

theorem recordReason_checks (all earlier : List Record) (q : Record) :
    FirstFailing (q.checks all earlier) (recordReason all earlier q) := by
  cases q with
  | frame r => exact frameReason_checks r
  | lever r => exact leverReason_checks all earlier r
  | track r => exact trackReason_checks earlier r
  | sequence r => exact sequenceReason_checks all earlier r
  | approach r => exact approachReason_checks all earlier r
  | blockSection r => exact sectionReason_checks all earlier r
  | timing r => exact timingReason_checks r
  | code r => exact codeReason_checks earlier r

theorem passes_checks {all earlier : List Record} {q : Record} (h : recordReason all earlier q = none) :
    ∀ c ∈ q.checks all earlier, ¬c.1 := firstFailing_none (h ▸ recordReason_checks all earlier q)

/-- Every record passes the checks of its kind. -/
def AllPass (rs : List Record) : Prop := ∀ p q z, rs = p ++ q :: z → recordReason rs p q = none

theorem verifyLoad_of_allPass {rs : List Record} (h : AllPass rs) : verifyLoad rs = secondPass rs := by
  unfold verifyLoad; rw [(firstPass_none rs [] 1).2 h]

theorem verifyLoad_none {rs : List Record} (h : verifyLoad rs = none) :
    AllPass rs ∧ (rs.filter Record.isFrame).length = 1 ∧ (rs.filter Record.isTiming).length = 1 := by
  have pass : firstPass rs [] 1 rs = none := by
    unfold verifyLoad at h
    cases hp : firstPass rs [] 1 rs with
    | some f => rw [hp] at h; exact nomatch h
    | none => rfl
  have all : AllPass rs := (firstPass_none rs [] 1).1 pass
  rw [verifyLoad_of_allPass all] at h
  unfold secondPass at h
  cases hf : countFails (positions Record.isFrame 1 rs) with
  | some i => rw [hf] at h; exact nomatch h
  | none =>
    rw [hf] at h; dsimp only at h
    cases ht : countFails (positions Record.isTiming 1 rs) with
    | some i => rw [ht] at h; exact nomatch h
    | none =>
      exact ⟨all, (positions_length _ rs 1).symm.trans (countFails_none.1 hf), (positions_length _ rs 1).symm.trans (countFails_none.1 ht)⟩

theorem countFails_one {p : Record → Bool} {rs : List Record} (h : (rs.filter p).length = 1) : countFails (positions p 1 rs) = none :=
  countFails_none.2 ((positions_length p rs 1).trans h)

theorem secondPass_frame {rs : List Record} {i : Nat} (h : countFails (positions Record.isFrame 1 rs) = some i) :
    secondPass rs = some (i, .frameCount) := by unfold secondPass; rw [h]

theorem secondPass_timing {rs : List Record} {i : Nat} (hf : (rs.filter Record.isFrame).length = 1)
    (h : countFails (positions Record.isTiming 1 rs) = some i) : secondPass rs = some (i, .timingCount) := by
  unfold secondPass; rw [countFails_one hf]; dsimp only; rw [h]

theorem secondPass_passes {rs : List Record} (hf : (rs.filter Record.isFrame).length = 1)
    (ht : (rs.filter Record.isTiming).length = 1) : secondPass rs = none := by
  unfold secondPass; rw [countFails_one hf]; dsimp only; rw [countFails_one ht]

namespace AllPass

variable {rs : List Record} (h : AllPass rs)
include h

/-- Each record of a table that passes has passed in its place. -/
theorem of_mem {r : Record} (hr : r ∈ rs) : ∃ p, (∃ z, rs = p ++ r :: z) ∧ recordReason rs p r = none := by
  obtain ⟨p, z, hz⟩ := List.append_of_mem hr
  exact ⟨p, ⟨z, hz⟩, h p r z hz⟩

theorem poolUse_le : poolUse rs ≤ 768 := by
  have append : ∀ as bs, poolUse (as ++ bs) = poolUse as + poolUse bs := fun as bs => by
    induction as with
    | nil => exact (Nat.zero_add _).symm
    | cons a as ih => cases a <;> simp [poolUse, ih, Nat.add_assoc]
  suffices ∀ as z, rs = as ++ z → poolUse as ≤ 768 from this rs [] (List.append_nil rs).symm
  intro as
  induction as using List.reverseRecOn with
  | nil => exact fun _ _ => Nat.zero_le _
  | append_singleton as a ih =>
    intro z hz
    rw [List.append_assoc] at hz
    rw [append]
    cases a with
    | lever r =>
      have fits : ¬(768 < poolUse as + r.reverseList.length + r.normalList.length) :=
        passes_checks (h as _ z hz) (_, .poolFull) (by simp [Record.checks, LeverRec.checks])
      have own : poolUse [.lever r] = r.reverseList.length + r.normalList.length := rfl
      rw [own]; omega
    | _ => exact ih _ hz

end AllPass

/-- R176: a key gives the kind and the number of a record. -/
theorem key_parts {x q : Record} (h : x.key = q.key) : x.kindOrder = q.kindOrder ∧ x.number = q.number := by
  have bound : ∀ r : Record, r.number < 256 := fun r => by
    cases r with
    | frame _ | timing _ => exact Nat.zero_lt_succ _
    | _ => exact BitVec.isLt _
  have := bound x; have := bound q
  unfold Record.key at h; omega

/-- R175: two records of one kind and number, the second of which is no FRAME and no BELL_TIMING, fail. -/
theorem recordReason_duplicate {all earlier : List Record} {x q : Record} (hx : x ∈ earlier) (hk : x.key = q.key)
    (hf : q.isFrame = false) (ht : q.isTiming = false) : recordReason all earlier q ≠ none := by
  have named : x.named q.kindOrder q.number := by
    obtain ⟨kind, number⟩ := key_parts hk
    exact ⟨kind, .inr (.inr number)⟩
  have found : ∀ kind, kind ≤ 7 → q.kindOrder = kind → (recordOf kind q.number earlier).isSome = true :=
    fun kind h7 hq => (recordOf_isSome h7 earlier).2 ⟨x, hx, hq ▸ named⟩
  intro hn
  have unique := passes_checks hn
  cases q with
  | frame r => cases hf
  | timing r => cases ht
  | lever r =>
    exact unique _ (List.mem_cons_of_mem _ List.mem_cons_self)
      ((leverOf_isSome _ _).1 (Option.isSome_map.symm.trans (found 1 (by decide) rfl)))
  | track r =>
    exact unique _ (List.mem_cons_of_mem _ List.mem_cons_self)
      ((trackOf_isSome _ _).1 (Option.isSome_map.symm.trans (found 2 (by decide) rfl)))
  | sequence r =>
    exact unique _ (List.mem_cons_of_mem _ List.mem_cons_self)
      ((sequenceOf_isSome _ _).1 (Option.isSome_map.symm.trans (found 3 (by decide) rfl)))
  | approach r =>
    exact unique _ (List.mem_cons_of_mem _ List.mem_cons_self)
      ((approachOf_isSome _ _).1 (Option.isSome_map.symm.trans (found 4 (by decide) rfl)))
  | blockSection r =>
    exact unique _ (List.mem_cons_of_mem _ List.mem_cons_self)
      ((sectionOf_isSome _ _).1 (Option.isSome_map.symm.trans (found 5 (by decide) rfl)))
  | code r =>
    exact unique _ (List.mem_cons_of_mem _ List.mem_cons_self)
      ((codeOf_isSome _ _).1 (Option.isSome_map.symm.trans (found 7 (by decide) rfl)))

theorem nodup_of_splits {α β : Type} {f : α → β} {l : List α} (h : ∀ p q z, l = p ++ q :: z → ∀ x ∈ p, f x ≠ f q) : (l.map f).Nodup := by
  suffices ∀ as z, l = as ++ z → (as.map f).Nodup from this l [] (List.append_nil l).symm
  intro as
  induction as using List.reverseRecOn with
  | nil => exact fun _ _ => List.nodup_nil
  | append_singleton as a ih =>
    intro z hz
    rw [List.append_assoc] at hz
    rw [List.map_append, List.nodup_append]
    refine ⟨ih _ hz, List.nodup_singleton _, fun y hy b hb => ?_⟩
    obtain ⟨x, hx, rfl⟩ := List.mem_map.1 hy
    obtain rfl := List.mem_singleton.1 hb
    exact h as a z hz x hx

/-- R175: of one kind no second record where only one is allowed. -/
theorem filter_two {p : Record → Bool} {earlier after : List Record} {x q : Record} (hx : x ∈ earlier) (px : p x = true) (pq : p q = true) :
    ((earlier ++ q :: after).filter p).length ≠ 1 := by
  have one : 0 < (earlier.filter p).length := List.length_pos_of_mem (List.mem_filter.2 ⟨hx, px⟩)
  rw [List.filter_append, List.filter_cons_of_pos pq, List.length_append, List.length_cons]; omega

theorem AllPass.keys_nodup {rs : List Record} (h : AllPass rs) (hf : (rs.filter Record.isFrame).length = 1)
    (ht : (rs.filter Record.isTiming).length = 1) : (rs.map Record.key).Nodup := by
  have frames : ∀ r : Record, r.isFrame = (r.kindOrder == 0) := fun r => by cases r <;> rfl
  have timings : ∀ r : Record, r.isTiming = (r.kindOrder == 6) := fun r => by cases r <;> rfl
  refine nodup_of_splits fun p q z hz x hx hk => ?_
  have frame : x.isFrame = q.isFrame := by rw [frames, frames, (key_parts hk).1]
  have timing : x.isTiming = q.isTiming := by rw [timings, timings, (key_parts hk).1]
  by_cases hqf : q.isFrame = true
  · exact filter_two hx (frame.trans hqf) hqf (hz ▸ hf)
  · by_cases hqt : q.isTiming = true
    · exact filter_two hx (timing.trans hqt) hqt (hz ▸ ht)
    · exact recordReason_duplicate hx hk (Bool.eq_false_of_not_eq_true hqf) (Bool.eq_false_of_not_eq_true hqt) (h p q z hz)

/-! What a table that passes is (R175). -/

theorem not_outside {lo hi n : Nat} (h : ¬Outside lo hi n) : lo ≤ n ∧ n ≤ hi := by unfold Outside at h; omega

/-- A time that is not wrong is in its range once its default is filled in. -/
theorem filled_inRange {w d : Word16} {lo hi : Nat} (hd : within lo hi d.toNat = true) (h : ¬WrongTime w lo hi) :
    lo ≤ (orDefault w d).toNat ∧ (orDefault w d).toNat ≤ hi :=
  not_outside fun hn => h ((orDefault_wrong hd).1 ((not_within _ _ _).2 hn))

namespace AllPass

variable {rs : List Record} (h : AllPass rs)
include h

theorem frame_sound (hf : (rs.filter Record.isFrame).length = 1) : ∃ f : FrameRec, rs.filter Record.isFrame = [.frame f] ∧
    (f.transitLimit = 0 ∨ 2 ≤ f.transitLimit.toNat ∧ f.transitLimit.toNat ≤ 60) ∧
    (f.travelTime = 0 ∨ 50 ≤ f.travelTime.toNat ∧ f.travelTime.toNat ≤ 500) ∧
    100 ≤ f.threshold.toNat ∧ f.threshold.toNat ≤ 1000 := by
  obtain ⟨x, hx⟩ := List.length_eq_one_iff.1 hf
  obtain ⟨hmem, hkind⟩ := List.mem_filter.1 (hx ▸ List.mem_singleton_self x)
  cases x with
  | frame f =>
    obtain ⟨p, -, hp⟩ := h.of_mem hmem
    have good := passes_checks hp _ List.mem_cons_self
    dsimp only at good; push Not at good
    obtain ⟨transit, travel, threshold⟩ := good
    refine ⟨f, hx, ?_, ?_, not_outside threshold⟩
    · exact or_iff_not_imp_left.2 fun hn => not_outside (transit hn)
    · exact or_iff_not_imp_left.2 fun hn => not_outside (travel hn)
  | _ => cases hkind

theorem timing_sound (ht : (rs.filter Record.isTiming).length = 1) : ∃ b : TimingRec, rs.filter Record.isTiming = [.timing b] ∧
    let t := b.filled
    20 ≤ t.beatMinimum.toNat ∧ t.beatMinimum.toNat ≤ 60 ∧ 400 ≤ t.longPress.toNat ∧ t.longPress.toNat ≤ 900 ∧
    700 ≤ t.heldPending.toNat ∧ t.heldPending.toNat ≤ 1200 ∧ 1200 ≤ t.heldRing.toNat ∧ t.heldRing.toNat ≤ 3000 ∧
    20 ≤ t.mergeGap.toNat ∧ t.mergeGap.toNat ≤ 100 ∧ 300 ≤ t.groupGap.toNat ∧ t.groupGap.toNat ≤ 800 ∧
    1200 ≤ t.codeEndGap.toNat ∧ t.codeEndGap.toNat ≤ 3000 ∧ 5 ≤ t.repetition.toNat ∧ t.repetition.toNat ≤ 60 ∧
    10 ≤ t.attentionLife.toNat ∧ t.attentionLife.toNat ≤ 120 ∧
    t.beatMinimum.toNat < t.longPress.toNat ∧ t.longPress.toNat < t.heldPending.toNat ∧
    t.heldPending.toNat < t.heldRing.toNat ∧ t.mergeGap.toNat < t.groupGap.toNat ∧
    t.groupGap.toNat < t.codeEndGap.toNat := by
  obtain ⟨x, hx⟩ := List.length_eq_one_iff.1 ht
  obtain ⟨hmem, hkind⟩ := List.mem_filter.1 (hx ▸ List.mem_singleton_self x)
  cases x with
  | timing b =>
    obtain ⟨p, -, hp⟩ := h.of_mem hmem
    have good := passes_checks hp _ List.mem_cons_self
    have ordered := passes_checks hp _ (List.mem_cons_of_mem _ List.mem_cons_self)
    dsimp only at good ordered
    simp only [not_or, not_le] at good ordered
    obtain ⟨beat, long, pending, ring, merge, group, gap, repetition, life⟩ := good
    obtain ⟨b1, b2⟩ := filled_inRange (d := defaultTiming.beatMinimum) (by decide) beat
    obtain ⟨l1, l2⟩ := filled_inRange (d := defaultTiming.longPress) (by decide) long
    obtain ⟨p1, p2⟩ := filled_inRange (d := defaultTiming.heldPending) (by decide) pending
    obtain ⟨r1, r2⟩ := filled_inRange (d := defaultTiming.heldRing) (by decide) ring
    obtain ⟨m1, m2⟩ := filled_inRange (d := defaultTiming.mergeGap) (by decide) merge
    obtain ⟨g1, g2⟩ := filled_inRange (d := defaultTiming.groupGap) (by decide) group
    obtain ⟨e1, e2⟩ := filled_inRange (d := defaultTiming.codeEndGap) (by decide) gap
    obtain ⟨n1, n2⟩ := filled_inRange (d := defaultTiming.repetition) (by decide) repetition
    obtain ⟨a1, a2⟩ := filled_inRange (d := defaultTiming.attentionLife) (by decide) life
    exact ⟨b, hx, b1, b2, l1, l2, p1, p2, r1, r2, m1, m2, g1, g2, e1, e2, n1, n2, a1, a2, ordered⟩
  | _ => cases hkind

theorem lever_sound {r : LeverRec} (hr : .lever r ∈ rs) :
    1 ≤ r.number.toNat ∧ r.number.toNat ≤ 48 ∧ r.kind.toNat ≤ 3 ∧ r.reverseList.length ≤ 16 ∧ r.normalList.length ≤ 16 ∧
    (∀ c ∈ r.conditions, ∃ k, ConditionKind.ofCode c.1.toNat = some k ∧ operandInRange k c.2.toNat = true ∧
      operandPresent rs k c.2.toNat = true ∧ (k = .leverNormal ∨ k = .leverReverse → c.2 ≠ r.number)) ∧
    (∀ t ∈ r.reverseList ++ r.normalList, t.whenKind ≠ 7) ∧
    (r.kind = 3 → r.reverseList = [] ∧ r.normalList = []) := by
  obtain ⟨p, -, hp⟩ := h.of_mem hr
  have good := passes_checks hp
  simp only [Record.checks, LeverRec.checks, List.forall_mem_cons, not_or, not_exists, not_and, not_not, not_lt] at good
  obtain ⟨⟨n0, n48, k3⟩, -, ⟨rev, nor⟩, known, range, passage, self, present, spare, -⟩ := good
  have code : ∀ b : Byte, b.toNat ≤ 8 → ∃ k, ConditionKind.ofCode b.toNat = some k ∧ (k = .leverNormal ∨ k = .leverReverse → b.toNat ≤ 1) := by
    have coded : ∀ b : Byte, b.toNat ≤ 8 → (ConditionKind.ofCode b.toNat).isSome = true ∧
      (ConditionKind.ofCode b.toNat = some .leverNormal ∨ ConditionKind.ofCode b.toNat = some .leverReverse → b.toNat ≤ 1) := by decide
    intro b hb
    obtain ⟨some', low⟩ := coded b hb
    obtain ⟨k, hk⟩ := Option.isSome_iff_exists.1 some'
    exact ⟨k, hk, fun hl => low (hl.imp (fun e => hk.trans (congrArg some e)) fun e => hk.trans (congrArg some e))⟩
  refine ⟨Nat.pos_of_ne_zero n0, n48, k3, rev, nor, fun c hc => ?_, passage, fun hs => ?_⟩
  · obtain ⟨k, hk, low⟩ := code c.1 (known c hc)
    exact ⟨k, hk, range c hc k hk, present c hc k hk, fun hl => self c hc (low hl)⟩
  · exact List.append_eq_nil_iff.1 (spare hs)

end AllPass

theorem not_noLever {all : List Record} {n : Byte} (h : ¬NoLever all n) : ∃ l : LeverRec, .lever l ∈ all ∧ l.number = n := by
  unfold NoLever at h; push Not at h; exact h

theorem not_noTrack {all : List Record} {n : Byte} (h : ¬NoTrack all n) : ∃ k : TrackRec, .track k ∈ all ∧ k.circuit = n := by
  unfold NoTrack at h; push Not at h; exact h

theorem not_noSequence {all : List Record} {n : Byte} (h : ¬NoSequence all n) :
    ∃ q : SequenceRec, .sequence q ∈ all ∧ q.number = n := by
  unfold NoSequence at h; push Not at h; exact h

theorem not_noSignal {all : List Record} {n : Byte} (h : ¬NoSignal all n) :
    ∃ l : LeverRec, .lever l ∈ all ∧ l.number = n ∧ l.kind = 0 := by
  unfold NoSignal at h; push Not at h
  obtain ⟨l, hl, hk⟩ := h
  obtain ⟨hm, hn⟩ := leverOf_mem hl
  exact ⟨l, hm, BitVec.eq_of_toNat_eq hn, hk⟩

namespace AllPass

variable {rs : List Record} (h : AllPass rs)
include h

theorem track_sound {r : TrackRec} (hr : .track r ∈ rs) :
    1 ≤ r.circuit.toNat ∧ r.circuit.toNat ≤ 24 ∧ 16 ≤ r.pick.toNat ∧ r.pick.toNat ≤ 1000 ∧
    r.drop.toNat + 16 ≤ r.pick.toNat ∧ 8 ≤ r.clearCount.toNat ∧ r.clearCount.toNat ≤ 200 ∧ 32 ≤ r.degrade.toNat := by
  obtain ⟨p, -, hp⟩ := h.of_mem hr
  have good := passes_checks hp _ List.mem_cons_self
  simp only [not_or, not_lt] at good
  obtain ⟨circuit, pick, drop, count, degrade⟩ := good
  have := not_outside circuit; have := not_outside pick; have := not_outside count
  omega

theorem sequence_sound {r : SequenceRec} (hr : .sequence r ∈ rs) :
    1 ≤ r.number.toNat ∧ r.number.toNat ≤ 16 ∧ 5 ≤ r.timeout.toNat ∧ r.timeout.toNat ≤ 600 ∧
    2 ≤ r.circuits.length ∧ r.circuits.length ≤ 4 ∧ r.circuits.Nodup ∧
    (∀ c ∈ r.circuits, ∃ k : TrackRec, .track k ∈ rs ∧ k.circuit = c) ∧
    (r.gate = absent ∨ ∃ l : LeverRec, .lever l ∈ rs ∧ l.number = r.gate) := by
  obtain ⟨p, -, hp⟩ := h.of_mem hr
  have good := passes_checks hp
  simp only [Record.checks, SequenceRec.checks, List.forall_mem_cons, not_or, not_exists, not_and, not_not] at good
  obtain ⟨⟨number, length, timeout⟩, -, -, distinct, ⟨circuits, gate⟩, -⟩ := good
  obtain ⟨n1, n2⟩ := not_outside number
  obtain ⟨l1, l2⟩ := not_outside length
  obtain ⟨t1, t2⟩ := not_outside timeout
  exact ⟨n1, n2, t1, t2, l1, l2, distinct, fun c hc => not_noTrack (circuits c hc),
    or_iff_not_imp_left.2 fun hn => not_noLever (gate hn)⟩

theorem approach_sound {r : ApproachRec} (hr : .approach r ∈ rs) :
    1 ≤ r.number.toNat ∧ r.number.toNat ≤ 16 ∧ 100 ≤ r.hold.toNat ∧ r.hold.toNat ≤ 6000 ∧
    (∃ l : LeverRec, .lever l ∈ rs ∧ l.number = r.signal ∧ l.kind = 0) ∧
    (∃ k : TrackRec, .track k ∈ rs ∧ k.circuit = r.track) ∧
    (r.plunger = absent ∨ 1 ≤ r.plunger.toNat ∧ r.plunger.toNat ≤ 8) ∧
    (r.release = absent ∨ ∃ q : SequenceRec, .sequence q ∈ rs ∧ q.number = r.release) := by
  obtain ⟨p, -, hp⟩ := h.of_mem hr
  have good := passes_checks hp
  simp only [Record.checks, ApproachRec.checks, List.forall_mem_cons, not_or, not_exists, not_and] at good
  obtain ⟨⟨number, hold⟩, -, ⟨-, -, plunger, -⟩, ⟨-, track, release⟩, signal, -⟩ := good
  obtain ⟨n1, n2⟩ := not_outside number
  obtain ⟨t1, t2⟩ := not_outside hold
  exact ⟨n1, n2, t1, t2, not_noSignal signal, not_noTrack track, or_iff_not_imp_left.2 fun hn => not_outside (plunger hn),
    or_iff_not_imp_left.2 fun hn => not_noSequence (release hn)⟩

theorem section_sound {r : SectionRec} (hr : .blockSection r ∈ rs) :
    r.letter.toNat ≤ 3 ∧
    (r.fitted = true →
      1 ≤ r.codeSet.toNat ∧ r.codeSet.toNat ≤ 3 ∧ 64 ≤ r.onLevel.toNat ∧ r.onLevel.toNat ≤ 400 ∧
      16 ≤ r.offLevel.toNat ∧ r.offLevel.toNat + 16 ≤ r.onLevel.toNat ∧
      (∃ l : LeverRec, .lever l ∈ rs ∧ l.number = r.signal ∧ l.kind = 0) ∧
      (∃ l : LeverRec, .lever l ∈ rs ∧ l.number = r.home ∧ l.kind = 0) ∧
      (∃ q : SequenceRec, .sequence q ∈ rs ∧ q.number = r.arrival) ∧
      (r.clearing = absent ∨ ∃ k : TrackRec, .track k ∈ rs ∧ k.circuit = r.clearing)) := by
  obtain ⟨p, -, hp⟩ := h.of_mem hr
  have good := passes_checks hp
  simp only [Record.checks, SectionRec.checks, List.forall_mem_cons, not_or, not_exists, not_and, not_lt] at good
  obtain ⟨⟨letter, values⟩, -, -, objects, signals, -⟩ := good
  refine ⟨letter, fun hf => ?_⟩
  obtain ⟨set, on, off, order⟩ := values hf
  obtain ⟨-, -, arrival, clearing⟩ := objects hf
  obtain ⟨signal, home⟩ := signals hf
  obtain ⟨s1, s2⟩ := not_outside set
  obtain ⟨o1, o2⟩ := not_outside on
  exact ⟨s1, s2, o1, o2, off, order, not_noSignal signal, not_noSignal home, not_noSequence arrival,
    or_iff_not_imp_left.2 fun hn => not_noTrack (clearing hn)⟩

/-- R113: of two entries the later one is tested against the earlier. -/
theorem code_unambiguous {r e : CodeRec} {p z : List Record} (hz : rs = p ++ .code r :: z) (he : .code e ∈ p) (hg : e.groups = r.groups) :
    e.codeSets &&& r.codeSets = 0 := by
  have good := passes_checks (h p _ z hz) _ (List.mem_cons_of_mem _ (List.mem_cons_of_mem _ List.mem_cons_self))
  exact by_contra fun hn => good ⟨e, he, hg, hn⟩

theorem code_sound {r : CodeRec} (hr : .code r ∈ rs) :
    1 ≤ r.entry.toNat ∧ r.entry.toNat ≤ 32 ∧ 1 ≤ r.groups.length ∧ r.groups.length ≤ 4 ∧
    (∀ g ∈ r.groups, 1 ≤ g.toNat ∧ g.toNat ≤ 12) ∧ (r.groups.map (·.toNat)).sum ≤ 24 ∧ r.meaning.toNat ≤ 7 ∧
    (r.meaning = 1 → r.trainClass.toNat ≤ 7) ∧ (r.meaning ≠ 1 → r.trainClass = absent) ∧
    r.codeSets ≠ 0 ∧ (∀ k, r.codeSets.getLsbD k = true → 1 ≤ k ∧ k ≤ 3) ∧
    ∀ e, .code e ∈ rs → e.entry ≠ r.entry → e.groups = r.groups → e.codeSets &&& r.codeSets = 0 := by
  obtain ⟨p, ⟨z, hz⟩, hp⟩ := h.of_mem hr
  have good := passes_checks hp _ List.mem_cons_self
  simp only [not_or, not_exists, not_and, not_lt, ne_eq, not_not] at good
  obtain ⟨entry, length, beats, total, meaning, train, other, low, high⟩ := good
  obtain ⟨e1, e2⟩ := not_outside entry
  obtain ⟨l1, l2⟩ := not_outside length
  have sets : ∀ w : Byte, w &&& 0xF1 = 0 → ∀ k : Fin 8, w.getLsbD k = true → 1 ≤ k.val ∧ k.val ≤ 3 := by decide
  refine ⟨e1, e2, l1, l2, fun g hg => not_outside (beats g hg), total, meaning, train, other, fun hz => low (by rw [hz]; rfl),
    fun k hk => sets _ high ⟨k, BitVec.lt_of_getLsbD hk⟩ hk, fun e he hne hg => ?_⟩
  rw [hz] at he
  rcases List.mem_append.1 he with he | he
  · exact h.code_unambiguous hz he hg
  · rcases List.mem_cons.1 he with he | he
    · exact absurd (congrArg CodeRec.entry (Record.code.inj he)) hne
    · obtain ⟨z1, z2, rfl⟩ := List.append_of_mem he
      rw [BitVec.and_comm]
      exact h.code_unambiguous (p := p ++ .code r :: z1) (z := z2) (by rw [hz, List.append_assoc]; rfl)
        (List.mem_append_right _ List.mem_cons_self) hg.symm

end AllPass

/-- Settles O21. -/
theorem verification : Obligations.Verification := by
  refine ⟨fun rs hv => ?_, ?_, fun rs hall => ⟨fun h => ?_, fun p q z hz hq hp => ?_, fun hf h => ?_,
    fun p q z hz hf hq hp => ?_, fun hf ht => ?_⟩, ?_, fun all earlier => ?_⟩
  · obtain ⟨pass, hf, ht⟩ := verifyLoad_none hv
    exact ⟨pass.frame_sound hf, pass.timing_sound ht, pass.keys_nodup hf ht, pass.poolUse_le, fun r hr => pass.lever_sound hr,
      fun r hr => pass.track_sound hr, fun r hr => pass.sequence_sound hr, fun r hr => pass.approach_sound hr,
      fun r hr => pass.section_sound hr, fun r hr => pass.code_sound hr⟩
  · intro before r after why rs hb hr
    have found : firstPass rs [] 1 rs = some (before.length + 1, why) :=
      (firstPass_some before [] 1 hb hr).trans (by rw [Nat.add_comm])
    unfold verifyLoad; rw [found]
  · rw [verifyLoad_of_allPass hall]; exact secondPass_frame (countFails_empty h)
  · rw [verifyLoad_of_allPass hall, hz]; exact secondPass_frame (countFails_second hq hp)
  · rw [verifyLoad_of_allPass hall]; exact secondPass_timing hf (countFails_empty h)
  · rw [verifyLoad_of_allPass hall]; exact secondPass_timing hf (by rw [hz]; exact countFails_second hq hp)
  · rw [verifyLoad_of_allPass hall]; exact secondPass_passes hf ht
  · intro all earlier r why known fails
    have listed : ∀ w, fails w ↔ ∃ c ∈ r.checks all earlier, c.2 = w ∧ c.1 := fun w => by
      cases w <;> simp [LeverRec.checks, fails, known, LeverRec.Passes]
    refine (firstFailing_some (leverReason_checks all earlier r) (LeverRec.checks_sorted all earlier r)).trans
      (and_congr (listed why).symm ⟨fun h w hw hn => ?_, fun h c hc hw hn => h c.2 hw ((listed c.2).2 ⟨c, hc, rfl, hn⟩)⟩)
    obtain ⟨c, hc, rfl, hh⟩ := (listed w).1 hn
    exact h c hc hw hh
  · exact ⟨frameReason_checks, trackReason_checks earlier, sequenceReason_checks all earlier, approachReason_checks all earlier,
      sectionReason_checks all earlier, timingReason_checks, codeReason_checks earlier⟩

/-! ### O4: frames -/

/-- R181: what follows the start character of a frame: its length, its body and its check. -/
def frameBytes (body : List Byte) : List Byte := byte body.length :: (body ++ be16 (crc16 (byte body.length :: body)))

/-- An unmarked character as a frame holds it. -/
def heardByte (b : Byte) : LineEvent := .character { mark := false, stop := true, data := b, gap := 0 }

/-- A start character. -/
def heardStart (b : Byte) : LineEvent := .character { mark := true, stop := true, data := b, gap := 0 }

theorem encodeFrame_eq_some {address : BitVec 4} {i : Instr} {frame : List LineEvent} (h : encodeFrame address i = some frame) :
    ∃ kind fields broadcast, requestOf i = some (kind, fields, broadcast) ∧
      frame = heardStart (if broadcast = true then 15 else address.setWidth 8) :: (frameBytes (kind :: fields)).map heardByte := by
  obtain ⟨⟨kind, fields, broadcast⟩, hr, rfl⟩ := Option.map_eq_some_iff.1 h
  refine ⟨kind, fields, broadcast, hr, ?_⟩
  unfold frameChars; rw [List.map_cons, List.map_map]; rfl

/-- 10.5: the request of a command, and the command of that request. -/
theorem requestOf_spec {i : Instr} {kind : Byte} {fields : List Byte} {broadcast : Bool} (hr : requestOf i = some (kind, fields, broadcast))
    (hw : i.wellFormed = true) : fieldsOk fields = true ∧
    (broadcast = true → i = .linkReset fields true ∧ broadcastOf kind fields = .linkReset fields true) ∧
    (broadcast = false → (∀ f, i ≠ .linkReset f true) ∧
      ∀ key, (∀ f k, i = .commission f k → k = key) → commandOf kind fields key = i) := by
  cases i with
  | unknownRequestKind k f =>
    obtain ⟨hk, hf⟩ := Bool.and_eq_true_iff.1 hw
    cases hr
    refine ⟨hf, nofun, fun _ => ⟨nofun, fun key _ => ?_⟩⟩
    unfold commandOf; rw [Option.isNone_iff_eq_none.1 hk]
  | commission f c =>
    cases hr
    exact ⟨hw, nofun, fun _ => ⟨nofun, fun key hk => by rw [← hk _ c rfl]; rfl⟩⟩
  | linkReset f b =>
    cases hr
    cases broadcast with
    | true => exact ⟨hw, fun _ => ⟨rfl, rfl⟩, nofun⟩
    | false => exact ⟨hw, nofun, fun _ => ⟨nofun, fun _ _ => rfl⟩⟩
  | identify f | poll f | readLevers f | readTracks f | readSection f | readApproach f | readSequences f | readRaw f | readFaults f
  | takeFaults f | setMasks f | setReporting f | trackOutOfUse f | trackInUse f | loadBegin f | loadAbandon f | loadRecord f
  | loadStatus f | readTable f =>
    cases hr
    exact ⟨hw, nofun, fun _ => ⟨nofun, fun _ _ => rfl⟩⟩
  | _ => exact nomatch hr

section Receiver

variable {address : BitVec 4} {key : Bool}

theorem frameBytes_length (body : List Byte) : (frameBytes body).length = body.length + 3 := by
  unfold frameBytes; rw [List.length_cons, List.length_append]; rfl

theorem commandOfFrame_frameBytes {kind : Byte} {fields : List Byte} (h : fieldsOk fields = true) (broadcast : Bool) :
    commandOfFrame broadcast key (frameBytes (kind :: fields)) = if broadcast = true then broadcastOf kind fields else commandOf kind fields key := by
  have fits : (byte (kind :: fields).length).toNat = (kind :: fields).length := by
    have short := of_decide_eq_true h
    exact toNat_byte (by rw [List.length_cons]; omega)
  unfold commandOfFrame frameBytes; dsimp only
  rw [fits, List.take_left, List.drop_left, if_pos rfl]

/-- R181: a frame in progress takes a character: its last completes it. -/
theorem continueFrame_frameBytes {body bytes cut : List Byte} {b : Byte} (h : frameBytes body = bytes ++ b :: cut) (h1 : 1 ≤ body.length)
    (h250 : body.length ≤ 250) (broadcast : Bool) : continueFrame key broadcast bytes b =
      if cut = [] then ([commandOfFrame broadcast key (frameBytes body)], .waiting) else ([], .inFrame broadcast (bytes ++ [b])) := by
  have head : (bytes ++ [b]).headD 0 = byte body.length := by
    cases bytes with
    | nil => exact (List.cons.inj h).1.symm
    | cons x bytes => exact (List.cons.inj h).1.symm
  have len : (byte body.length).toNat = body.length := toNat_byte (by omega)
  have nonzero : byte body.length ≠ 0 := fun h0 => by rw [h0] at len; simp at len; omega
  have total := congrArg List.length h
  rw [frameBytes_length, List.length_append, List.length_cons] at total
  unfold continueFrame; dsimp only
  rw [head, len, if_neg (by rintro (h | h); exact nonzero h; omega), List.length_append, List.length_singleton]
  by_cases hc : cut = []
  · rw [if_pos hc, if_neg (by rw [hc, List.length_nil] at total; omega), h, hc]
  · rw [if_neg hc, if_pos (by have := List.length_pos_iff.2 hc; omega)]

theorem commandsFrom_heardByte (broadcast : Bool) (bytes : List Byte) (b : Byte) (rest : List LineEvent) :
    commandsFrom address key (.inFrame broadcast bytes) (heardByte b :: rest) =
      (continueFrame key broadcast bytes b).1 ++ commandsFrom address key (continueFrame key broadcast bytes b).2 rest := rfl

/-- R181: a frame not yet complete makes no command. -/
theorem commandsFrom_begun {body : List Byte} (h1 : 1 ≤ body.length) (h250 : body.length ≤ 250) (broadcast : Bool) (rest : List LineEvent)
    (more : List Byte) : ∀ bytes cut, frameBytes body = bytes ++ (more ++ cut) → cut ≠ [] →
    commandsFrom address key (.inFrame broadcast bytes) (more.map heardByte ++ rest) =
      commandsFrom address key (.inFrame broadcast (bytes ++ more)) rest := by
  induction more with
  | nil => intro bytes cut _ _; rw [List.append_nil]; rfl
  | cons b more ih =>
    intro bytes cut h hc
    have goes : continueFrame key broadcast bytes b = ([], .inFrame broadcast (bytes ++ [b])) :=
      (continueFrame_frameBytes h h1 h250 broadcast).trans (if_neg fun hn => hc (List.append_eq_nil_iff.1 hn).2)
    rw [List.map_cons, List.cons_append, commandsFrom_heardByte, goes]
    refine (ih (bytes ++ [b]) cut ?_ hc).trans ?_
    · rw [h, List.append_assoc]; rfl
    · rw [List.append_assoc]; rfl

/-- R181: a whole frame is its command. -/
theorem commandsFrom_frameBytes {kind : Byte} {fields : List Byte} (h : fieldsOk fields = true) (broadcast : Bool) (rest : List LineEvent) :
    commandsFrom address key (.inFrame broadcast []) ((frameBytes (kind :: fields)).map heardByte ++ rest) =
      (if broadcast = true then broadcastOf kind fields else commandOf kind fields key) :: commandsFrom address key .waiting rest := by
  have len : (kind :: fields).length ≤ 250 := of_decide_eq_true h
  have one : 1 ≤ (kind :: fields).length := Nat.succ_le_succ (Nat.zero_le _)
  have some' : frameBytes (kind :: fields) ≠ [] := List.cons_ne_nil _ _
  have whole := (List.dropLast_append_getLast some').symm
  generalize (frameBytes (kind :: fields)).dropLast = init at whole
  generalize (frameBytes (kind :: fields)).getLast some' = last at whole
  rw [whole, List.map_append, List.append_assoc,
    commandsFrom_begun one len broadcast _ init [] [last] whole (List.cons_ne_nil _ _)]
  have ends : continueFrame key broadcast init last = ([commandOfFrame broadcast key (frameBytes (kind :: fields))], .waiting) :=
    (continueFrame_frameBytes (cut := []) whole one len broadcast).trans (if_pos rfl)
  rw [List.nil_append]
  refine (commandsFrom_heardByte broadcast init last rest).trans ?_
  rw [ends, commandOfFrame_frameBytes h]; rfl

theorem commandsFrom_heardStart {r : Receiving} (hr : r ≠ .blanked) (b : Byte) (rest : List LineEvent) :
    commandsFrom address key r (heardStart b :: rest) = (beginFrame address b).1 ++ commandsFrom address key (beginFrame address b).2 rest := by
  have heard : hear address key r (heardStart b) = beginFrame address b := if_neg hr
  show (hear address key r (heardStart b)).1 ++ _ = _
  rw [heard]

theorem hear_waiting {c : LineChar} (h : c.mark = false) : hear address key .waiting (.character c) = ([], .waiting) := by
  show hearCharacter address key .waiting c = _
  unfold hearCharacter; dsimp only
  rw [h]
  simp [abandoned]

/-- R181: a gap or a framing error abandons a frame. -/
theorem hear_abandons {c : LineChar} (hm : c.mark = false) (hc : c.stop = false ∨ 20 < c.gap) (broadcast : Bool) (bytes : List Byte) :
    hear address key (.inFrame broadcast bytes) (.character c) =
      ([if 20 < c.gap then .interCharacterGap else .frameDiscarded .framingError], .waiting) := by
  show hearCharacter address key (.inFrame broadcast bytes) c = _
  unfold hearCharacter Config.characterGap; dsimp only
  rw [hm]
  by_cases hg : 20 < c.gap
  · simp [hg, abandoned]
  · simp [hg, hc.resolve_right hg, abandoned]

/-- R180: characters that are not marked, with no frame in progress. -/
theorem commandsFrom_unmarked {cs : List LineChar} (h : ∀ c ∈ cs, c.mark = false) (rest : List LineEvent) :
    commandsFrom address key .waiting (cs.map .character ++ rest) = commandsFrom address key .waiting rest := by
  induction cs with
  | nil => rfl
  | cons c cs ih =>
    have heard := hear_waiting (address := address) (key := key) (h c List.mem_cons_self)
    show (hear address key .waiting (.character c)).1 ++ _ = _
    rw [heard]
    exact ih fun d hd => h d (List.mem_cons_of_mem _ hd)

/-- R182: while the part transmits, no character is received. -/
theorem commandsFrom_blanked (cs : List LineChar) (rest : List LineEvent) :
    commandsFrom address key .blanked (cs.map .character ++ rest) = commandsFrom address key .blanked rest := by
  induction cs with
  | nil => rfl
  | cons c cs ih => exact ih

theorem beginFrame_own (start : Byte) (h : start = address.setWidth 8) (h15 : start ≠ 15) :
    beginFrame address start = ([], .inFrame false []) := (if_neg h15).trans (if_pos h)

end Receiver

theorem start_ne_15 {address : BitVec 4} (h : address ≠ 15) : (address.setWidth 8 : Byte) ≠ 15 := by
  revert address; decide

theorem start_ne {address other : BitVec 4} (h : other ≠ address) : (address.setWidth 8 : Byte) ≠ other.setWidth 8 := by
  revert other address; decide

/-- The characters of a list of events. -/
theorem characters_of_frame {start : Byte} {bytes : List Byte} {begun cut : List LineEvent}
    (h : heardStart start :: bytes.map heardByte = begun ++ cut) : ∃ cs : List LineChar, cut = cs.map .character := by
  have all : ∃ cs : List LineChar, heardStart start :: bytes.map heardByte = cs.map .character :=
    ⟨⟨true, true, start, 0⟩ :: bytes.map fun b => ⟨false, true, b, 0⟩, by rw [List.map_cons, List.map_map]; rfl⟩
  obtain ⟨cs, hcs⟩ := all
  obtain ⟨as, bs, rfl, -, hb⟩ := List.map_eq_append_iff.1 (hcs.symm.trans h)
  exact ⟨bs, hb.symm⟩

/-- R180: the part that a frame is sent to has it in progress after its start. -/
theorem beginFrame_sent (address : BitVec 4) (broadcast : Bool) :
    ∃ b, beginFrame address (if broadcast = true then 15 else address.setWidth 8) = ([], .inFrame b []) := by
  cases broadcast with
  | true => exact ⟨true, rfl⟩
  | false =>
    rw [if_neg Bool.false_ne_true]
    by_cases h : (address.setWidth 8 : Byte) = 15
    · exact ⟨true, if_pos h⟩
    · exact ⟨false, beginFrame_own _ rfl h⟩

/-- R181, R182: a frame cut short makes no command at the part it is sent to. -/
theorem begun_silent {address : BitVec 4} {key broadcast : Bool} {body : List Byte} {begun cut : List LineEvent}
    (h1 : 1 ≤ body.length) (h250 : body.length ≤ 250) (hc : cut ≠ [])
    (h : heardStart (if broadcast = true then 15 else address.setWidth 8) :: (frameBytes body).map heardByte = begun ++ cut)
    (r : Receiving) : ∃ r', ∀ rest, commandsFrom address key r (begun ++ rest) = commandsFrom address key r' rest := by
  by_cases hr : r = .blanked
  · have reversed : ∃ cs : List LineChar, begun = cs.map .character := by
      obtain ⟨cs, hcs⟩ := characters_of_frame (begun := []) (cut := begun ++ cut) h
      obtain ⟨as, bs, -, ha, -⟩ := List.map_eq_append_iff.1 hcs.symm
      exact ⟨as, ha.symm⟩
    obtain ⟨cs, rfl⟩ := reversed
    exact ⟨.blanked, fun rest => by rw [hr]; exact commandsFrom_blanked cs rest⟩
  · cases begun with
    | nil => exact ⟨r, fun _ => rfl⟩
    | cons e more =>
      obtain ⟨rfl, tail⟩ := List.cons.inj h
      obtain ⟨as, bs, hab, rfl, rfl⟩ := List.map_eq_append_iff.1 tail
      obtain ⟨b, begins⟩ := beginFrame_sent address broadcast
      refine ⟨.inFrame b as, fun rest => ?_⟩
      rw [List.cons_append, commandsFrom_heardStart hr, begins]
      exact commandsFrom_begun h1 h250 b rest as [] bs hab fun hn => hc (congrArg (List.map heardByte) hn)

/-- R182: of the frames for another part a broadcast link reset alone is taken. -/
theorem discarded_unless_broadcast : ∀ i : Instr, (∀ f, i ≠ .linkReset f true) →
    (match i with
      | .linkReset f true => .linkReset f true
      | _ => .frameDiscarded .notForThisPart) = Instr.frameDiscarded .notForThisPart := by
  intro i h
  split
  · exact absurd rfl (h _)
  · rfl

/-- Settles O4. -/
theorem framesRoundTrip : Obligations.FramesRoundTrip := by
  refine ⟨fun address key i r frame rest ha hw hk hr hf => ?_, fun address other key i r frame rest ha ho hw hr hf => ?_,
    fun address key cs rest hcs => ?_, fun address key r cs rest => ?_⟩
  · obtain ⟨kind, fields, broadcast, hreq, rfl⟩ := encodeFrame_eq_some hf
    obtain ⟨fits, broad, own⟩ := requestOf_spec hreq hw
    rw [List.cons_append, commandsFrom_heardStart hr]
    cases broadcast with
    | true =>
      have begun : beginFrame address 15 = ([], .inFrame true []) := rfl
      rw [if_pos rfl, begun]
      refine (commandsFrom_frameBytes fits true rest).trans ?_
      rw [if_pos rfl, (broad rfl).2, (broad rfl).1]
    | false =>
      rw [if_neg Bool.false_ne_true, beginFrame_own _ rfl (start_ne_15 ha)]
      refine (commandsFrom_frameBytes fits false rest).trans ?_
      rw [if_neg Bool.false_ne_true, (own rfl).2 key hk]
  · obtain ⟨kind, fields, broadcast, hreq, rfl⟩ := encodeFrame_eq_some hf
    obtain ⟨fits, broad, own⟩ := requestOf_spec hreq hw
    rw [List.cons_append, commandsFrom_heardStart hr]
    cases broadcast with
    | true =>
      have begun : beginFrame other 15 = ([], .inFrame true []) := rfl
      rw [if_pos rfl, begun]
      refine (commandsFrom_frameBytes fits true rest).trans ?_
      rw [if_pos rfl, (broad rfl).2, (broad rfl).1]
    | false =>
      have begun : beginFrame other (address.setWidth 8) = ([.frameDiscarded .notForThisPart], .waiting) :=
        (if_neg (start_ne_15 ha)).trans (if_neg (start_ne ho))
      have ignored := commandsFrom_unmarked (address := other) (key := key)
        (cs := (frameBytes (kind :: fields)).map fun b => ⟨false, true, b, 0⟩) (fun c hc => by
          obtain ⟨b, -, rfl⟩ := List.mem_map.1 hc; rfl) rest
      rw [List.map_map] at ignored
      rw [if_neg Bool.false_ne_true, begun]
      refine Eq.trans ?_ (congrArg (· :: _) (discarded_unless_broadcast i (own rfl).1).symm)
      exact congrArg (Instr.frameDiscarded .notForThisPart :: ·) ignored
  · refine ⟨commandsFrom_unmarked hcs rest, fun broadcast bytes c hc hm => ?_⟩
    show (hear address key (.inFrame broadcast bytes) (.character c)).1 ++ _ = _
    rw [hear_abandons hm hc]
    exact congrArg (_ :: ·) (commandsFrom_unmarked hcs rest)
  · have transmitted : ∀ (r : Receiving) (lost : List LineChar),
        commandsFrom address key r (.replyBegins :: (lost.map .character ++ .replyEnds :: rest)) =
          .replyTransmission :: commandsFrom address key .waiting rest := fun r lost =>
      congrArg (Instr.replyTransmission :: ·) (commandsFrom_blanked lost (.replyEnds :: rest))
    refine ⟨transmitted r cs, fun i begun cut hw hf hc => ?_⟩
    obtain ⟨kind, fields, broadcast, hreq, hframe⟩ := encodeFrame_eq_some hf
    obtain ⟨fits, -, -⟩ := requestOf_spec hreq hw
    obtain ⟨late, rfl⟩ := characters_of_frame hframe.symm
    have reply : ∀ r : Receiving, commandsFrom address key r (.replyBegins :: (late.map .character ++ cs.map .character ++ .replyEnds :: rest)) =
        .replyTransmission :: commandsFrom address key .waiting rest := fun r => by
      rw [← List.map_append]; exact transmitted r (late ++ cs)
    obtain ⟨r', silent⟩ := begun_silent (key := key) (body := kind :: fields) (Nat.succ_le_succ (Nat.zero_le _)) (of_decide_eq_true fits) hc hframe.symm r
    exact (silent _).trans (reply r')

/-! ### O24, O26: the starts -/

/-- R120, R121: a section's bells at a start. -/
theorem BellState.started_eq (now : Time) (assembled : Bool) (b : BellState) : b.started now assembled =
    bellFrom now b.plunger b.sense b.driveSince b.sounderUntil
      (b.outbound.piece.any fun p => p.release.isNone && p.counted) assembled := by
  have side : ∀ pressed counted, Assembler.started now pressed counted assembled =
      { piece := if pressed = true then some { start := now, release := none, counted := counted } else none
        press := if (pressed && assembled) = true then some (pressFrom now) else none
        code := none } := fun pressed counted => by cases pressed <;> cases assembled <;> rfl
  have sensed : b.sensed = (b.sense && b.driveSince.isNone) := by
    unfold BellState.sensed BellState.driving; rw [Option.not_isSome]
  unfold BellState.started bellFrom; rw [side, side, sensed]; rfl

namespace State

variable (s : State)

/-- R40, R66, R73: the frame unit and the monitor afresh. -/
def leversStarted : State :=
  let u := forEach allLevers startLever
    { s with tracks := Vector.replicate 24 {}, seqs := Vector.replicate 16 {}, locks := Vector.replicate 16 {} }
  { u with frame := { u.frame with lowRun := 0, lockSupply := false } }

theorem leversStarted_eq : ∃ lv, s.leversStarted =
    { s with frame := { levers := lv, supplyOn := s.frame.supplyOn, lowRun := 0, lockSupply := false }
             tracks := Vector.replicate 24 {}, seqs := Vector.replicate 16 {}, locks := Vector.replicate 16 {} } := by
  obtain ⟨lv, h⟩ := State.startLevers_eq
    { s with tracks := Vector.replicate 24 {}, seqs := Vector.replicate 16 {}, locks := Vector.replicate 16 {} }
  unfold leversStarted; dsimp only; rw [h]; exact ⟨lv, rfl⟩

/-- A start of the records, unit by unit. -/
theorem startRecords_steps : ∃ u v w, (∃ lv, u =
    { s with frame := { levers := lv, supplyOn := s.frame.supplyOn, lowRun := 0, lockSupply := false }
             tracks := Vector.replicate 24 {}, seqs := Vector.replicate 16 {}, locks := Vector.replicate 16 {} }) ∧
    forEach allLocks startLock u = v ∧ forEach allSections startBell v = w ∧ forEach allSections startSectn w = s.startRecords :=
  ⟨s.leversStarted, _, _, s.leversStarted_eq, rfl, rfl, rfl⟩

/-- R40, R66, R73, R88, R120, R126: what a start of the records writes. -/
theorem startRecords_whole : ∃ lv lo b se, s.startRecords =
    { s with frame := { levers := lv, supplyOn := s.frame.supplyOn, lowRun := 0, lockSupply := false }
             tracks := Vector.replicate 24 {}, seqs := Vector.replicate 16 {}, locks := lo, bells := b, sections := se } := by
  obtain ⟨u, v, w, ⟨lv, hu⟩, hv, hw, ht⟩ := s.startRecords_steps
  obtain ⟨lo, h2⟩ := u.startLocks_eq
  obtain ⟨b, h3⟩ := v.startBells_eq
  obtain ⟨se, h4⟩ := w.startSectns_eq
  exact ⟨lv, lo, b, se, by rw [← ht, h4, ← hw, h3, ← hv, h2, hu]⟩

/-- R88: a lock's record at a start. -/
theorem startLocks_lockn {a : Nat} {rec : ApproachRec} (ha : lockOk a = true) (hr : s.approachRec a = some rec) :
    (forEach allLocks startLock s).lockn a = lockStart s.now (s.lever rec.signal.toNat).position := by
  have := forEach_get (get := State.lockn) (env := fun s => (s.now, s.approachRec, s.lever))
    (g := fun a e l => match e.2.1 a with
      | none => l
      | some rec => lockStart e.1 (e.2.2 rec.signal.toNat).position) (f := startLock) allLocks (by decide) (fun a ha s m => by
      have hb : 1 ≤ a ∧ a ≤ 16 := by simpa [lockOk] using mem_allLocks.1 ha
      unfold State.startLock
      cases h : s.approachRec a with
      | none => dsimp only; rw [h]; split <;> simp_all
      | some rec =>
        dsimp only; rw [State.lockn_updLock, h]; simp [hb]) (fun a _ s => by
      obtain ⟨_, h⟩ := s.startLock_eq a; rw [h]; rfl) s a
  rw [if_pos (mem_allLocks.2 ha)] at this
  dsimp only at this
  rw [this, hr]

theorem startRecords_bell (x : SectionId) : s.startRecords.bell x = (s.bell x).started s.now (s.assembles x) := by
  obtain ⟨u, v, w, ⟨lv, hu⟩, hv, hw, ht⟩ := s.startRecords_steps
  obtain ⟨lo, h2⟩ := u.startLocks_eq
  obtain ⟨se, h4⟩ := w.startSectns_eq
  have bells := startBells_bell v x
  rw [hw] at bells
  rw [← ht, h4]
  refine bells.trans ?_
  rw [← hv, h2, hu]; rfl

theorem startRecords_sectn (x : SectionId) : s.startRecords.sectn x = (s.sectn x).started := by
  obtain ⟨u, v, w, ⟨lv, hu⟩, hv, hw, ht⟩ := s.startRecords_steps
  obtain ⟨lo, h2⟩ := u.startLocks_eq
  obtain ⟨b, h3⟩ := v.startBells_eq
  rw [← ht]
  refine (startSectns_sectn w x).trans ?_
  rw [← hw, h3, ← hv, h2, hu]; rfl

theorem startRecords_lockn {a : Nat} {rec : ApproachRec} (ha : lockOk a = true) (hr : s.approachRec a = some rec) :
    s.startRecords.lockn a = lockStart s.now (s.startRecords.lever rec.signal.toNat).position := by
  obtain ⟨u, v, w, ⟨lv, hu⟩, hv, hw, ht⟩ := s.startRecords_steps
  obtain ⟨b, h3⟩ := v.startBells_eq
  obtain ⟨se, h4⟩ := w.startSectns_eq
  have fields : u.now = s.now ∧ u.approachRec a = s.approachRec a := by rw [hu]; exact ⟨rfl, rfl⟩
  have lock : s.startRecords.lockn a = v.lockn a := by rw [← ht, h4, ← hw, h3]; rfl
  have lever : s.startRecords.lever rec.signal.toNat = u.lever rec.signal.toNat := by
    rw [← ht, startSectns_lever, ← hw, startBells_lever, ← hv, startLocks_lever]
  rw [lock, lever, ← hv, startLocks_lockn u ha (fields.2.trans hr), fields.1]

end State

/-- Of a run over distinct objects one step makes true what the others keep. -/
theorem forEach_once {α : Type} {I R : State → Prop} {f : α → State → State} (xs : List α) (hn : xs.Nodup) {y : α} (hy : y ∈ xs)
    (inv : ∀ x s, I s → I (f x s)) (own : ∀ s, I s → R (f y s)) (others : ∀ x s, x ≠ y → I s → R s → R (f x s)) :
    ∀ s, I s → R (forEach xs f s) := by
  have kept : ∀ ys : List α, y ∉ ys → ∀ s, I s → R s → R (forEach ys f s) := by
    intro ys
    induction ys with
    | nil => exact fun _ _ _ h => h
    | cons x ys ih =>
      intro hy s hi hr
      exact ih (fun h => hy (List.mem_cons_of_mem _ h)) _ (inv x s hi) (others x s (fun h => hy (h ▸ List.mem_cons_self)) hi hr)
  induction xs with
  | nil => cases hy
  | cons x xs ih =>
    obtain ⟨hx, hn⟩ := List.nodup_cons.1 hn
    intro s hi
    rcases List.mem_cons.1 hy with rfl | hy
    · exact kept xs hx _ (inv y s hi) (own s hi)
    · exact ih hn hy _ (inv x s hi)

/-! The register and the masks at a start. -/

/-- The masks, the register and the frame supply as given. -/
def State.Registered (f : Supervisor) (b : Bool) (s : State) : Prop :=
  s.faults.masked = f.masked ∧ s.faults.frameCut = f.frameCut ∧ s.faults.frozenSet = f.frozenSet ∧ s.faults.failedSet = f.failedSet ∧
  s.frame.supplyOn = b

theorem steady_registered (f : Supervisor) (b : Bool) : Steady (State.Registered f b) where
  congr s t hf hs h := by unfold State.Registered at *; rw [hf, hs]; exact h
  endFault c o s h := by
    unfold State.endFault; split
    · exact h
    · split
      · unfold State.Registered at *; rw [State.report_faults, State.report_frame]; exact h
      · exact h

theorem Supervisor.entered_masked (c : FaultClass) (o : Nat) (now : Time) (u m : Bool) (f : Supervisor) :
    (f.entered c o now u m).masked = f.masked ∧ (f.entered c o now u m).shortAlarm = f.shortAlarm := by
  unfold Supervisor.entered; split
  · exact ⟨rfl, rfl⟩
  · split
    · exact ⟨rfl, rfl⟩
    · split <;> exact ⟨rfl, rfl⟩

/-- R162: only a masked HELD_RING starts the short alarm. -/
theorem State.enterRaise_shortAlarm {c : FaultClass} (hc : c ≠ .heldRing) (o : Nat) (m : Bool) (s : State) :
    (s.enterRaise c o m).faults.shortAlarm = s.faults.shortAlarm := by
  rw [State.enterRaise_faults]
  exact (if_neg fun h => hc h.1).trans (Supervisor.entered_masked _ _ _ _ _ _).2

/-- R157, R158: while every entry is ACTIVE, a raise that stands leaves none that is not. -/
theorem Supervisor.entered_active {c : FaultClass} {o : Nat} {now : Time} {u : Bool} {f : Supervisor} (h : ∀ e ∈ f.entries, e.active = true) :
    ∀ e ∈ (f.entered c o now u false).entries, e.active = true := by
  have grown : ∀ {es : List FaultEntry}, (∀ e ∈ es, e.active = true) → ∀ e ∈ es ++ [newEntry c o now u false], e.active = true :=
    fun hes e he => (List.mem_append.1 he).elim (hes e) fun he => by rw [List.mem_singleton.1 he]; rfl
  unfold Supervisor.entered; split
  · intro e he
    obtain ⟨x, hx, rfl⟩ := List.mem_map.1 he
    split
    · rfl
    · exact h x hx
  · split
    · exact grown h
    · split
      · exact grown fun e he => h e (List.mem_of_mem_eraseP he)
      · exact h

namespace State

theorem enterRaise_registered {f : Supervisor} {b : Bool} (c : FaultClass) (o : Nat) (m : Bool) {s : State} (h : s.Registered f b) :
    (s.enterRaise c o m).Registered f b := by
  obtain ⟨_, _, only⟩ := State.enterRaise_only c o m s
  obtain ⟨cut, frozen, failed⟩ := s.faults.entered_register c o s.now (s.faults.unmaskedFor c o) m
  obtain ⟨h1, h2, h3, h4, h5⟩ := h
  unfold Registered; rw [State.enterRaise_faults]
  exact ⟨(Supervisor.entered_masked _ _ _ _ _ _).1.trans h1, cut.trans h2, frozen.trans h3, failed.trans h4, by rw [only]; exact h5⟩

/-- R39, R40: what a start makes of a lever found with both contacts made. -/
theorem contactAtStart_inv {P : State → Prop} (lever : ∀ n g u, P u → P (u.updLever n g))
    (raise : ∀ n u, P u → P (u.enterRaise .leverContact n false)) (b : Bool) (n : Nat) {s : State} (hs : P s) :
    P (s.contactAtStart b n) := by
  unfold State.contactAtStart; dsimp only
  have raised : ∀ u, P u → P (u.raise .leverContact n) := fun u hu => by
    rw [show u.raise .leverContact n = u.enterRaise .leverContact n false from raiseWith_of_noOrder rfl _ _ _]; exact raise n u hu
  exact ite_keeps (ite_keeps (lever _ _ _ hs) (raised _ (lever _ _ _ hs))) hs

/-- A lever as a start finds it. -/
def contactFound (fitted : Bool) (l : LeverState) : LeverState :=
  if (fitted && l.position == .contactFault) = true then { l with contactActive := true } else l

theorem contactAtStart_lever (b : Bool) {n : Nat} (hn : leverOk n = true) (m : Nat) (s : State) :
    (s.contactAtStart b n).lever m = if m = n then contactFound (s.leverFitted n) (s.lever n) else s.lever m := by
  have hb : 1 ≤ n ∧ n ≤ 48 := by simpa [leverOk] using hn
  have raised : ∀ u : State, (u.raise .leverContact n).lever m = u.lever m := fun u => by
    rw [show u.raise .leverContact n = u.enterRaise .leverContact n false from raiseWith_of_noOrder rfl _ _ _]
    exact lever_of_onlyFaults (State.enterRaise_only _ _ _ _) m
  have levers : (s.updLever n fun l => { l with contactActive := true }).lever m =
      if m = n then { s.lever n with contactActive := true } else s.lever m := by
    rw [State.lever_updLever]; simp [hb]
  unfold State.contactAtStart contactFound; dsimp only
  by_cases hc : (s.leverFitted n && (s.lever n).position == .contactFault) = true
  · rw [if_pos hc, if_pos hc]
    cases b with
    | true => exact levers
    | false => exact (raised _).trans levers
  · rw [if_neg hc, if_neg hc]
    split
    · rename_i h; rw [h]
    · rfl

theorem contactAtStart_fitted (b : Bool) (n : Nat) (s : State) : (s.contactAtStart b n).leverFitted = s.leverFitted := by
  have same : ∀ u : State, u.store = s.store → u.leverFitted = s.leverFitted := fun u h => by
    funext k; exact leverFitted_congr (by rw [h]) k
  refine same _ (contactAtStart_inv (P := fun u => u.store = s.store) (fun _ _ _ h => h) (fun k u h => ?_) b n rfl)
  obtain ⟨_, _, only⟩ := State.enterRaise_only .leverContact k false u
  rw [only]; exact h

/-- R29, R39: outside RUNNING a lock that is held is left so. -/
theorem refreshLever_of_held (cause : LockCause) {n : Nat} {s : State} (hr : s.isRunning = false) (held : (s.lever n).command = .held) :
    s.refreshLever cause n = if s.leverFitted n = true then s.updLever n (LeverState.judged (s.verdictOf n)) else s := by
  have stays : ∀ u : State, u.isRunning = false → (u.lever n).command = .held →
      (if u.hasLock n = true then u.setCommand cause n (if u.wantsFree n = true then .free else .held) else u) = u := fun u hu hl => by
    have wants : u.wantsFree n = false := by unfold State.wantsFree; rw [hu]; rfl
    rw [wants, if_neg Bool.false_ne_true]
    unfold State.setCommand
    rw [if_pos hl, ite_self]
  have command : ((s.updLever n (LeverState.judged (s.verdictOf n))).lever n).command = .held := by
    rw [State.lever_updLever]; split <;> exact held
  unfold State.refreshLever
  split
  · exact stays _ hr command
  · rfl

/-- R29, R39: while every lock is to be held and is, an evaluation writes verdicts alone. -/
theorem evaluate_of_held (cause : LockCause) {s : State} (hr : s.isRunning = false)
    (held : ∀ n, leverOk n = true → (s.lever n).command = .held) :
    OnlyLevers s (s.evaluate cause) ∧ ∀ n, leverOk n = true → ((s.evaluate cause).lever n).command = .held := by
  refine forEach_inv_mem (P := fun u => OnlyLevers s u ∧ ∀ n, leverOk n = true → (u.lever n).command = .held) allLevers
    (fun n hn u hu => ?_) s ⟨OnlyLevers.refl s, held⟩
  obtain ⟨only, hl⟩ := hu
  have running : u.isRunning = false := by obtain ⟨_, rfl⟩ := only; exact hr
  rw [refreshLever_of_held cause running (hl n (mem_allLevers.1 hn))]
  refine ite_keeps (P := fun u => OnlyLevers s u ∧ ∀ n, leverOk n = true → (u.lever n).command = .held) ⟨only.trans ⟨_, rfl⟩, fun m hm => ?_⟩
    ⟨only, hl⟩
  rw [State.lever_updLever]; split
  · exact hl n (mem_allLevers.1 hn)
  · exact hl m hm

end State

/-! What a power-on reads (R39, R46, R140, R168). -/

/-- What no step of a run writes. -/
theorem forEach_field {α γ : Type} {g : State → γ} {f : α → State → State} (h : ∀ x s, g (f x s) = g s) (xs : List α) (s : State) :
    g (forEach xs f s) = g s :=
  forEach_inv (P := fun v => g v = g s) (fun x v hv => (h x v).trans hv) xs s rfl

namespace State

variable (p : PowerInputs) (s : State)

/-- A power-on, input by input. -/
theorem poweredWith_steps : ∃ b u v w : State, b =
    { pending := s.pending, store := { copy := s.store.copy }, resetKey := p.resetKey, commissioningKey := p.commissioningKey,
      link := { address := p.addressStraps, rate := p.rateStraps } } ∧
    forEach allLevers (leverInputs p) b = u ∧ forEach (List.range' 1 8) (plungerInputs p) u = v ∧
    forEach allSections (State.bellInputs p) v = w ∧ forEach allSections (handleInputs p) w = s.poweredWith p :=
  ⟨_, _, _, _, rfl, rfl, rfl, rfl, rfl⟩

theorem poweredWith_lever {n : Nat} (hn : leverOk n = true) : (s.poweredWith p).lever n =
    { normalMade := p.normal.getLsbD (n - 1), reverseMade := p.reverse.getLsbD (n - 1), readback := p.readback.getLsbD (n - 1) } := by
  obtain ⟨b, u, v, w, hb, hu, hv, hw, ht⟩ := s.poweredWith_steps p
  have frame : (s.poweredWith p).frame = u.frame := by
    rw [← ht, forEach_field (g := State.frame) (f := handleInputs p) fun _ _ => rfl, ← hw,
      forEach_field (g := State.frame) (f := State.bellInputs p) fun _ _ => rfl, ← hv,
      forEach_field (g := State.frame) (f := plungerInputs p) fun _ _ => rfl]
  have lever : (s.poweredWith p).lever n = u.lever n := by unfold State.lever; rw [frame]
  have read := forEach_get (get := State.lever) (env := fun _ => ()) (g := fun n _ l =>
      { l with normalMade := p.normal.getLsbD (n - 1), reverseMade := p.reverse.getLsbD (n - 1),
               readback := p.readback.getLsbD (n - 1) }) (f := leverInputs p) allLevers (by decide) (fun n hn s m => by
      have hb : 1 ≤ n ∧ n ≤ 48 := by simpa [leverOk] using mem_allLevers.1 hn
      unfold State.leverInputs; rw [State.lever_updLever]; simp [hb]) (fun _ _ _ => rfl) b n
  rw [if_pos (mem_allLevers.2 hn), hu] at read
  have rest : b.lever n = {} := by rw [hb]; exact Bank.at_replicate rfl n
  rw [lever, read, rest]

theorem poweredWith_plunger {k : Nat} (h1 : 1 ≤ k) (h8 : k ≤ 8) : Bank.at (s.poweredWith p).plungers k = p.plungers.getLsbD (k - 1) := by
  obtain ⟨b, u, v, w, hb, hu, hv, hw, ht⟩ := s.poweredWith_steps p
  have bells : w.plungers = v.plungers := by
    rw [← hw]; exact forEach_field (g := State.plungers) (f := State.bellInputs p) (fun _ _ => rfl) _ _
  have handles : (s.poweredWith p).plungers = w.plungers := by
    rw [← ht]; exact forEach_field (g := State.plungers) (f := handleInputs p) (fun _ _ => rfl) _ _
  have read := forEach_get (get := fun s : State => Bank.at s.plungers) (env := fun _ => ()) (g := fun k _ _ => p.plungers.getLsbD (k - 1))
    (f := plungerInputs p) (List.range' 1 8) (by decide) (fun k hk s m => by
      have hb := List.mem_range'_1.1 hk
      have hb : 1 ≤ k ∧ k ≤ 8 := by omega
      unfold State.plungerInputs; dsimp only
      rw [Bank.at_put]; simp [hb]) (fun _ _ _ => rfl) u k
  rw [if_pos (List.mem_range'_1.2 (by omega)), hv] at read
  rw [handles, bells, read]

theorem poweredWith_bell (x : SectionId) : (s.poweredWith p).bell x =
    { plunger := p.bellPlunger.getLsbD (secCode x).toNat, sense := p.bellSense.getLsbD (secCode x).toNat } := by
  obtain ⟨b, u, v, w, hb, hu, hv, hw, ht⟩ := s.poweredWith_steps p
  have levers : u.bells = b.bells := by
    rw [← hu]; exact forEach_field (g := State.bells) (f := leverInputs p) (fun _ _ => rfl) _ _
  have plungers : v.bells = u.bells := by
    rw [← hv]; exact forEach_field (g := State.bells) (f := plungerInputs p) (fun _ _ => rfl) _ _
  have handles : (s.poweredWith p).bells = w.bells := by
    rw [← ht]; exact forEach_field (g := State.bells) (f := handleInputs p) (fun _ _ => rfl) _ _
  have read := forEach_get (get := State.bell) (env := fun _ => ()) (g := fun x _ b =>
      { b with plunger := p.bellPlunger.getLsbD (secCode x).toNat, sense := p.bellSense.getLsbD (secCode x).toNat })
    (f := State.bellInputs p) allSections (by decide) (fun x _ s y => bell_updBell x y _ s) (fun _ _ _ => rfl) v x
  rw [if_pos (mem_allSections x), hw] at read
  have rest : v.bell x = {} := by
    have : v.bells = Vector.replicate 4 {} := by rw [plungers, levers, hb]
    unfold State.bell; rw [this]; exact Bank.at_replicate rfl _
  have same : (s.poweredWith p).bell x = w.bell x := by unfold State.bell; rw [handles]
  rw [same, read, rest]

/-- R140: the handle of a section as first read. -/
theorem poweredWith_sectn (x : SectionId) :
    let b := p.handleBlocked.getLsbD (secCode x).toNat
    let c := p.handleClear.getLsbD (secCode x).toNat
    let t := p.handleTrain.getLsbD (secCode x).toNat
    (s.poweredWith p).sectn x =
      { blockedMade := b, clearMade := c, trainMade := t, handle := handleOf b c t,
        movingSince := if handleOf b c t = .moving then some 0 else none } := by
  intro bm c t
  obtain ⟨b, u, v, w, hb, hu, hv, hw, ht⟩ := s.poweredWith_steps p
  have levers : u.sections = b.sections := by
    rw [← hu]; exact forEach_field (g := State.sections) (f := leverInputs p) (fun _ _ => rfl) _ _
  have plungers : v.sections = u.sections := by
    rw [← hv]; exact forEach_field (g := State.sections) (f := plungerInputs p) (fun _ _ => rfl) _ _
  have bells : w.sections = v.sections := by
    rw [← hw]; exact forEach_field (g := State.sections) (f := State.bellInputs p) (fun _ _ => rfl) _ _
  have read := forEach_get (get := State.sectn) (env := fun _ => ()) (g := fun x _ r =>
      let b := p.handleBlocked.getLsbD (secCode x).toNat
      let c := p.handleClear.getLsbD (secCode x).toNat
      let t := p.handleTrain.getLsbD (secCode x).toNat
      { r with blockedMade := b, clearMade := c, trainMade := t, handle := handleOf b c t,
               movingSince := if handleOf b c t = .moving then some 0 else none })
    (f := handleInputs p) allSections (by decide) (fun x _ s y => sectn_updSect x y _ s) (fun _ _ _ => rfl) w x
  rw [if_pos (mem_allSections x), ht] at read
  have rest : w.sectn x = {} := by
    have : w.sections = Vector.replicate 4 {} := by rw [bells, plungers, levers, hb]
    unfold State.sectn; rw [this]; exact Bank.at_replicate rfl _
  rw [read, rest]

end State

/-! The numbering of the reports (R186, R187). -/

/-- At most `k` reports so far, each with its number and all at time 0, and nothing else at the link. -/
def State.Numbered (link : LinkUnit) (k : Nat) (s : State) : Prop :=
  s.now = 0 ∧ ∃ q n, s.link = { link with queue := q, nextSeq := n } ∧ n.toNat = q.length ∧ q.length ≤ k ∧
    ∀ (i : Nat) (r : Report), q[i]? = some r → r.seq.toNat = i ∧ r.time = 0

namespace State.Numbered

variable {link : LinkUnit} {k : Nat} {s t : State}

theorem congr (h : s.Numbered link k) (hn : t.now = s.now) (hl : t.link = s.link) : t.Numbered link k := by
  unfold State.Numbered at *; rw [hn, hl]; exact h

theorem mono (h : s.Numbered link k) {j : Nat} (hj : k ≤ j) : s.Numbered link j := by
  obtain ⟨hn, q, n, hl, hq, hk, hr⟩ := h
  exact ⟨hn, q, n, hl, hq, Nat.le_trans hk hj, hr⟩

theorem report (h : s.Numbered link k) (hk : k < 64) (c : Category) (o e : Nat) (d : List Byte) :
    (s.report c o e d).Numbered link (k + 1) := by
  cases hf : s.link.filters.getLsbD c.number with
  | false => rw [State.report_disabled o e d hf]; exact h.mono (Nat.le_succ k)
  | true =>
    obtain ⟨hn, q, n, hl, hq, hqk, hr⟩ := h
    have queue : s.link.queue = q := by rw [hl]
    have seq : s.link.nextSeq = n := by rw [hl]
    rw [State.report_queued o e d hf (by rw [queue]; omega)]
    refine ⟨hn, q ++ [{ seq := n, time := s.now, category := c, object := o, event := e, detail := d }], n + 1, ?_, ?_, ?_, fun i r hi => ?_⟩
    · rw [queue, seq, hl]
    · rw [List.length_append, List.length_singleton, BitVec.toNat_add, hq]
      have one : (1 : Word16).toNat = 1 := rfl
      rw [one, Nat.mod_eq_of_lt (by omega)]
    · rw [List.length_append, List.length_singleton]; omega
    · rcases Nat.lt_trichotomy i q.length with h | h | h
      · rw [List.getElem?_append_left h] at hi; exact hr i r hi
      · rw [h, List.getElem?_concat_length] at hi
        obtain rfl := Option.some.inj hi
        exact ⟨hq.trans h.symm, hn⟩
      · rw [List.getElem?_eq_none (by rw [List.length_append, List.length_singleton]; omega)] at hi; cases hi

/-- R157, R160: a raise makes one report, where no entry has to give way. -/
theorem enterRaise (h : s.Numbered link k) (hk : k < 64) (c : FaultClass) (o : Nat) (m : Bool)
    (room : s.faults.entries.find? (fun x => !x.active) = none) : (s.enterRaise c o m).Numbered link (k + 1) := by
  have told : ∀ (u : State) (a b : Nat) (d : List Byte), u.now = s.now → u.link = s.link → (u.report .fault a b d).Numbered link (k + 1) :=
    fun u a b d hn hl => (h.congr hn hl).report hk _ _ _ _
  have sounded : ∀ (u : State) (b : Bool), u.Numbered link (k + 1) → (u.soundFor c b).Numbered link (k + 1) := fun u b hu =>
    hu.congr (by unfold State.soundFor; dsimp only; split <;> split <;> rfl) (by unfold State.soundFor; dsimp only; split <;> split <;> rfl)
  unfold State.enterRaise; dsimp only
  refine sounded _ _ ?_
  split
  · unfold State.enterRecurrence; dsimp only
    split <;> exact told _ _ _ _ rfl rfl
  · unfold State.enterNew; dsimp only
    rw [room]
    split
    · split <;> exact told _ _ _ _ rfl rfl
    · exact told _ _ _ _ rfl rfl

end State.Numbered

/-- A run that makes at most a report a step. -/
theorem forEach_numbered {α : Type} {f : α → State → State} {I : State → Prop} {link : LinkUnit}
    (step : ∀ x u k, k < 64 → I u → u.Numbered link k → I (f x u) ∧ (f x u).Numbered link (k + 1)) (xs : List α) :
    ∀ (k : Nat) (s : State), k + xs.length ≤ 64 → I s → s.Numbered link k →
    (forEach xs f s).Numbered link (k + xs.length) := by
  induction xs with
  | nil => exact fun _ _ _ _ h => h
  | cons x xs ih =>
    intro k s hk hi hs
    rw [List.length_cons] at hk ⊢
    obtain ⟨hi, hs⟩ := step x s k (by omega) hi hs
    rw [show k + (xs.length + 1) = k + 1 + xs.length by omega]
    exact ih (k + 1) _ (by omega) hi hs

/-- What a power-on leaves, whatever the stored copy. -/
structure PoweredUp (p : PowerInputs) (s t : State) : Prop where
  now : t.now = 0
  pending : t.pending = s.pending
  link : t.Numbered { address := p.addressStraps, rate := p.rateStraps } 64
  staged : t.store.staged = []
  load : t.store.load = .empty
  buffer : t.store.buffer = none
  copy : t.store.copy = s.store.copy
  scanner : t.scanner = {}
  tracks : t.tracks = Vector.replicate 24 {}
  seqs : t.seqs = Vector.replicate 16 {}
  notices : t.notices = []
  answers : t.answers = []
  register : t.Registered {} true
  shortAlarm : t.faults.shortAlarm = none
  resetKey : t.resetKey = p.resetKey
  commissioningKey : t.commissioningKey = p.commissioningKey
  plungers : ∀ k, 1 ≤ k → k ≤ 8 → Bank.at t.plungers k = p.plungers.getLsbD (k - 1)
  bells : ∀ x, t.bell x = bellFrom 0 (p.bellPlunger.getLsbD (secCode x).toNat) (p.bellSense.getLsbD (secCode x).toNat) none
    none false (t.assembles x)
  levers : ∀ n, leverOk n = true →
    (t.lever n).normalMade = p.normal.getLsbD (n - 1) ∧ (t.lever n).reverseMade = p.reverse.getLsbD (n - 1) ∧
    (t.lever n).command = .held ∧ (t.lever n).readback = p.readback.getLsbD (n - 1) ∧
    (t.lever n).position = positionOf (p.normal.getLsbD (n - 1)) (p.reverse.getLsbD (n - 1)) ∧
    (t.lever n).lastProved = (t.lever n).position.provedEnd ∧
    (t.lever n).contactActive = (t.leverFitted n && (t.lever n).position == .contactFault) ∧
    ((t.lever n).contactActive = true → t.faultShown .leverContact n)
  sections : ∀ x, t.sectn x = ((s.poweredWith p).sectn x).started

namespace State

variable {p : PowerInputs} {s u t : State}

/-- The inputs as read, with another link, list, table and part state. -/
def FromPower (p : PowerInputs) (s u : State) : Prop := ∃ l f a c e, u =
  { s.poweredWith p with link := l, faults := f, store := { (s.poweredWith p).store with active := a, part := c, entered := e } }

/-- Nothing but the link, the list and the levers. -/
def LeversAndList (s t : State) : Prop := ∃ l f lv, t = { s with link := l, faults := f, frame := { s.frame with levers := lv } }

theorem LeversAndList.refl (s : State) : LeversAndList s s := ⟨s.link, s.faults, s.frame.levers, rfl⟩

theorem LeversAndList.fields {s t : State} (h : LeversAndList s t) : t.store = s.store ∧ t.now = s.now ∧ t.locks = s.locks := by
  obtain ⟨_, _, _, rfl⟩ := h; exact ⟨rfl, rfl, rfl⟩

theorem LeversAndList.trans {s t u : State} (h : LeversAndList s t) (g : LeversAndList t u) : LeversAndList s u := by
  obtain ⟨_, _, _, rfl⟩ := h; obtain ⟨l, f, lv, rfl⟩ := g; exact ⟨l, f, lv, rfl⟩

/-- A start of the records from the inputs as read, after which the link, the list and the levers alone change. -/
theorem poweredUp_of_start (hu : FromPower p s u) (ht : LeversAndList u.startRecords t)
    (link : t.Numbered { address := p.addressStraps, rate := p.rateStraps } 64) (register : t.Registered {} true)
    (shortAlarm : t.faults.shortAlarm = none)
    (same : ∀ n, leverOk n = true → (t.lever n).normalMade = (u.startRecords.lever n).normalMade ∧
      (t.lever n).reverseMade = (u.startRecords.lever n).reverseMade ∧ (t.lever n).command = .held ∧
      (t.lever n).readback = (u.startRecords.lever n).readback ∧ (t.lever n).position = (u.startRecords.lever n).position ∧
      (t.lever n).lastProved = (u.startRecords.lever n).lastProved ∧
      (t.lever n).contactActive = (u.leverFitted n && (u.startRecords.lever n).position == .contactFault))
    (shown : ∀ n, leverOk n = true → (t.lever n).contactActive = true → t.faultShown .leverContact n) : PoweredUp p s t := by
  have bell : ∀ x, u.startRecords.bell x = bellFrom 0 (p.bellPlunger.getLsbD (secCode x).toNat)
      (p.bellSense.getLsbD (secCode x).toNat) none none false (u.assembles x) := fun x => by
    have read := s.poweredWith_bell p x
    obtain ⟨l, f, a, c, e, hu⟩ := hu
    obtain ⟨_, _, _, _, hp⟩ := s.poweredWith_eq p
    have now : u.now = 0 := by rw [hu, hp]
    have same : u.bell x = (s.poweredWith p).bell x := by rw [hu]; rfl
    rw [startRecords_bell, BellState.started_eq, now, same, read]; rfl
  have lever : ∀ n, leverOk n = true → u.startRecords.lever n = LeverState.started u.now (u.hasLock n)
      { normalMade := p.normal.getLsbD (n - 1), reverseMade := p.reverse.getLsbD (n - 1), readback := p.readback.getLsbD (n - 1) } :=
    fun n hn => by
      have read := s.poweredWith_lever p hn
      have same : u.lever n = (s.poweredWith p).lever n := by obtain ⟨l, f, a, c, e, hu⟩ := hu; rw [hu]; rfl
      rw [startRecords_lever u hn, same, read]
  have sectn : ∀ x, t.sectn x = ((s.poweredWith p).sectn x).started := fun x => by
    have same : u.sectn x = (s.poweredWith p).sectn x := by obtain ⟨l, f, a, c, e, hu⟩ := hu; rw [hu]; rfl
    have sections : t.sections = u.startRecords.sections := by obtain ⟨l, f, lv, ht⟩ := ht; rw [ht]
    have own : t.sectn x = u.startRecords.sectn x := by unfold State.sectn; rw [sections]
    rw [own, startRecords_sectn, same]
  have plunger : ∀ k, 1 ≤ k → k ≤ 8 → Bank.at (s.poweredWith p).plungers k = p.plungers.getLsbD (k - 1) :=
    fun k h1 h8 => s.poweredWith_plunger p h1 h8
  have fields : t.now = u.now ∧ t.pending = u.pending ∧ t.store = u.store ∧ t.scanner = u.scanner ∧ t.tracks = Vector.replicate 24 {} ∧
      t.seqs = Vector.replicate 16 {} ∧ t.notices = u.notices ∧ t.answers = u.answers ∧ t.resetKey = u.resetKey ∧
      t.commissioningKey = u.commissioningKey ∧ t.plungers = u.plungers ∧ t.bells = u.startRecords.bells := by
    obtain ⟨l, f, lv, ht⟩ := ht
    obtain ⟨lv', lo, b, se, h⟩ := u.startRecords_whole
    rw [ht, h]; exact ⟨rfl, rfl, rfl, rfl, rfl, rfl, rfl, rfl, rfl, rfl, rfl, rfl⟩
  obtain ⟨now, pending, store, scanner, tracks, seqs, notices, answers, reset, key, plungers, bells⟩ := fields
  have fitted : t.leverFitted = u.leverFitted := by funext n; exact leverFitted_congr (by rw [store]) n
  have assembles : t.assembles = u.assembles := by
    funext x; unfold State.assembles State.hasTable State.sectionFitted State.sectionRec State.table; rw [store]
  have base : u.now = 0 ∧ u.pending = s.pending ∧ u.store.staged = [] ∧ u.store.load = .empty ∧ u.store.buffer = none ∧
      u.store.copy = s.store.copy ∧ u.scanner = {} ∧ u.notices = [] ∧ u.answers = [] ∧ u.resetKey = p.resetKey ∧
      u.commissioningKey = p.commissioningKey ∧ u.plungers = (s.poweredWith p).plungers := by
    obtain ⟨l, f, a, c, e, hu⟩ := hu
    obtain ⟨_, _, _, _, hp⟩ := s.poweredWith_eq p
    rw [hu, hp]; exact ⟨rfl, rfl, rfl, rfl, rfl, rfl, rfl, rfl, rfl, rfl, rfl, rfl⟩
  obtain ⟨bnow, bpending, bstaged, bload, bbuffer, bcopy, bscanner, bnotices, banswers, breset, bkey, bplungers⟩ := base
  have plungersRead : ∀ k, 1 ≤ k → k ≤ 8 → Bank.at t.plungers k = p.plungers.getLsbD (k - 1) := fun k h1 h8 => by
    rw [plungers, bplungers]; exact plunger k h1 h8
  have bellsStart : ∀ x, t.bell x = bellFrom 0 (p.bellPlunger.getLsbD (secCode x).toNat)
      (p.bellSense.getLsbD (secCode x).toNat) none none false (t.assembles x) := fun x => by
    have same : t.bell x = u.startRecords.bell x := by unfold State.bell; rw [bells]
    rw [same, assembles]; exact bell x
  refine ⟨now.trans bnow, pending.trans bpending, link, (congrArg TableStore.staged store).trans bstaged,
    (congrArg TableStore.load store).trans bload, (congrArg TableStore.buffer store).trans bbuffer,
    (congrArg TableStore.copy store).trans bcopy, scanner.trans bscanner, tracks, seqs, notices.trans bnotices, answers.trans banswers,
    register, shortAlarm, reset.trans breset, key.trans bkey, plungersRead, bellsStart, fun n hn => ?_, sectn⟩
  obtain ⟨normal, reverse, command, readback, position, proved, contact⟩ := same n hn
  rw [normal, reverse, readback, position, proved, fitted]
  refine ⟨?_, ?_, command, ?_, ?_, ?_, contact, shown n hn⟩ <;> rw [lever n hn] <;> rfl

end State

namespace State

variable {p : PowerInputs} {s u : State}

/-- A number that names no lever reads as a lever at rest. -/
theorem lever_of_not_ok {n : Nat} {s : State} (h : ¬leverOk n = true) : s.lever n = default := by
  have out : ¬(1 ≤ n ∧ n ≤ 48) := by simpa [leverOk] using h
  unfold State.lever Bank.at
  match n, out with
  | 0, _ => rfl
  | j + 1, out => dsimp only; rw [Vector.getElem?_eq_none (by omega)]; rfl

/-- R39, R152: a lever in CONTACT_FAULT at a start is shown by the list. -/
theorem contactAtStart_shown {n : Nat} (hn : leverOk n = true) {s : State}
    (h : ∀ m, (s.lever m).contactActive = true → s.faultShown .leverContact m) (m : Nat) :
    ((s.contactAtStart false n).lever m).contactActive = true → (s.contactAtStart false n).faultShown .leverContact m := by
  rw [contactAtStart_lever false hn m]
  unfold State.contactAtStart contactFound; dsimp only
  by_cases hc : (s.leverFitted n && (s.lever n).position == .contactFault) = true
  · rw [if_pos hc, if_pos hc, if_neg Bool.false_ne_true]
    intro ha
    by_cases hm : m = n
    · rw [hm]; exact raise_shown _ _ _
    · rw [if_neg hm] at ha
      rw [show State.raise .leverContact n _ = _ from raiseWith_of_noOrder rfl _ _ _]
      exact enterRaise_keeps_shown nofun (h m ha)
  · rw [if_neg hc, if_neg hc]
    intro ha
    refine h m ?_
    split at ha
    · rename_i hm; rw [hm]; exact ha
    · exact ha

theorem contactsAtStart_short (xs : List Nat) (h : u.faults.shortAlarm = none) :
    (forEach xs (contactAtStart false) u).faults.shortAlarm = none :=
  forEach_inv (P := fun v => v.faults.shortAlarm = none) (fun n _ hv => contactAtStart_inv
    (P := fun v => v.faults.shortAlarm = none) (fun _ _ _ h => h)
    (fun _ _ h => (enterRaise_shortAlarm (c := .leverContact) (by decide) _ _ _).trans h) false n hv) xs u h

/-- R39: what the levers found with both contacts made are to the list, and to the link. -/
theorem contactsAtStart_spec {f : Supervisor} {link : LinkUnit} {k : Nat} {t : State}
    (ht : forEach allLevers (contactAtStart false) u = t) (hk : k + 48 ≤ 64) (register : u.Registered f true)
    (short : u.faults.shortAlarm = none) (active : ∀ e ∈ u.faults.entries, e.active = true) (numbered : u.Numbered link k)
    (none' : ∀ n, (u.lever n).contactActive = false) :
    t.Registered f true ∧ t.faults.shortAlarm = none ∧ t.Numbered link (k + 48) ∧
    (∀ n, leverOk n = true → t.lever n = contactFound (u.leverFitted n) (u.lever n)) ∧
    (∀ n, (t.lever n).contactActive = true → t.faultShown .leverContact n) ∧
    LeversAndList u t := by
  have lists : ∀ x (v : State) (j : Nat), j < 64 → (∀ e ∈ v.faults.entries, e.active = true) → v.Numbered link j →
      (∀ e ∈ (v.contactAtStart false x).faults.entries, e.active = true) ∧ (v.contactAtStart false x).Numbered link (j + 1) := by
    intro x v j hj ha hv
    have room : v.faults.entries.find? (fun e => !e.active) = none := List.find?_eq_none.2 fun e he => by simp [ha e he]
    unfold State.contactAtStart; dsimp only
    split
    · rw [if_neg Bool.false_ne_true, show State.raise .leverContact x _ = _ from raiseWith_of_noOrder rfl _ _ _]
      refine ⟨?_, (hv.congr rfl rfl : (v.updLever x _).Numbered link j).enterRaise hj _ _ _ room⟩
      rw [State.enterRaise_faults]; exact Supervisor.entered_active ha
    · exact ⟨ha, hv.mono (Nat.le_succ j)⟩
  rw [← ht]
  refine ⟨?_, ?_, ?_, fun n hn => ?_, ?_, ?_⟩
  · exact forEach_inv (P := State.Registered f true) (fun n v hv => contactAtStart_inv
      (fun _ _ w h => (steady_registered f true).congr w _ rfl rfl h) (fun _ _ h => enterRaise_registered _ _ _ h) false n hv) _ _ register
  · exact contactsAtStart_short allLevers short
  · have count : allLevers.length = 48 := List.length_range'
    have counted := forEach_numbered lists allLevers k u (by rw [count]; exact hk) active numbered
    rwa [count] at counted
  · have found := forEach_get (get := State.lever) (env := State.leverFitted) (g := fun n e l => contactFound (e n) l)
      (f := contactAtStart false) allLevers (by decide) (fun n hn v m => contactAtStart_lever false (mem_allLevers.1 hn) m v)
      (fun n _ v => contactAtStart_fitted false n v) u n
    rwa [if_pos (mem_allLevers.2 hn)] at found
  · exact forEach_inv_mem (P := fun v => ∀ n, (v.lever n).contactActive = true → v.faultShown .leverContact n) allLevers
      (fun n hn v hv => contactAtStart_shown (mem_allLevers.1 hn) hv) u fun n hn => by rw [none' n] at hn; cases hn
  · exact forEach_inv (P := LeversAndList u) (fun n v hv => contactAtStart_inv (fun n g w hw => hw.trans ⟨w.link, w.faults, _, rfl⟩)
      (fun n w hw => hw.trans (by
        obtain ⟨l, g, only⟩ := State.enterRaise_only .leverContact n false w
        exact ⟨l, g, w.frame.levers, only⟩)) false n hv) _ _ (LeversAndList.refl u)

/-- What a power-on has read, before the stored copy is looked at. -/
theorem poweredWith_desk (p : PowerInputs) (s : State) : (s.poweredWith p).faults = {} ∧ (s.poweredWith p).frame.supplyOn = true ∧
    (s.poweredWith p).Numbered { address := p.addressStraps, rate := p.rateStraps } 0 ∧ (s.poweredWith p).store = { copy := s.store.copy } := by
  obtain ⟨_, _, _, _, hp⟩ := s.poweredWith_eq p
  rw [hp]
  exact ⟨rfl, rfl, ⟨rfl, [], 0, rfl, rfl, Nat.le_refl 0, fun i r h => by simp at h⟩, rfl⟩

theorem startRecords_desk (s : State) : s.startRecords.faults = s.faults ∧ s.startRecords.link = s.link ∧ s.startRecords.now = s.now ∧
    s.startRecords.store = s.store ∧ s.startRecords.frame.supplyOn = s.frame.supplyOn := by
  obtain ⟨_, _, _, _, h⟩ := s.startRecords_whole
  rw [h]; exact ⟨rfl, rfl, rfl, rfl, rfl⟩

/-- R166, R168: a start with no table. -/
theorem poweredUp_of_noTable (hu : FromPower p s u) (active : u.store.active = none)
    (link : u.Numbered { address := p.addressStraps, rate := p.rateStraps } 64) (register : u.Registered {} true)
    (short : u.faults.shortAlarm = none) : PoweredUp p s u.startRecords := by
  obtain ⟨faults, links, now, -, supply⟩ := u.startRecords_desk
  have unfitted : ∀ n, u.leverFitted n = false := fun n => by
    unfold State.leverFitted State.leverRec State.table; rw [active]; rfl
  have contact : ∀ n, leverOk n = true → (u.startRecords.lever n).contactActive = false := fun n hn => by
    rw [startRecords_lever u hn]; rfl
  refine poweredUp_of_start hu (LeversAndList.refl _) (link.congr now links) ((steady_registered _ _).congr u _ faults supply register)
    (by rw [faults]; exact short) (fun n hn => ⟨rfl, rfl, startRecords_held u hn, rfl, rfl, rfl, ?_⟩) fun n hn ha => ?_
  · rw [contact n hn, unfitted]; rfl
  · rw [contact n hn] at ha; cases ha

/-- R39, R168: a start with the stored table. -/
theorem poweredUp_withTable (t : Table) (p : PowerInputs) (s : State) :
    PoweredUp p s ((s.poweredWith p).powerWithTable t) ∧ ((s.poweredWith p).powerWithTable t).store.part = .proving ∧
    ((s.poweredWith p).powerWithTable t).store.active = some t ∧
    ∀ a rec, approachOf a t.records = some rec → lockOk a = true → (((s.poweredWith p).powerWithTable t).lockn a).phase =
      if (((s.poweredWith p).powerWithTable t).lever rec.signal.toNat).position = .normal then .free else .engaged := by
  obtain ⟨faults, supply, numbered, store⟩ := s.poweredWith_desk p
  generalize hs1 : (s.poweredWith p).setStore { (s.poweredWith p).store with active := some t, part := .proving, entered := (s.poweredWith p).now } = s1
  have told : (s1.partReport 1 (1 :: be16 t.fingerprint)).Numbered { address := p.addressStraps, rate := p.rateStraps } 1 :=
    (numbered.congr (by rw [← hs1]; rfl) (by rw [← hs1]; rfl) : s1.Numbered _ 0).report (by decide) .part 0 1 (1 :: be16 t.fingerprint)
  obtain ⟨l, only⟩ : OnlyLink s1 (s1.partReport 1 (1 :: be16 t.fingerprint)) := report_only _ _ _ _ _
  have from' : FromPower p s (s1.partReport 1 (1 :: be16 t.fingerprint)) := ⟨l, (s.poweredWith p).faults, some t, .proving, _, by rw [only, ← hs1]; rfl⟩
  have shape : (s.poweredWith p).powerWithTable t =
      (forEach allLevers (contactAtStart false) (s1.partReport 1 (1 :: be16 t.fingerprint)).startRecords).evaluate .partState := by
    rw [← hs1]; rfl
  rw [shape]
  have active : (s1.partReport 1 (1 :: be16 t.fingerprint)).store.active = some t := by rw [only, ← hs1]; rfl
  have part : (s1.partReport 1 (1 :: be16 t.fingerprint)).store.part = .proving := by rw [only, ← hs1]; rfl
  have desk : (s1.partReport 1 (1 :: be16 t.fingerprint)).faults = {} ∧ (s1.partReport 1 (1 :: be16 t.fingerprint)).frame.supplyOn = true := by
    rw [only, ← hs1]; exact ⟨faults, supply⟩
  generalize s1.partReport 1 (1 :: be16 t.fingerprint) = u at told from' active part desk ⊢
  obtain ⟨uf, us⟩ := desk
  obtain ⟨rf, rl, rn, rs, rsup⟩ := u.startRecords_desk
  have idle : ∀ n, (u.startRecords.lever n).contactActive = false := fun n => by
    by_cases hn : leverOk n = true
    · rw [startRecords_lever u hn]; rfl
    · rw [lever_of_not_ok hn]; rfl
  have register : u.startRecords.Registered {} true := ⟨by rw [rf, uf], by rw [rf, uf], by rw [rf, uf], by rw [rf, uf], by rw [rsup, us]⟩
  have short : u.startRecords.faults.shortAlarm = none := by rw [rf, uf]
  have entries : ∀ e ∈ u.startRecords.faults.entries, e.active = true := by rw [rf, uf]; exact fun e he => nomatch he
  have numbered : u.startRecords.Numbered { address := p.addressStraps, rate := p.rateStraps } 1 := told.congr rn rl
  generalize hv : forEach allLevers (contactAtStart false) u.startRecords = v
  obtain ⟨register, short, count, found, shown, only⟩ := contactsAtStart_spec hv (by decide) register short entries numbered idle
  have vstore : v.store = u.store := (LeversAndList.fields only).1.trans rs
  have running : v.isRunning = false := by unfold State.isRunning; rw [vstore, part]; rfl
  have held : ∀ n, leverOk n = true → (v.lever n).command = .held := fun n hn => by
    have := startRecords_held u hn
    rw [found n hn]; unfold contactFound; split <;> exact this
  obtain ⟨levers, heldAfter⟩ := evaluate_of_held .partState running held
  have position : ∀ n, ((v.evaluate .partState).lever n).position = (u.startRecords.lever n).position := fun n => by
    obtain ⟨_, _, _, _, _, _, same⟩ := evaluate_lever_same .partState v n
    rw [same]; dsimp only
    by_cases hn : leverOk n = true
    · rw [found n hn]; unfold contactFound; split <;> rfl
    · rw [lever_of_not_ok hn, lever_of_not_ok hn]
  have fitted : u.startRecords.leverFitted = u.leverFitted := by funext n; exact leverFitted_congr (by rw [rs]) n
  have same : LeversAndList v (v.evaluate .partState) := by
    obtain ⟨ls, h⟩ := levers; exact ⟨v.link, v.faults, ls, h⟩
  have after : (v.evaluate .partState).faults = v.faults ∧ (v.evaluate .partState).link = v.link ∧
      (v.evaluate .partState).now = v.now ∧ (v.evaluate .partState).frame.supplyOn = v.frame.supplyOn ∧
      (v.evaluate .partState).store = v.store := by
    obtain ⟨ls, h⟩ := levers; rw [h]; exact ⟨rfl, rfl, rfl, rfl, rfl⟩
  obtain ⟨af, al, an, asup, ast⟩ := after
  refine ⟨poweredUp_of_start from' (only.trans same) ((count.mono (by decide)).congr an al)
    ((steady_registered _ _).congr v _ af asup register) (by rw [af]; exact short) (fun n hn => ?_) (fun n hn ha => ?_),
    by rw [ast, vstore]; exact part, by rw [ast, vstore]; exact active, fun a rec hr ha => ?_⟩
  · obtain ⟨_, _, _, _, _, _, lever⟩ := evaluate_lever_same .partState v n
    have held' := heldAfter n hn
    rw [lever] at held' ⊢
    refine ⟨?_, ?_, held', ?_, ?_, ?_, ?_⟩ <;> dsimp only <;> rw [found n hn] <;> unfold contactFound
    · split <;> rfl
    · split <;> rfl
    · split <;> rfl
    · split <;> rfl
    · split <;> rfl
    · rw [fitted]
      split
      · rename_i h; exact h.symm
      · rename_i h; rw [idle n]; exact (Bool.eq_false_of_not_eq_true h).symm
  · refine (faultShown_congr af).2 (shown n ?_)
    obtain ⟨_, _, _, _, _, _, lever⟩ := evaluate_lever_same .partState v n
    rw [lever] at ha; exact ha
  · have lock : (v.evaluate .partState).lockn a = u.startRecords.lockn a := by
      unfold State.lockn
      rw [(LeversAndList.fields same).2.2, (LeversAndList.fields only).2.2]
    have fittedLock : u.approachRec a = some rec := by unfold State.approachRec State.table; rw [active]; exact hr
    rw [lock, startRecords_lockn u ha fittedLock, position]; rfl

end State

namespace State

variable (p : PowerInputs) (s : State)

/-- R168: a start from a copy that was never written. -/
theorem poweredUp_blank : PoweredUp p s (s.poweredWith p).powerBlank ∧ (s.poweredWith p).powerBlank.store.part = .uncommissioned ∧
    (s.poweredWith p).powerBlank.store.active = none ∧ (s.poweredWith p).powerBlank.faults.entries = [] := by
  obtain ⟨faults, supply, numbered, store⟩ := s.poweredWith_desk p
  have told : ((s.poweredWith p).partReport 1 [0, 0]).Numbered { address := p.addressStraps, rate := p.rateStraps } 1 :=
    numbered.report (by decide) _ _ _ _
  obtain ⟨l, only⟩ : OnlyLink (s.poweredWith p) ((s.poweredWith p).partReport 1 [0, 0]) := report_only _ _ _ _ _
  have from' : FromPower p s ((s.poweredWith p).partReport 1 [0, 0]) := ⟨l, _, _, _, _, only⟩
  have desk : ((s.poweredWith p).partReport 1 [0, 0]).faults = {} ∧ ((s.poweredWith p).partReport 1 [0, 0]).frame.supplyOn = true ∧
      ((s.poweredWith p).partReport 1 [0, 0]).store = { copy := s.store.copy } := by rw [only]; exact ⟨faults, supply, store⟩
  unfold State.powerBlank
  generalize (s.poweredWith p).partReport 1 [0, 0] = u at told from' desk ⊢
  obtain ⟨uf, us, ust⟩ := desk
  obtain ⟨rf, -, -, rs, -⟩ := u.startRecords_desk
  exact ⟨poweredUp_of_noTable from' (by rw [ust]) (told.mono (by decide)) ⟨by rw [uf], by rw [uf], by rw [uf], by rw [uf], us⟩ (by rw [uf]),
    by rw [rs, ust], by rw [rs, ust], by rw [rf, uf]⟩

/-- R168, R176: a start from a copy that fails the comparison or cannot be read. -/
theorem poweredUp_fault : PoweredUp p s (s.poweredWith p).powerWithFault ∧
    (s.poweredWith p).powerWithFault.store.part = .uncommissioned ∧ (s.poweredWith p).powerWithFault.store.active = none ∧
    ∃ e, (s.poweredWith p).powerWithFault.faults.entries = [e] ∧ e.cls = .store ∧ e.active = false ∧ e.unmasked = true := by
  obtain ⟨faults, supply, numbered, store⟩ := s.poweredWith_desk p
  have raised : (s.poweredWith p).raiseAndEnd .store 0 = (s.poweredWith p).enterRaise .store 0 true := raiseWith_of_noOrder rfl _ _ _
  have told : ((s.poweredWith p).enterRaise .store 0 true).Numbered { address := p.addressStraps, rate := p.rateStraps } 1 :=
    numbered.enterRaise (by decide) _ _ _ (by rw [faults]; rfl)
  have register : ((s.poweredWith p).enterRaise .store 0 true).Registered {} true :=
    enterRaise_registered _ _ _ ⟨by rw [faults], by rw [faults], by rw [faults], by rw [faults], supply⟩
  have short : ((s.poweredWith p).enterRaise .store 0 true).faults.shortAlarm = none := by
    rw [enterRaise_shortAlarm (by decide), faults]
  have entry : ((s.poweredWith p).enterRaise .store 0 true).faults.entries = [newEntry .store 0 (s.poweredWith p).now true true] := by
    rw [State.enterRaise_faults, faults]; rfl
  obtain ⟨l, f, only⟩ := State.enterRaise_only .store 0 true (s.poweredWith p)
  unfold State.powerWithFault
  rw [raised]
  generalize (s.poweredWith p).enterRaise .store 0 true = v at told register short entry only ⊢
  obtain ⟨l', only'⟩ : OnlyLink v (v.partReport 1 [0, 1]) := report_only _ _ _ _ _
  have from' : FromPower p s (v.partReport 1 [0, 1]) := ⟨l', f, _, _, _, by rw [only', only]⟩
  have told' : (v.partReport 1 [0, 1]).Numbered { address := p.addressStraps, rate := p.rateStraps } 2 := told.report (by decide) _ _ _ _
  have desk : (v.partReport 1 [0, 1]).faults = v.faults ∧ (v.partReport 1 [0, 1]).frame = v.frame ∧
      (v.partReport 1 [0, 1]).store = { copy := s.store.copy } := by rw [only']; exact ⟨rfl, rfl, by rw [only]; exact store⟩
  generalize v.partReport 1 [0, 1] = u at told' from' desk ⊢
  obtain ⟨uf, us, ust⟩ := desk
  obtain ⟨rf, -, -, rs, -⟩ := u.startRecords_desk
  refine ⟨poweredUp_of_noTable from' (by rw [ust]) (told'.mono (by decide))
    ((steady_registered _ _).congr v u uf (congrArg FrameUnit.supplyOn us) register) (by rw [uf]; exact short),
    by rw [rs, ust], by rw [rs, ust], newEntry .store 0 (s.poweredWith p).now true true, ?_, rfl, rfl, rfl⟩
  rw [rf, uf, entry]

end State

/-- R168: which start a power-on makes. -/
theorem powerUp_cases (p : PowerInputs) (s : State) :
    (∃ tb, s.store.copy = .written tb ∧ p.copyReadable = true ∧ fingerprintOf tb.records = tb.fingerprint ∧
      s.powerUp p = (s.poweredWith p).powerWithTable tb) ∨
    (s.store.copy = .blank ∧ p.copyReadable = true ∧ s.powerUp p = (s.poweredWith p).powerBlank) ∨
    ((∀ tb, s.store.copy = .written tb → ¬(p.copyReadable = true ∧ fingerprintOf tb.records = tb.fingerprint)) ∧
      ¬(s.store.copy = .blank ∧ p.copyReadable = true) ∧ s.powerUp p = (s.poweredWith p).powerWithFault) := by
  have copy : (s.poweredWith p).store.copy = s.store.copy := by rw [(s.poweredWith_desk p).2.2.2]
  unfold State.powerUp; dsimp only
  rw [copy]
  cases hc : s.store.copy with
  | blank =>
    cases hr : p.copyReadable with
    | true => exact .inr (.inl ⟨rfl, rfl, rfl⟩)
    | false => exact .inr (.inr ⟨nofun, nofun, rfl⟩)
  | spoiled => exact .inr (.inr ⟨nofun, nofun, rfl⟩)
  | written tb =>
    by_cases hp : (p.copyReadable && fingerprintOf tb.records == tb.fingerprint) = true
    · obtain ⟨hr, hf⟩ := Bool.and_eq_true_iff.1 hp
      refine .inl ⟨tb, rfl, hr, beq_iff_eq.1 hf, ?_⟩
      unfold State.StoreCopy.passes; dsimp only; rw [if_pos hp]
    · refine .inr (.inr ⟨fun tb' ht h => hp ?_, nofun, ?_⟩)
      · cases ht; exact Bool.and_eq_true_iff.2 ⟨h.1, beq_iff_eq.2 h.2⟩
      · unfold State.StoreCopy.passes; dsimp only; rw [if_neg hp]; rfl

/-- Settles O26. -/
theorem powerOn : Obligations.PowerOn := by
  intro p s
  refine ⟨s.powerUp p, rfl, ?_⟩
  beta_reduce
  have up : PoweredUp p s (s.powerUp p) := by
    obtain ⟨tb, -, -, -, h⟩ | ⟨-, -, h⟩ | ⟨-, -, h⟩ := powerUp_cases p s
    · rw [h]; exact (State.poweredUp_withTable tb p s).1
    · rw [h]; exact (State.poweredUp_blank p s).1
    · rw [h]; exact (State.poweredUp_fault p s).1
  obtain ⟨-, q, n, link, number, -, queue⟩ := up.link
  obtain ⟨masked, cut, frozen, failed, supply⟩ := up.register
  have handle : ∀ x, ((s.powerUp p).sectn x).blockedMade = p.handleBlocked.getLsbD (secCode x).toNat ∧
      ((s.powerUp p).sectn x).clearMade = p.handleClear.getLsbD (secCode x).toNat ∧
      ((s.powerUp p).sectn x).trainMade = p.handleTrain.getLsbD (secCode x).toNat := fun x => by
    rw [up.sections, s.poweredWith_sectn p x]; exact ⟨rfl, rfl, rfl⟩
  have start : ∀ x, ((s.powerUp p).sectn x).state = none ∧ ((s.powerUp p).sectn x).drive = .off ∧
      ((s.powerUp p).sectn x).measured = .none ∧ ((s.powerUp p).sectn x).handle = handleOf (p.handleBlocked.getLsbD (secCode x).toNat)
        (p.handleClear.getLsbD (secCode x).toNat) (p.handleTrain.getLsbD (secCode x).toNat) := fun x => by
    rw [up.sections, s.poweredWith_sectn p x]; exact ⟨rfl, rfl, rfl, rfl⟩
  refine ⟨up.now, up.pending, by rw [link], by rw [link], by rw [link], by rw [link], by rw [link], up.staged, up.load, up.buffer, up.copy,
    up.scanner, up.tracks, up.seqs, up.notices, up.answers, supply, masked, cut, frozen, failed, up.shortAlarm, up.resetKey,
    up.commissioningKey, up.plungers, up.bells, by rw [link], by rw [link]; exact number, by rw [link]; exact queue, up.levers, handle, start,
    fun tb hc hr hf => ?_, fun h => ?_, fun hr hc => ?_⟩
  · obtain ⟨tb', hc', -, -, h⟩ | ⟨hb, -, -⟩ | ⟨hn, -, -⟩ := powerUp_cases p s
    · obtain rfl := StoreCopy.written.inj (hc'.symm.trans hc)
      rw [h]; exact (State.poweredUp_withTable tb' p s).2
    · exact nomatch hb.symm.trans hc
    · exact absurd ⟨hr, hf⟩ (hn tb hc)
  · obtain ⟨tb', hc', hr, hf, -⟩ | ⟨hb, hr, -⟩ | ⟨-, -, hu⟩ := powerUp_cases p s
    · obtain h | h | ⟨tb, h, hne⟩ := h
      · exact nomatch hr.symm.trans h
      · exact nomatch hc'.symm.trans h
      · obtain rfl := StoreCopy.written.inj (hc'.symm.trans h)
        exact absurd hf hne
    · obtain h | h | ⟨tb, h, -⟩ := h
      · exact nomatch hr.symm.trans h
      · exact nomatch hb.symm.trans h
      · exact nomatch hb.symm.trans h
    · rw [hu]; exact (State.poweredUp_fault p s).2
  · obtain ⟨tb', hc', -, -, -⟩ | ⟨-, -, hu⟩ | ⟨-, hn, -⟩ := powerUp_cases p s
    · exact nomatch hc'.symm.trans hc
    · rw [hu]; exact (State.poweredUp_blank p s).2
    · exact absurd ⟨hc, hr⟩ hn

/-! ### O24: what a store write ends -/

/-- Nothing but ends leaves a condition that is over so. -/
theorem OnlyEnds.keeps_over {f : State → State} (hf : OnlyEnds f) {c : FaultClass} {o : Nat} {s : State} (h : s.faultOver c o) :
    (f s).faultOver c o :=
  hf (State.faultOver c o) (fun _ _ _ _ _ h => (State.report_faultOver _ _ _ _ _).2 h) (fun _ _ _ h => State.endFault_keeps_over _ _ h)
    (fun _ _ _ h => h) s h

namespace State

theorem endTrack_onlyEnds (t : Nat) : OnlyEnds (endTrack t) := fun P hr he hl s hs =>
  OnlyEnds.endIf _ _ _ P hr he hl _ (OnlyEnds.endIf _ _ _ P hr he hl s hs)

theorem endSectn_onlyEnds (x : SectionId) : OnlyEnds (endSectn x) := fun P hr he hl s hs => OnlyEnds.endIf _ _ _ P hr he hl s hs

theorem endBell_onlyEnds (x : SectionId) : OnlyEnds (endBell x) := fun P hr he hl s hs =>
  OnlyEnds.endIf _ _ _ P hr he hl _ (OnlyEnds.endIf _ _ _ P hr he hl s hs)

theorem endLever_onlyEnds (n : Nat) : OnlyEnds (endLever n) := fun P hr he hl s hs =>
  OnlyEnds.endIf _ _ _ P hr he hl _ (OnlyEnds.endIf _ _ _ P hr he hl _ (OnlyEnds.endIf _ _ _ P hr he hl _
    (OnlyEnds.endIf _ _ _ P hr he hl s hs)))

theorem endTrack_only (t : Nat) (s : State) : OnlyFaults s (s.endTrack t) := (endIf_only _ _ _ _).trans (endIf_only _ _ _ _)
theorem endSectn_only (x : SectionId) (s : State) : OnlyFaults s (s.endSectn x) := endIf_only _ _ _ _
theorem endBell_only (x : SectionId) (s : State) : OnlyFaults s (s.endBell x) := (endIf_only _ _ _ _).trans (endIf_only _ _ _ _)

theorem endOwners_only (s : State) : OnlyFaults s s.endOwners := by
  have tracks := forEach_keeps OnlyFaults.refl OnlyFaults.trans endTrack_only allTracks s
  have sections := forEach_keeps OnlyFaults.refl OnlyFaults.trans endSectn_only allSections (forEach allTracks endTrack s)
  have bells := forEach_keeps OnlyFaults.refl OnlyFaults.trans endBell_only allSections
    (forEach allSections endSectn (forEach allTracks endTrack s))
  exact ((tracks.trans sections).trans bells).trans (endIf_only _ _ _ _)

/-- A run of ends, each for its own object. -/
theorem forEach_ends {α : Type} {f : α → State → State} (ends : ∀ x, OnlyEnds (f x)) (only : ∀ x s, OnlyFaults s (f x s)) {c : FaultClass}
    {o : Nat} (xs : List α) (hn : xs.Nodup) {y : α} (hy : y ∈ xs) (s : State) (own : ∀ u, OnlyFaults s u → (f y u).faultOver c o) :
    (forEach xs f s).faultOver c o :=
  forEach_once (I := OnlyFaults s) (R := State.faultOver c o) xs hn hy (fun x u h => h.trans (only x u)) own
    (fun x _ _ _ h => (ends x).keeps_over h) s (OnlyFaults.refl s)

/-- R67, R119, R147: every condition of the track unit, the block unit and the bell unit is over. -/
theorem endOwners_over (s : State) :
    (s.frame.lockSupply = true → s.endOwners.faultOver .lockSupply 0) ∧
    (∀ m, 1 ≤ m → m ≤ 24 → ((s.track m).channelFault = true → s.endOwners.faultOver .trackChannel m) ∧
      ((s.track m).degraded = true → s.endOwners.faultOver .trackDegraded m)) ∧
    ∀ x, ((s.sectn x).mismatch = true → s.endOwners.faultOver .indicatorMismatch (secCode x).toNat) ∧
      (s.sectionFitted x = true → (s.bell x).crossed = true → s.endOwners.faultOver .bellCrossed (secCode x).toNat) ∧
      (s.sectionFitted x = true → s.ringStands x = true → s.endOwners.faultOver .heldRing (secCode x).toNat) := by
  have tracks : ∀ {c o} , (forEach allTracks endTrack s).faultOver c o → s.endOwners.faultOver c o := fun h =>
    (OnlyEnds.endIf _ _ _).keeps_over (forEach_inv (P := State.faultOver _ _) (fun x _ h => (endBell_onlyEnds x).keeps_over h) _ _
      (forEach_inv (P := State.faultOver _ _) (fun x _ h => (endSectn_onlyEnds x).keeps_over h) _ _ h))
  have one := forEach_keeps OnlyFaults.refl OnlyFaults.trans endTrack_only allTracks s
  generalize hu : forEach allTracks endTrack s = u at tracks one
  have sections : ∀ {c o} , (forEach allSections endSectn u).faultOver c o → s.endOwners.faultOver c o := fun h => by
    unfold State.endOwners; dsimp only; rw [hu]
    exact (OnlyEnds.endIf _ _ _).keeps_over (forEach_inv (P := State.faultOver _ _) (fun x _ h => (endBell_onlyEnds x).keeps_over h) _ _ h)
  have two := one.trans (forEach_keeps OnlyFaults.refl OnlyFaults.trans endSectn_only allSections u)
  generalize hv : forEach allSections endSectn u = v at sections two
  have bells : ∀ {c o} , (forEach allSections endBell v).faultOver c o → s.endOwners.faultOver c o := fun h => by
    unfold State.endOwners; dsimp only; rw [hu, hv]
    exact (OnlyEnds.endIf _ _ _).keeps_over h
  refine ⟨fun h => ?_, fun m h1 h24 => ⟨fun h => tracks ?_, fun h => tracks ?_⟩, fun x => ⟨fun h => sections ?_, fun hf h => bells ?_, fun hf h => bells ?_⟩⟩
  · exact endIf_over _ _ fun hb => nomatch h.symm.trans hb
  · rw [← hu]
    refine forEach_ends endTrack_onlyEnds endTrack_only allTracks (by decide) (mem_allTracks.2 ⟨h1, h24⟩) s fun w hw => ?_
    unfold State.endTrack; dsimp only; rw [hw.track_eq, h]
    exact endIf_keeps_over _ _ _ (endFault_over _ _ _)
  · rw [← hu]
    refine forEach_ends endTrack_onlyEnds endTrack_only allTracks (by decide) (mem_allTracks.2 ⟨h1, h24⟩) s fun w hw => ?_
    unfold State.endTrack; dsimp only; rw [hw.track_eq, h]
    exact endFault_over _ _ _
  · rw [← hv]
    refine forEach_ends endSectn_onlyEnds endSectn_only allSections (by decide) (mem_allSections x) u fun w hw => ?_
    unfold State.endSectn; rw [(one.trans hw).sectn_eq, h]
    exact endFault_over _ _ _
  · refine forEach_ends endBell_onlyEnds endBell_only allSections (by decide) (mem_allSections x) v fun w hw => ?_
    have same : w.bellFaults x = true ∧ (w.bell x).crossed = true := by
      obtain ⟨_, _, rfl⟩ := two.trans hw; exact ⟨hf, h⟩
    unfold State.endBell; dsimp only; rw [same.1, same.2]
    exact endIf_keeps_over _ _ _ (endFault_over _ _ _)
  · refine forEach_ends endBell_onlyEnds endBell_only allSections (by decide) (mem_allSections x) v fun w hw => ?_
    have same : w.bellFaults x = true ∧ w.ringStands x = true := by
      obtain ⟨_, _, rfl⟩ := two.trans hw; exact ⟨hf, h⟩
    unfold State.endBell; dsimp only; rw [same.1, same.2]
    exact endFault_over _ _ _

end State

/-! R38, R40: the conditions of the levers at a commission. -/

/-- R40: a lever's record carried over a commission. -/
def LeverState.carried (fitted locked : Bool) (old l : LeverState) : LeverState :=
  State.contactFound fitted { l with stuckActive := old.stuckActive && locked && old.readback }

namespace State

variable {s u : State}

/-- R40: what ends of a lever's conditions at a commission. -/
def carryEnds (l : LeverState) (n : Nat) (u : State) : State :=
  let inFault := u.leverFitted n && (u.lever n).position == .contactFault
  (((u.endIf (l.contactActive && !inFault) .leverContact n).endIf l.forcedActive .leverForced n).endIf
    l.driveActive .lockDrive n).endIf (l.stuckActive && !(l.stuckActive && u.hasLock n && l.readback)) .lockStuckFree n

theorem carryLever_eq (l : LeverState) (n : Nat) (u : State) : u.carryLever l n =
    ((carryEnds l n u).updLever n fun x => { x with stuckActive := l.stuckActive && u.hasLock n && l.readback }).contactAtStart
      l.contactActive n := rfl

theorem carryEnds_only (l : LeverState) (n : Nat) (u : State) : OnlyFaults u (carryEnds l n u) :=
  (((endIf_only _ _ _ _).trans (endIf_only _ _ _ _)).trans (endIf_only _ _ _ _)).trans (endIf_only _ _ _ _)

theorem carryEnds_onlyEnds (l : LeverState) (n : Nat) : OnlyEnds (carryEnds l n) := fun P hr he hl s hs =>
  OnlyEnds.endIf _ _ _ P hr he hl _ (OnlyEnds.endIf _ _ _ P hr he hl _ (OnlyEnds.endIf _ _ _ P hr he hl _
    (OnlyEnds.endIf _ _ _ P hr he hl s hs)))

theorem carryLever_inv {P : State → Prop} (ends : ∀ c o u, P u → P (u.endFault c o)) (lever : ∀ n g u, P u → P (u.updLever n g))
    (raise : ∀ n u, P u → P (u.enterRaise .leverContact n false)) (l : LeverState) (n : Nat) (hu : P u) : P (u.carryLever l n) := by
  have endIf : ∀ b c o v, P v → P (v.endIf b c o) := fun b c o v hv => ite_keeps (ends c o v hv) hv
  rw [carryLever_eq]
  exact contactAtStart_inv lever raise _ _ (lever _ _ _ (endIf _ _ _ _ (endIf _ _ _ _ (endIf _ _ _ _ (endIf _ _ _ _ hu)))))

theorem carryLever_fitted (l : LeverState) (n : Nat) (u : State) :
    (u.carryLever l n).leverFitted = u.leverFitted ∧ (u.carryLever l n).hasLock = u.hasLock := by
  have store : (u.carryLever l n).store = u.store := carryLever_inv (P := fun v => v.store = u.store)
    (fun c o v hv => by obtain ⟨_, _, h⟩ := State.endFault_only c o v; rw [h]; exact hv) (fun _ _ _ h => h)
    (fun m v hv => by obtain ⟨_, _, h⟩ := State.enterRaise_only .leverContact m false v; rw [h]; exact hv) l n rfl
  exact ⟨funext fun m => leverFitted_congr (by rw [store]) m, funext fun m => hasLock_congr (by rw [store]) m⟩

theorem carryLever_lever (l : LeverState) {n : Nat} (hn : leverOk n = true) (m : Nat) (u : State) :
    (u.carryLever l n).lever m = if m = n then LeverState.carried (u.leverFitted n) (u.hasLock n) l (u.lever n) else u.lever m := by
  have hb : 1 ≤ n ∧ n ≤ 48 := by simpa [leverOk] using hn
  rw [carryLever_eq, contactAtStart_lever _ hn]
  have lever : ∀ k, (carryEnds l n u).lever k = u.lever k := lever_of_onlyFaults (carryEnds_only l n u)
  have fitted : ((carryEnds l n u).updLever n fun x => { x with stuckActive := l.stuckActive && u.hasLock n && l.readback }).leverFitted n =
      u.leverFitted n := by
    obtain ⟨_, _, h⟩ := carryEnds_only l n u; rw [h]; rfl
  by_cases hm : m = n
  · rw [if_pos hm, if_pos hm, fitted, State.lever_updLever, if_pos ⟨rfl, hb⟩, lever]
    rfl
  · rw [if_neg hm, if_neg hm, State.lever_updLever, if_neg fun h => hm h.1, lever]

/-- R40: a lever's condition that a commission ends. -/
theorem carryEnds_over (l : LeverState) (n : Nat) (u : State) :
    ((l.contactActive && !(u.leverFitted n && (u.lever n).position == .contactFault)) = true → (carryEnds l n u).faultOver .leverContact n) ∧
    (l.forcedActive = true → (carryEnds l n u).faultOver .leverForced n) ∧
    (l.driveActive = true → (carryEnds l n u).faultOver .lockDrive n) ∧
    ((l.stuckActive && !(l.stuckActive && u.hasLock n && l.readback)) = true → (carryEnds l n u).faultOver .lockStuckFree n) := by
  unfold carryEnds; dsimp only
  refine ⟨fun h => ?_, fun h => ?_, fun h => ?_, fun h => ?_⟩
  · exact endIf_keeps_over _ _ _ (endIf_keeps_over _ _ _ (endIf_keeps_over _ _ _ (endIf_over _ _ fun hb => nomatch h.symm.trans hb)))
  · exact endIf_keeps_over _ _ _ (endIf_keeps_over _ _ _ (endIf_over _ _ fun hb => nomatch h.symm.trans hb))
  · exact endIf_keeps_over _ _ _ (endIf_over _ _ fun hb => nomatch h.symm.trans hb)
  · exact endIf_over _ _ fun hb => nomatch h.symm.trans hb

/-- R155: what a start raises leaves over what is not that. -/
theorem contactAtStart_keeps_over {c : FaultClass} {o n : Nat} {b : Bool} (ha : u.faults.agree c o) (hu : u.faultOver c o)
    (other : (FaultClass.leverContact = c ∧ n = o) → (u.leverFitted n && (u.lever n).position == .contactFault) = false) :
    (u.contactAtStart b n).faultOver c o := by
  unfold State.contactAtStart; dsimp only
  split
  · rename_i hc
    refine ite_keeps (P := State.faultOver c o) hu ?_
    rw [show State.raise .leverContact n _ = _ from raiseWith_of_noOrder rfl _ _ _]
    refine enterRaise_keeps_over (fun h => ?_) ha hu
    exact nomatch hc.symm.trans (other h)
  · exact hu

/-- R40: a condition that a commission has ended, or that it does not touch, is over after the lever's carry. -/
theorem carryLever_keeps_over {c : FaultClass} {o n : Nat} {l : LeverState} (ha : u.faults.agree c o)
    (hu : (carryEnds l n u).faultOver c o)
    (other : (FaultClass.leverContact = c ∧ n = o) → (u.leverFitted n && (u.lever n).position == .contactFault) = false) :
    (u.carryLever l n).faultOver c o := by
  rw [carryLever_eq]
  have agree : (carryEnds l n u).faults.agree c o := by
    have ends := (listed_agree c o).endFault
    exact carryEnds_onlyEnds l n (fun v => v.faults.agree c o) (fun _ _ _ _ _ h => by rw [State.report_faults]; exact h)
      (fun d p v h => ends d p v h) (fun _ _ _ h => h) u ha
  refine contactAtStart_keeps_over agree hu fun h => ?_
  have found := other h
  obtain ⟨_, _, hc⟩ := carryEnds_only l n u
  have lever : ∀ m, (carryEnds l n u).lever m = u.lever m := lever_of_onlyFaults (carryEnds_only l n u)
  have fitted : ((carryEnds l n u).updLever n fun x => { x with stuckActive := l.stuckActive && u.hasLock n && l.readback }).leverFitted n =
      u.leverFitted n := by rw [hc]; rfl
  have position : (((carryEnds l n u).updLever n fun x => { x with stuckActive := l.stuckActive && u.hasLock n && l.readback }).lever n).position =
      (u.lever n).position := by
    rw [State.lever_updLever]; split <;> rw [lever]
  rw [fitted, position]; exact found

/-- R40: a LEVER_CONTACT that a commission finds. -/
theorem carryLever_shown {l : LeverState} {n : Nat} (hl : l.contactActive = false)
    (found : (u.leverFitted n && (u.lever n).position == .contactFault) = true) : (u.carryLever l n).faultShown .leverContact n := by
  rw [carryLever_eq, hl]
  obtain ⟨_, _, hc⟩ := carryEnds_only l n u
  have lever : ∀ m, (carryEnds l n u).lever m = u.lever m := lever_of_onlyFaults (carryEnds_only l n u)
  unfold State.contactAtStart; dsimp only
  rw [if_pos, if_neg Bool.false_ne_true]
  · exact raise_shown _ _ _
  · have fitted : ((carryEnds l n u).updLever n fun x => { x with stuckActive := l.stuckActive && u.hasLock n && l.readback }).leverFitted n =
        u.leverFitted n := by rw [hc]; rfl
    have position : (((carryEnds l n u).updLever n fun x => { x with stuckActive := l.stuckActive && u.hasLock n && l.readback }).lever n).position =
        (u.lever n).position := by
      rw [State.lever_updLever]; split <;> rw [lever]
    rw [fitted, position]; exact found

/-- R40: the carry of another lever leaves it shown. -/
theorem carryLever_keeps_shown {l : LeverState} {n m : Nat} (h : n ≠ m) (hu : u.faultShown .leverContact m) :
    (u.carryLever l n).faultShown .leverContact m := by
  have ends : ∀ b c v, State.faultShown .leverContact m v → State.faultShown .leverContact m (v.endIf b c n) := fun b c v hv =>
    ite_keeps (P := State.faultShown .leverContact m) (endFault_keeps_shown (fun hc => h hc.2.symm) hv) hv
  rw [carryLever_eq]
  refine contactAtStart_inv (P := State.faultShown .leverContact m) (fun _ _ _ h => h) (fun _ _ h => enterRaise_keeps_shown nofun h) _ _ ?_
  exact ends _ _ _ (ends _ _ _ (ends _ _ _ (ends _ _ _ hu)))

end State

namespace State

variable {s u t : State}

theorem carryLever_position (l : LeverState) (n m : Nat) (u : State) : ((u.carryLever l n).lever m).position = (u.lever m).position := by
  have raised : ∀ v : State, (v.raise .leverContact n).lever m = v.lever m := fun v => by
    rw [show v.raise .leverContact n = v.enterRaise .leverContact n false from raiseWith_of_noOrder rfl _ _ _]
    exact lever_of_onlyFaults (State.enterRaise_only _ _ _ _) m
  have upd : ∀ (g : LeverState → LeverState) (v : State), (∀ x, (g x).position = x.position) →
      ((v.updLever n g).lever m).position = (v.lever m).position := fun g v hg => by
    rw [State.lever_updLever]; split
    · rename_i h; rw [hg, h.1]
    · rfl
  have start : ∀ (b : Bool) (v : State), ((v.contactAtStart b n).lever m).position = (v.lever m).position := fun b v => by
    unfold State.contactAtStart; dsimp only
    refine ite_keeps (P := fun w : State => (w.lever m).position = (v.lever m).position)
      (ite_keeps (P := fun w : State => (w.lever m).position = (v.lever m).position) (upd _ _ fun _ => rfl) ?_) rfl
    rw [raised]; exact upd _ _ fun _ => rfl
  have carried := upd (fun x => { x with stuckActive := l.stuckActive && u.hasLock n && l.readback }) (carryEnds l n u) fun _ => rfl
  rw [carryLever_eq, start, carried, lever_of_onlyFaults (carryEnds_only l n u)]

/-- A lever that a start finds with both contacts made. -/
def foundInFault (s : State) (n : Nat) : Bool := s.leverFitted n && (s.lever n).position == .contactFault

/-- Nothing that a carry of the levers reads has changed. -/
def CarryReads (s u : State) : Prop := u.leverFitted = s.leverFitted ∧ u.hasLock = s.hasLock ∧ ∀ m, (u.lever m).position = (s.lever m).position

theorem CarryReads.carryLever (h : CarryReads s u) (l : LeverState) (n : Nat) : CarryReads s (u.carryLever l n) := by
  obtain ⟨fitted, lock, position⟩ := h
  exact ⟨(carryLever_fitted l n u).1.trans fitted, (carryLever_fitted l n u).2.trans lock,
    fun m => (carryLever_position l n m u).trans (position m)⟩

theorem CarryReads.found (h : CarryReads s u) (n : Nat) : (u.leverFitted n && (u.lever n).position == .contactFault) = s.foundInFault n := by
  obtain ⟨fitted, _, position⟩ := h
  unfold foundInFault; rw [fitted, position]

/-- R40: the levers carried over a commission. -/
def carryLevers (l : Nat → LeverState) (s : State) : State := forEach allLevers (fun n => carryLever (l n) n) s

variable (l : Nat → LeverState)

theorem carryLevers_lever {n : Nat} (hn : leverOk n = true) (s : State) :
    (carryLevers l s).lever n = LeverState.carried (s.leverFitted n) (s.hasLock n) (l n) (s.lever n) := by
  have found := forEach_get (get := State.lever) (env := fun s => (s.leverFitted, s.hasLock))
    (g := fun n e x => LeverState.carried (e.1 n) (e.2 n) (l n) x) (f := fun n => carryLever (l n) n) allLevers (by decide)
    (fun n hn v m => carryLever_lever (l n) (mem_allLevers.1 hn) m v)
    (fun n _ v => Prod.ext (carryLever_fitted (l n) n v).1 (carryLever_fitted (l n) n v).2) s n
  rwa [if_pos (mem_allLevers.2 hn)] at found

/-- What ends, the levers' records and a raise of LEVER_CONTACT keep, a carry of the levers does. -/
theorem carryLevers_inv {P : State → Prop} (ends : ∀ c o u, P u → P (u.endFault c o)) (lever : ∀ n g u, P u → P (u.updLever n g))
    (raise : ∀ n u, P u → P (u.enterRaise .leverContact n false)) (hs : P s) : P (carryLevers l s) :=
  forEach_inv (P := P) (fun n _ hu => carryLever_inv ends lever raise (l n) n hu) _ _ hs

theorem carryLevers_only (s : State) : LeversAndList s (carryLevers l s) :=
  carryLevers_inv (P := LeversAndList s) l
    (fun c o u h => h.trans (by obtain ⟨k, f, e⟩ := State.endFault_only c o u; exact ⟨k, f, u.frame.levers, e⟩))
    (fun n g u h => h.trans ⟨u.link, u.faults, _, rfl⟩)
    (fun n u h => h.trans (by obtain ⟨k, f, e⟩ := State.enterRaise_only .leverContact n false u; exact ⟨k, f, u.frame.levers, e⟩))
    (LeversAndList.refl s)

theorem carryLevers_registered {f : Supervisor} {b : Bool} (h : s.Registered f b) : (carryLevers l s).Registered f b :=
  carryLevers_inv (P := State.Registered f b) l (steady_registered f b).endFault
    (fun _ _ u hu => (steady_registered f b).congr u _ rfl rfl hu) (fun _ _ hu => enterRaise_registered _ _ _ hu) h

theorem carryLevers_agree {c : FaultClass} {o : Nat} (h : s.faults.agree c o) : (carryLevers l s).faults.agree c o :=
  carryLevers_inv (P := fun v => v.faults.agree c o) l (fun d p _ hu => (listed_agree c o).endFault d p _ hu) (fun _ _ _ hu => hu)
    (fun _ _ hu => (listed_agree c o).enterRaise _ _ _ hu) h

theorem carryLever_agree {c : FaultClass} {o : Nat} (x : LeverState) (n : Nat) (h : u.faults.agree c o) : (u.carryLever x n).faults.agree c o :=
  carryLever_inv (P := fun v => v.faults.agree c o) (fun d p _ hu => (listed_agree c o).endFault d p _ hu) (fun _ _ _ hu => hu)
    (fun _ _ hu => (listed_agree c o).enterRaise _ _ _ hu) x n h

/-- R40: a condition that is over stays so, but for a LEVER_CONTACT that is found. -/
theorem carryLevers_keeps_over {c : FaultClass} {o : Nat} (ha : s.faults.agree c o) (ended : s.faultOver c o)
    (other : c ≠ .leverContact) : (carryLevers l s).faultOver c o :=
  (forEach_inv (P := fun v => v.faults.agree c o ∧ v.faultOver c o) (f := fun n => carryLever (l n) n) (fun n _ hv =>
    ⟨carryLever_agree _ _ hv.1, carryLever_keeps_over hv.1 ((carryEnds_onlyEnds (l n) n).keeps_over hv.2) fun h => absurd h.1.symm other⟩)
    _ _ ⟨ha, ended⟩).2

/-- R40: what the carry of its lever ends is over after all of them. -/
theorem carryLevers_own_over {c : FaultClass} {n : Nat} (hn : leverOk n = true) (ha : s.faults.agree c n)
    (other : c = .leverContact → s.foundInFault n = false)
    (own : ∀ v, CarryReads s v → (carryEnds (l n) n v).faultOver c n) : (carryLevers l s).faultOver c n := by
  refine forEach_once (I := fun v => CarryReads s v ∧ v.faults.agree c n) (R := State.faultOver c n) (f := fun n => carryLever (l n) n)
    allLevers (by decide) (mem_allLevers.2 hn) (fun m v hv => ⟨hv.1.carryLever _ _, carryLever_agree _ _ hv.2⟩) (fun v hv => ?_)
    (fun m v hm hv ended => ?_) s ⟨⟨rfl, rfl, fun _ => rfl⟩, ha⟩
  · exact carryLever_keeps_over hv.2 (own v hv.1) fun h => (hv.1.found n).trans (other h.1.symm)
  · exact carryLever_keeps_over hv.2 ((carryEnds_onlyEnds (l m) m).keeps_over ended) fun h => absurd h.2 hm

/-- R40: of the conditions of a lever at a commission: what ends, and the LEVER_CONTACT that is found. -/
theorem carryLevers_faults {n : Nat} (hn : leverOk n = true) (s : State) :
    (s.foundInFault n = true → (l n).contactActive = false → (carryLevers l s).faultShown .leverContact n) ∧
    ((∀ c, s.faults.agree c n) →
      ((l n).contactActive = true → s.foundInFault n = false → (carryLevers l s).faultOver .leverContact n) ∧
      ((l n).forcedActive = true → (carryLevers l s).faultOver .leverForced n) ∧
      ((l n).driveActive = true → (carryLevers l s).faultOver .lockDrive n) ∧
      ((l n).stuckActive = true → (s.hasLock n && (l n).readback) = false → (carryLevers l s).faultOver .lockStuckFree n)) := by
  refine ⟨fun hf hc => ?_, fun ha => ⟨fun h hf => ?_, fun h => ?_, fun h => ?_, fun h hk => ?_⟩⟩
  · exact forEach_once (I := CarryReads s) (R := State.faultShown .leverContact n) (f := fun n => carryLever (l n) n) allLevers (by decide)
      (mem_allLevers.2 hn) (fun m v hv => hv.carryLever _ _) (fun v hv => carryLever_shown hc ((hv.found n).trans hf))
      (fun m v hm _ shown => carryLever_keeps_shown hm shown) s ⟨rfl, rfl, fun _ => rfl⟩
  · refine carryLevers_own_over l hn (ha _) (fun _ => hf) fun v hv => (carryEnds_over (l n) n v).1 ?_
    rw [h, hv.found n, hf]; rfl
  · exact carryLevers_own_over l hn (ha _) nofun fun v _ => (carryEnds_over (l n) n v).2.1 h
  · exact carryLevers_own_over l hn (ha _) nofun fun v _ => (carryEnds_over (l n) n v).2.2.1 h
  · refine carryLevers_own_over l hn (ha _) nofun fun v hv => (carryEnds_over (l n) n v).2.2.2 ?_
    obtain ⟨-, lock, -⟩ := hv
    rw [h, lock, Bool.true_and, Bool.true_and, hk]; rfl

/-- R29, R39: outside RUNNING an evaluation leaves of a lever whose lock is held all but its verdict. -/
theorem evaluate_lever_of_waiting (cause : LockCause) {s : State} (h : s.isRunning = false) {n : Nat}
    (hc : (s.lever n).command = .held) : ∃ v b, (s.evaluate cause).lever n = { s.lever n with verdict := v, blocking := b } := by
  have wants : s.wantsFree n = false := by unfold State.wantsFree; rw [h]; rfl
  rw [evaluate_lever]; split
  · unfold refreshedLever; split
    · unfold LeverState.refreshed; split
      · rw [wants, LeverState.commanded_of_eq (by exact hc)]; exact ⟨_, _, rfl⟩
      · exact ⟨_, _, rfl⟩
    · exact ⟨_, _, rfl⟩
  · exact ⟨_, _, rfl⟩

end State

/-! ### O24: a store write that completes -/

namespace State

variable (tb : Table) (s : State)

/-- R171: the part with its new table, before its blocks start. -/
def commissioned : State :=
  let u := s.endOwners
  let v : State := { u with epoch := u.epoch + 1
                            store := { u.store with active := some tb, copy := .written tb, buffer := none, part := .proving,
                                                    entered := u.now } }
  v.emptyRegister.partReport 3 (be16 tb.fingerprint)

theorem commissioned_eq : ∃ k, s.commissioned tb =
    { s with link := k, faults := { s.endOwners.faults with frozenSet := 0, failedSet := 0 }, epoch := s.epoch + 1
             store := { s.store with active := some tb, copy := .written tb, buffer := none, part := .proving, entered := s.now } } := by
  obtain ⟨_, f, ends⟩ := s.endOwners_only
  unfold State.commissioned; rw [ends]; dsimp only
  exact (report_only _ _ _ _ _).imp fun k h => h

theorem writeComplete_eq : s.writeComplete tb =
    (carryLevers s.lever (s.commissioned tb).startRecords).evaluate .partState := rfl

/-- What a commission's start of the blocks leaves alone. -/
theorem commissioned_started : (s.commissioned tb).startRecords.now = s.now ∧
    (s.commissioned tb).startRecords.frame.supplyOn = s.frame.supplyOn ∧
    (s.commissioned tb).startRecords.store =
      { s.store with active := some tb, copy := .written tb, buffer := none, part := .proving, entered := s.now } ∧
    (s.commissioned tb).startRecords.faults = { s.endOwners.faults with frozenSet := 0, failedSet := 0 } := by
  obtain ⟨faults, -, now, store, supply⟩ := (s.commissioned tb).startRecords_desk
  obtain ⟨k, h⟩ := s.commissioned_eq tb
  rw [faults, now, store, supply, h]; exact ⟨rfl, rfl, rfl, rfl⟩

theorem commissioned_fitted (n : Nat) : (s.commissioned tb).startRecords.leverFitted n = (leverOf n tb.records).isSome ∧
    (s.commissioned tb).startRecords.hasLock n = (leverOf n tb.records).any LeverRec.lockFitted := by
  obtain ⟨-, -, store, -⟩ := s.commissioned_started tb
  unfold State.hasLock State.leverFitted State.leverRec State.table; rw [store]; exact ⟨rfl, rfl⟩

theorem commissioned_lever {n : Nat} (hn : leverOk n = true) : ∃ b, (s.commissioned tb).startRecords.lever n = LeverState.started s.now b (s.lever n) := by
  obtain ⟨k, h⟩ := s.commissioned_eq tb
  rw [startRecords_lever _ hn, h]; exact ⟨_, rfl⟩

/-- R40: which levers a commission finds with both contacts made. -/
theorem commissioned_found {n : Nat} (hn : leverOk n = true) : (s.commissioned tb).startRecords.foundInFault n = true ↔
    (∃ rec, leverOf n tb.records = some rec) ∧ (s.lever n).normalMade = true ∧ (s.lever n).reverseMade = true := by
  obtain ⟨b, lever⟩ := s.commissioned_lever tb hn
  have crossed : ∀ a b : Bool, (positionOf a b == .contactFault) = true ↔ a = true ∧ b = true := by decide
  unfold foundInFault
  rw [(s.commissioned_fitted tb n).1, lever, Bool.and_eq_true, Option.isSome_iff_exists]
  exact and_congr_right fun _ => crossed _ _

/-- R40: a lever after a commission. -/
theorem writeComplete_lever {n : Nat} (hn : leverOk n = true) : ∃ v b k, (s.writeComplete tb).lever n =
    { LeverState.carried ((leverOf n tb.records).isSome) ((leverOf n tb.records).any LeverRec.lockFitted) (s.lever n)
        (LeverState.started s.now k (s.lever n)) with verdict := v, blocking := b } := by
  obtain ⟨k, lever⟩ := s.commissioned_lever tb hn
  obtain ⟨fitted, lock⟩ := s.commissioned_fitted tb n
  obtain ⟨-, -, store, -⟩ := s.commissioned_started tb
  have carried := carryLevers_lever s.lever hn (s.commissioned tb).startRecords
  have only := carryLevers_only s.lever (s.commissioned tb).startRecords
  rw [lever, fitted, lock] at carried
  rw [writeComplete_eq]
  generalize carryLevers s.lever _ = u at carried only ⊢
  have running : u.isRunning = false := by unfold State.isRunning; rw [only.fields.1, store]; rfl
  have held : (u.lever n).command = .held := by rw [carried]; unfold LeverState.carried State.contactFound; split <;> rfl
  obtain ⟨v, b, h⟩ := evaluate_lever_of_waiting .partState running held
  exact ⟨v, b, k, by rw [h, carried]⟩

/-- R171: what the last steps of a commission leave alone. -/
theorem writeComplete_only : LeversAndList (s.commissioned tb).startRecords (s.writeComplete tb) ∧
    (s.writeComplete tb).faults = (carryLevers s.lever (s.commissioned tb).startRecords).faults ∧
    (s.writeComplete tb).frame.supplyOn = (carryLevers s.lever (s.commissioned tb).startRecords).frame.supplyOn := by
  obtain ⟨-, -, store, -⟩ := s.commissioned_started tb
  have lever : ∀ n, leverOk n = true → ((carryLevers s.lever (s.commissioned tb).startRecords).lever n).command = .held := fun n hn => by
    have started := startRecords_held (s.commissioned tb) hn
    rw [carryLevers_lever s.lever hn]; unfold LeverState.carried State.contactFound; split <;> exact started
  have only := carryLevers_only s.lever (s.commissioned tb).startRecords
  rw [writeComplete_eq]
  generalize carryLevers s.lever _ = u at lever only ⊢
  have running : u.isRunning = false := by unfold State.isRunning; rw [only.fields.1, store]; rfl
  obtain ⟨ls, h⟩ := (evaluate_of_held .partState running lever).1
  rw [h]
  exact ⟨only.trans ⟨u.link, u.faults, ls, rfl⟩, rfl, rfl⟩

end State

theorem LeverRec.lockFitted_iff (r : Option LeverRec) : r.any LeverRec.lockFitted = true ↔ ∃ rec, r = some rec ∧ rec.flags.getLsbD 0 = true := by
  cases r with
  | none => exact ⟨nofun, fun ⟨_, h, _⟩ => nomatch h⟩
  | some rec => exact ⟨fun h => ⟨rec, rfl, h⟩, fun ⟨_, h, hf⟩ => Option.some.inj h ▸ hf⟩

/-- R110: a press that has reached the held ring. -/
theorem State.ringStands_of {s : State} {x : SectionId} {d : Direction} {p : Press} (hp : ((s.bell x).side d).press = some p)
    (hr : p.ringReached = true) : s.ringStands x = true := by
  unfold State.ringStands
  cases d with
  | outbound => rw [show (s.bell x).outbound.press = some p from hp, Option.any_some, hr, Bool.true_or]
  | inbound => rw [show (s.bell x).inbound.press = some p from hp, Option.any_some, hr, Bool.or_true]

namespace State

theorem LeversAndList.units {s t : State} (h : LeversAndList s t) : t.store = s.store ∧ t.sections = s.sections ∧ t.bells = s.bells ∧
    t.tracks = s.tracks ∧ t.seqs = s.seqs ∧ t.frame.lowRun = s.frame.lowRun ∧ t.frame.lockSupply = s.frame.lockSupply := by
  obtain ⟨_, _, _, rfl⟩ := h; exact ⟨rfl, rfl, rfl, rfl, rfl, rfl, rfl⟩

theorem sectn_of_sections {s t : State} (h : t.sections = s.sections) (x : SectionId) : t.sectn x = s.sectn x := by
  unfold State.sectn; rw [h]

theorem bell_of_bells {s t : State} (h : t.bells = s.bells) (x : SectionId) : t.bell x = s.bell x := by
  unfold State.bell; rw [h]

theorem assembles_of_store {s t : State} (h : t.store = s.store) (x : SectionId) : t.assembles x = s.assembles x := by
  unfold State.assembles State.hasTable State.sectionFitted State.sectionRec State.table; rw [h]

variable (tb : Table) (s : State)

/-- R66, R73, R126, R171: the records of the other units after a commission. -/
theorem writeComplete_records : (s.writeComplete tb).store =
      { s.store with active := some tb, copy := .written tb, buffer := none, part := .proving, entered := s.now } ∧
    (s.writeComplete tb).tracks = Vector.replicate 24 {} ∧ (s.writeComplete tb).seqs = Vector.replicate 16 {} ∧
    (s.writeComplete tb).frame.lowRun = 0 ∧ (s.writeComplete tb).frame.lockSupply = false ∧
    ∀ x, (s.writeComplete tb).sectn x = (s.sectn x).started ∧
      (s.writeComplete tb).bell x = (s.bell x).started s.now ((s.writeComplete tb).assembles x) := by
  obtain ⟨k, h⟩ := s.commissioned_eq tb
  obtain ⟨-, -, store, -⟩ := s.commissioned_started tb
  obtain ⟨only, -, -⟩ := s.writeComplete_only tb
  obtain ⟨active, sections, bells, tracks, seqs, low, supply⟩ := only.units
  obtain ⟨_, _, _, _, whole⟩ := (s.commissioned tb).startRecords_whole
  have own : (s.commissioned tb).now = s.now ∧ ∀ x, (s.commissioned tb).sectn x = s.sectn x ∧ (s.commissioned tb).bell x = s.bell x := by
    rw [h]; exact ⟨rfl, fun _ => ⟨rfl, rfl⟩⟩
  have started : (s.commissioned tb).startRecords.store = (s.commissioned tb).store ∧
      (s.commissioned tb).startRecords.tracks = Vector.replicate 24 {} ∧ (s.commissioned tb).startRecords.seqs = Vector.replicate 16 {} ∧
      (s.commissioned tb).startRecords.frame.lowRun = 0 ∧ (s.commissioned tb).startRecords.frame.lockSupply = false := by
    rw [whole]; exact ⟨rfl, rfl, rfl, rfl, rfl⟩
  obtain ⟨kept, tracks', seqs', low', supply'⟩ := started
  refine ⟨active.trans store, tracks.trans tracks', seqs.trans seqs', low.trans low', supply.trans supply', fun x => ⟨?_, ?_⟩⟩
  · rw [sectn_of_sections sections, startRecords_sectn, (own.2 x).1]
  · rw [bell_of_bells bells, startRecords_bell, (own.2 x).2, own.1, assembles_of_store (active.trans kept)]

/-- R153, R164, R166: the masks, the register and the frame supply after a commission. -/
theorem writeComplete_registered :
    (s.writeComplete tb).Registered { s.faults with frozenSet := 0, failedSet := 0 } s.frame.supplyOn := by
  have ends : s.endOwners.Registered s.faults s.frame.supplyOn := endOwners_onlyEnds _
    (fun _ _ _ _ _ h => (steady_registered _ _).congr _ _ (State.report_faults _ _ _ _ _) (congrArg FrameUnit.supplyOn (State.report_frame _ _ _ _ _)) h)
    (fun c o _ h => (steady_registered _ _).endFault c o _ h) (fun _ _ _ h => h) s ⟨rfl, rfl, rfl, rfl, rfl⟩
  obtain ⟨masked, cut, -⟩ := ends
  obtain ⟨-, supply, -, faults⟩ := s.commissioned_started tb
  obtain ⟨-, same, on⟩ := s.writeComplete_only tb
  have started : (s.commissioned tb).startRecords.Registered { s.faults with frozenSet := 0, failedSet := 0 } s.frame.supplyOn :=
    ⟨by rw [faults]; exact masked, by rw [faults]; exact cut, by rw [faults], by rw [faults], supply⟩
  exact (steady_registered _ _).congr _ _ same on (carryLevers_registered s.lever started)

/-- R88: the approach locks after a commission. -/
theorem writeComplete_lockn {a : Nat} {rec : ApproachRec} (ha : lockOk a = true) (hr : approachOf a tb.records = some rec) :
    ((s.writeComplete tb).lockn a).phase =
      if ((s.writeComplete tb).lever rec.signal.toNat).position = .normal then .free else .engaged := by
  obtain ⟨k, h⟩ := s.commissioned_eq tb
  have fitted : (s.commissioned tb).approachRec a = some rec := by rw [h]; exact hr
  obtain ⟨only, -, -⟩ := s.writeComplete_only tb
  have lock : (s.writeComplete tb).lockn a = (s.commissioned tb).startRecords.lockn a := by
    unfold State.lockn; rw [only.fields.2.2]
  have position : ∀ n, ((s.writeComplete tb).lever n).position = ((s.commissioned tb).startRecords.lever n).position := fun n => by
    by_cases hn : leverOk n = true
    · obtain ⟨v, b, k, lever⟩ := s.writeComplete_lever tb hn
      obtain ⟨k', start⟩ := s.commissioned_lever tb hn
      rw [lever, start]; unfold LeverState.carried State.contactFound; split <;> rfl
    · rw [lever_of_not_ok hn, lever_of_not_ok hn]
  rw [lock, startRecords_lockn _ ha fitted, position]; rfl

/-- R40, R67, R119, R120, R147: what a commission ends. -/
theorem writeComplete_over {c : FaultClass} {o : Nat} (hs : s.listLawful) (h : s.endOwners.faultOver c o) (hc : c ≠ .leverContact) :
    (s.writeComplete tb).faultOver c o := by
  obtain ⟨-, -, -, faults⟩ := s.commissioned_started tb
  obtain ⟨-, same, -⟩ := s.writeComplete_only tb
  have agree : s.endOwners.faults.agree c o := endOwners_onlyEnds (fun v => v.faults.agree c o)
    (fun _ _ _ _ _ h => by rw [State.report_faults]; exact h) (fun d p _ h => (listed_agree c o).endFault d p _ h) (fun _ _ _ h => h) s
    (listLawful_agree hs c o)
  refine (faultOver_congr same).2 (carryLevers_keeps_over s.lever ?_ ?_ hc)
  · rw [faults]; exact agree
  · unfold State.faultOver; rw [faults]; exact h

/-- R40: what a commission leaves of the conditions of a lever. -/
theorem writeComplete_leverFaults {n : Nat} (hn : leverOk n = true) :
    (((∃ rec, leverOf n tb.records = some rec) ∧ (s.lever n).normalMade = true ∧ (s.lever n).reverseMade = true) →
      (s.lever n).contactActive = false → (s.writeComplete tb).faultShown .leverContact n) ∧
    (s.listLawful →
      ((s.lever n).contactActive = true →
        ¬((∃ rec, leverOf n tb.records = some rec) ∧ (s.lever n).normalMade = true ∧ (s.lever n).reverseMade = true) →
        (s.writeComplete tb).faultOver .leverContact n) ∧
      ((s.lever n).forcedActive = true → (s.writeComplete tb).faultOver .leverForced n) ∧
      ((s.lever n).driveActive = true → (s.writeComplete tb).faultOver .lockDrive n) ∧
      ((s.lever n).stuckActive = true →
        ¬((s.lever n).readback = true ∧ (s.lever n).stuckActive = true ∧
          ∃ rec, leverOf n tb.records = some rec ∧ rec.flags.getLsbD 0 = true) → (s.writeComplete tb).faultOver .lockStuckFree n)) := by
  obtain ⟨-, -, -, faults⟩ := s.commissioned_started tb
  obtain ⟨-, same, -⟩ := s.writeComplete_only tb
  obtain ⟨shown, ended⟩ := carryLevers_faults s.lever hn (s.commissioned tb).startRecords
  have found := s.commissioned_found tb hn
  refine ⟨fun hc ha => (faultShown_congr same).2 (shown (found.2 hc) ha), fun hs => ?_⟩
  have agree : ∀ c, (s.commissioned tb).startRecords.faults.agree c n := fun c => by
    rw [faults]
    exact endOwners_onlyEnds (fun v => v.faults.agree c n) (fun _ _ _ _ _ h => by rw [State.report_faults]; exact h)
      (fun d p _ h => (listed_agree c n).endFault d p _ h) (fun _ _ _ h => h) s (listLawful_agree hs c n)
  obtain ⟨contact, forced, drive, stuck⟩ := ended agree
  refine ⟨fun ha hc => (faultOver_congr same).2 (contact ha (Bool.eq_false_of_not_eq_true fun h => hc (found.1 h))),
    fun ha => (faultOver_congr same).2 (forced ha), fun ha => (faultOver_congr same).2 (drive ha),
    fun ha hk => (faultOver_congr same).2 (stuck ha (Bool.eq_false_of_not_eq_true fun h => hk ?_))⟩
  obtain ⟨lock, back⟩ := Bool.and_eq_true_iff.1 h
  rw [(s.commissioned_fitted tb n).2] at lock
  exact ⟨back, ha, (LeverRec.lockFitted_iff _).1 lock⟩

theorem writeComplete_conditionsEnd (hs : s.listLawful) :
    s.conditionsEnd (fun c n =>
      (c = .leverContact ∧ (∃ rec, leverOf n tb.records = some rec) ∧ (s.lever n).normalMade = true ∧ (s.lever n).reverseMade = true) ∨
      (c = .lockStuckFree ∧ (s.lever n).readback = true ∧ (s.lever n).stuckActive = true ∧
        ∃ rec, leverOf n tb.records = some rec ∧ rec.flags.getLsbD 0 = true)) (s.writeComplete tb) := by
  obtain ⟨supply, tracks, sections⟩ := s.endOwners_over
  refine ⟨fun n hn => ?_, fun h _ => s.writeComplete_over tb hs (supply h) nofun, fun m h1 h24 =>
    ⟨fun h _ => s.writeComplete_over tb hs ((tracks m h1 h24).1 h) nofun, fun h _ => s.writeComplete_over tb hs ((tracks m h1 h24).2 h) nofun⟩,
    fun x => ?_⟩
  · obtain ⟨contact, forced, drive, stuck⟩ := (s.writeComplete_leverFaults tb hn).2 hs
    exact ⟨fun ha hk => contact ha fun hc => hk (.inl ⟨rfl, hc⟩), fun ha _ => forced ha, fun ha _ => drive ha,
      fun ha hk => stuck ha fun hc => hk (.inr ⟨rfl, hc⟩)⟩
  · obtain ⟨mismatch, crossed, ring⟩ := sections x
    refine ⟨fun h _ => s.writeComplete_over tb hs (mismatch h) nofun, fun h _ => ?_, fun ⟨d, p, hp, hr⟩ hf _ =>
      s.writeComplete_over tb hs (ring hf (ringStands_of hp hr)) nofun⟩
    obtain ⟨hf, hc⟩ := Bool.and_eq_true_iff.1 h
    exact s.writeComplete_over tb hs (crossed hf hc) nofun

end State

/-! ### O24: a store write that fails -/

/-- R155, R157, R158: an unmasked raise leaves an unmasked entry or the overflow flag. -/
theorem Supervisor.entered_unmasked (c : FaultClass) (o : Nat) (now : Time) (m : Bool) (f : Supervisor) :
    (∃ e ∈ (f.entered c o now true m).entries, e.cls = c ∧ e.unmasked = true) ∨ (f.entered c o now true m).overflow = true := by
  unfold Supervisor.entered; split
  · rename_i e he
    obtain ⟨hc, ho⟩ := (FaultEntry.is_iff c o e).1 (List.find?_some he)
    refine .inl ⟨_, List.mem_map.2 ⟨e, List.mem_of_find?_eq_some he, rfl⟩, ?_⟩
    rw [if_pos (List.find?_some he)]
    exact ⟨hc, rfl⟩
  · split
    · exact .inl ⟨_, List.mem_append_right _ List.mem_cons_self, rfl, rfl⟩
    · split
      · exact .inl ⟨_, List.mem_append_right _ List.mem_cons_self, rfl, rfl⟩
      · exact .inr rfl

namespace State

variable {s u : State}

/-- R158: an unmasked entry of a class, or the overflow flag. -/
def Tells (c : FaultClass) (s : State) : Prop := (∃ e ∈ s.faults.entries, e.cls = c ∧ e.unmasked = true) ∨ s.faults.overflow = true

theorem Tells.endFault {c : FaultClass} (d : FaultClass) (o : Nat) (h : s.Tells c) : (s.endFault d o).Tells c := by
  unfold State.endFault; split
  · exact h
  · split
    · unfold Tells; rw [State.report_faults]
      refine h.imp_left fun ⟨e, he, hc, hu⟩ => ⟨_, List.mem_map.2 ⟨e, he, rfl⟩, ?_⟩
      split <;> exact ⟨hc, hu⟩
    · exact h

theorem Tells.onlyEnds {c : FaultClass} {f : State → State} (hf : OnlyEnds f) (h : s.Tells c) : (f s).Tells c :=
  hf (Tells c) (fun _ _ _ _ _ hu => by unfold Tells; rw [State.report_faults]; exact hu) (fun d o _ hu => hu.endFault d o)
    (fun _ _ _ hu => hu) s h

theorem endLever_only (n : Nat) (s : State) : OnlyFaults s (s.endLever n) :=
  (((endIf_only _ _ _ _).trans (endIf_only _ _ _ _)).trans (endIf_only _ _ _ _)).trans (endIf_only _ _ _ _)

/-- R38: a condition of a lever is over once the lever is released. -/
theorem releaseLevers_over {c : FaultClass} {n : Nat} (flag : LeverState → Bool) (hn : leverOk n = true)
    (released : ∀ l : LeverState, flag l.released = false) (own : ∀ v : State, flag (v.lever n) = true → (v.endLever n).faultOver c n)
    (h : flag (s.lever n) = true) : (forEach allLevers releaseLever s).faultOver c n := by
  have still : flag ((forEach allLevers releaseLever s).lever n) = true ∨ (forEach allLevers releaseLever s).faultOver c n := by
    refine forEach_inv (P := fun v => flag (v.lever n) = true ∨ v.faultOver c n) (fun m v hv => ?_) _ _ (.inl h)
    rcases hv with hv | hv
    · by_cases hm : m = n
      · exact .inr (hm ▸ own v (hm ▸ hv))
      · refine .inl ?_
        unfold State.releaseLever
        rw [State.lever_updLever, if_neg fun h => hm h.1.symm, lever_of_onlyFaults (endLever_only _ _)]; exact hv
    · exact .inr ((releaseLever_onlyEnds m).keeps_over hv)
  refine still.resolve_left fun hf => ?_
  rw [releaseLevers_lever s hn, released] at hf; cases hf

/-- R38: what the end of a lever's conditions leaves over. -/
theorem endLever_over (n : Nat) (s : State) :
    ((s.lever n).contactActive = true → (s.endLever n).faultOver .leverContact n) ∧
    ((s.lever n).forcedActive = true → (s.endLever n).faultOver .leverForced n) ∧
    ((s.lever n).driveActive = true → (s.endLever n).faultOver .lockDrive n) ∧
    ((s.lever n).stuckActive = true → (s.endLever n).faultOver .lockStuckFree n) := by
  unfold State.endLever; dsimp only
  refine ⟨fun h => ?_, fun h => ?_, fun h => ?_, fun h => ?_⟩
  · exact endIf_keeps_over _ _ _ (endIf_keeps_over _ _ _ (endIf_keeps_over _ _ _ (endIf_over _ _ fun hb => nomatch h.symm.trans hb)))
  · exact endIf_keeps_over _ _ _ (endIf_keeps_over _ _ _ (endIf_over _ _ fun hb => nomatch h.symm.trans hb))
  · exact endIf_keeps_over _ _ _ (endIf_over _ _ fun hb => nomatch h.symm.trans hb)
  · exact endIf_over _ _ fun hb => nomatch h.symm.trans hb

variable (s : State)

/-- R121, R155: STORE raised and ended, and the codes discarded. -/
def storeFaulted : State := forEach allSections discardCodes (s.raiseAndEnd .store 0)

theorem storeFaulted_spec : OnlyFaults s s.storeFaulted ∧ s.storeFaulted.Tells .store ∧ s.storeFaulted.faults.masked = s.faults.masked := by
  have raised : s.raiseAndEnd .store 0 = s.enterRaise .store 0 true := raiseWith_of_noOrder rfl _ _ _
  have told : (s.enterRaise .store 0 true).Tells .store := by
    unfold Tells; rw [State.enterRaise_faults]
    exact Supervisor.entered_unmasked .store 0 _ true _
  have masked : (s.enterRaise .store 0 true).faults.masked = s.faults.masked :=
    (enterRaise_registered (f := s.faults) (b := s.frame.supplyOn) .store 0 true ⟨rfl, rfl, rfl, rfl, rfl⟩).1
  unfold State.storeFaulted; rw [raised]
  have codes : ∀ (x : SectionId) (u : State), OnlyLink u (u.discardCodes x) := fun x u => by
    have one : ∀ (d : Direction) (v : State), OnlyLink v (v.discardCode x d) := fun d v =>
      ite_keeps (P := OnlyLink v) (report_only _ _ _ _ _) (OnlyLink.refl v)
    exact (one _ _).trans (one _ _)
  obtain ⟨k, h⟩ := forEach_keeps OnlyLink.refl OnlyLink.trans codes allSections (s.enterRaise .store 0 true)
  rw [h]
  obtain ⟨l, f, only⟩ := State.enterRaise_only .store 0 true s
  exact ⟨⟨k, f, by rw [only]⟩, told, masked⟩

/-- R38, R172: every condition over, and the levers released. -/
def dropConditions : State := forEach allLevers releaseLever s.endOwners

theorem dropConditions_keeps_over {c : FaultClass} {o : Nat} (h : s.endOwners.faultOver c o) : s.dropConditions.faultOver c o :=
  forEach_inv (P := State.faultOver c o) (fun n _ hv => (releaseLever_onlyEnds n).keeps_over hv) _ _ h

/-- R38: every condition of a lever is over. -/
theorem dropConditions_lever {c : FaultClass} {n : Nat} (flag : LeverState → Bool) (hn : leverOk n = true)
    (released : ∀ l : LeverState, flag l.released = false) (own : ∀ v : State, flag (v.lever n) = true → (v.endLever n).faultOver c n)
    (h : flag (s.lever n) = true) : s.dropConditions.faultOver c n :=
  releaseLevers_over flag hn released own (by rw [lever_of_onlyFaults s.endOwners_only]; exact h)

theorem dropConditions_onlyEnds : OnlyEnds dropConditions := fun P hr he hl u hu =>
  forEach_inv (P := P) (fun n _ hv => releaseLever_onlyEnds n P hr he hl _ hv) _ _ (endOwners_onlyEnds P hr he hl u hu)

/-- R172: the part with STORE told and every condition over, its records not yet given up. -/
def conditionsDropped : State := s.storeFaulted.dropConditions

theorem conditionsDropped_only : LeversAndList s s.conditionsDropped := by
  obtain ⟨⟨k, f, h⟩, -⟩ := s.storeFaulted_spec
  obtain ⟨k', f', h'⟩ := s.storeFaulted.endOwners_only
  refine forEach_inv (P := LeversAndList s) (fun n u hu => ?_) _ _ ⟨k', f', s.frame.levers, by rw [h', h]⟩
  obtain ⟨k, f, h⟩ := endLever_only n u
  exact hu.trans ⟨k, f, _, by unfold State.releaseLever; rw [h]; rfl⟩

theorem conditionsDropped_onlyEnds : s.conditionsDropped.Tells .store ∧ s.conditionsDropped.faults.masked = s.faults.masked := by
  obtain ⟨-, tells, masked⟩ := s.storeFaulted_spec
  unfold State.conditionsDropped
  generalize s.storeFaulted = u at tells masked ⊢
  refine ⟨tells.onlyEnds dropConditions_onlyEnds, dropConditions_onlyEnds (fun v => v.faults.masked = s.faults.masked)
    (fun _ _ _ _ _ h => by rw [State.report_faults]; exact h) (fun c o v h => ?_) (fun _ _ _ h => h) _ masked⟩
  exact ((steady_registered v.faults v.frame.supplyOn).endFault c o v ⟨rfl, rfl, rfl, rfl, rfl⟩).1.trans h

/-- R38, R67, R119, R120, R147: every condition held under the table that goes is over. -/
theorem conditionsDropped_end : s.conditionsEnd (fun _ _ => False) s.conditionsDropped := by
  obtain ⟨only, -⟩ := s.storeFaulted_spec
  unfold State.conditionsDropped
  generalize s.storeFaulted = u at only ⊢
  obtain ⟨supply, tracks, sections⟩ := u.endOwners_over
  have same : u.frame = s.frame ∧ (∀ n, u.lever n = s.lever n) ∧ (∀ m, u.track m = s.track m) ∧ (∀ x, u.sectn x = s.sectn x) ∧
      (∀ x, u.bell x = s.bell x) ∧ (∀ x, u.sectionFitted x = s.sectionFitted x) ∧ ∀ x, u.ringStands x = s.ringStands x := by
    obtain ⟨_, _, h⟩ := only; rw [h]
    exact ⟨rfl, fun _ => rfl, fun _ => rfl, fun _ => rfl, fun _ => rfl, fun _ => rfl, fun _ => rfl⟩
  obtain ⟨frame, lever, track, sectn, bell, fitted, ring⟩ := same
  refine ⟨fun n hn => ?_, fun h _ => u.dropConditions_keeps_over (supply (by rw [frame]; exact h)), fun m h1 h24 =>
    ⟨fun h _ => u.dropConditions_keeps_over ((tracks m h1 h24).1 (by rw [track]; exact h)),
      fun h _ => u.dropConditions_keeps_over ((tracks m h1 h24).2 (by rw [track]; exact h))⟩, fun x => ?_⟩
  · have dropped : ∀ {c : FaultClass} (flag : LeverState → Bool), (∀ l : LeverState, flag l.released = false) →
        (∀ v : State, flag (v.lever n) = true → (v.endLever n).faultOver c n) → flag (s.lever n) = true → u.dropConditions.faultOver c n :=
      fun flag hr own h => u.dropConditions_lever flag hn hr own (by rw [lever]; exact h)
    exact ⟨fun h _ => dropped (·.contactActive) (fun _ => rfl) (fun v => (endLever_over n v).1) h,
      fun h _ => dropped (·.forcedActive) (fun _ => rfl) (fun v => (endLever_over n v).2.1) h,
      fun h _ => dropped (·.driveActive) (fun _ => rfl) (fun v => (endLever_over n v).2.2.1) h,
      fun h _ => dropped (·.stuckActive) (fun _ => rfl) (fun v => (endLever_over n v).2.2.2) h⟩
  · obtain ⟨mismatch, crossed, rings⟩ := sections x
    refine ⟨fun h _ => u.dropConditions_keeps_over (mismatch (by rw [sectn]; exact h)), fun h _ => ?_, fun ⟨d, p, hp, hr⟩ hf _ =>
      u.dropConditions_keeps_over (rings (by rw [fitted]; exact hf) (by rw [ring]; exact ringStands_of hp hr))⟩
    obtain ⟨hf, hc⟩ := Bool.and_eq_true_iff.1 h
    exact u.dropConditions_keeps_over (crossed (by rw [fitted]; exact hf) (by rw [bell]; exact hc))

/-- R38: the levers of a part that has no table any more. -/
theorem conditionsDropped_lever {n : Nat} (hn : leverOk n = true) : s.conditionsDropped.lever n = (s.lever n).released := by
  obtain ⟨only, -⟩ := s.storeFaulted_spec
  unfold State.conditionsDropped
  generalize s.storeFaulted = u at only ⊢
  exact (releaseLevers_lever u.endOwners hn).trans (by rw [lever_of_onlyFaults (only.trans u.endOwners_only)])

/-- R172: no table, and the records given up, before the bells and the sections start. -/
def tableDropped : State :=
  let u := s.conditionsDropped
  let v : State := { u with
    epoch := u.epoch + 1
    store := { u.store with active := none, copy := .spoiled, buffer := none, part := .uncommissioned, entered := u.now }
    tracks := Vector.replicate 24 {}, seqs := Vector.replicate 16 {}, locks := Vector.replicate 16 {}
    frame := { u.frame with lowRun := 0, lockSupply := false } }
  v.emptyRegister.partReport 4 []

theorem tableDropped_eq : ∃ k lv, s.tableDropped =
    { s with link := k, faults := { s.conditionsDropped.faults with frozenSet := 0, failedSet := 0 }, epoch := s.epoch + 1
             store := { s.store with active := none, copy := .spoiled, buffer := none, part := .uncommissioned, entered := s.now }
             tracks := Vector.replicate 24 {}, seqs := Vector.replicate 16 {}, locks := Vector.replicate 16 {}
             frame := { levers := lv, supplyOn := s.frame.supplyOn, lowRun := 0, lockSupply := false } } ∧
    ∀ n, s.tableDropped.lever n = s.conditionsDropped.lever n := by
  have only := s.conditionsDropped_only
  unfold State.tableDropped
  generalize s.conditionsDropped = u at only ⊢
  obtain ⟨_, f, lv, only⟩ := only
  dsimp only
  obtain ⟨k, h⟩ : OnlyLink _ (State.partReport 4 [] _) := report_only .part 0 4 [] _
  rw [h, only]
  exact ⟨k, lv, rfl, fun _ => rfl⟩

theorem writeFail_eq : s.writeFail = forEach allSections startSectn (forEach allSections startBell s.tableDropped) := by
  unfold State.writeFail State.tableDropped State.conditionsDropped State.dropConditions State.storeFaulted; rfl

/-- R66, R73, R126, R172: what a store write that fails leaves. -/
theorem writeFail_records : s.writeFail.store =
      { s.store with active := none, copy := .spoiled, buffer := none, part := .uncommissioned, entered := s.now } ∧
    s.writeFail.tracks = Vector.replicate 24 {} ∧ s.writeFail.seqs = Vector.replicate 16 {} ∧ s.writeFail.locks = Vector.replicate 16 {} ∧
    s.writeFail.frame.lowRun = 0 ∧ s.writeFail.frame.lockSupply = false ∧
    s.writeFail.faults = { s.conditionsDropped.faults with frozenSet := 0, failedSet := 0 } ∧
    (∀ x, s.writeFail.sectn x = (s.sectn x).started ∧ s.writeFail.bell x = (s.bell x).started s.now (s.writeFail.assembles x)) ∧
    ∀ n, leverOk n = true → s.writeFail.lever n = (s.lever n).released := by
  obtain ⟨k, lv, h, lever⟩ := s.tableDropped_eq
  have released : ∀ n, leverOk n = true → s.tableDropped.lever n = (s.lever n).released := fun n hn =>
    (lever n).trans (s.conditionsDropped_lever hn)
  rw [writeFail_eq]
  generalize s.tableDropped = u at h released ⊢
  have bells := startBells_bell u
  obtain ⟨b, hb⟩ := u.startBells_eq
  generalize forEach allSections startBell u = v at bells hb ⊢
  have sections := startSectns_sectn v
  obtain ⟨se, hse⟩ := v.startSectns_eq
  generalize forEach allSections startSectn v = w at sections hse ⊢
  have own : u.now = s.now ∧ (∀ x, v.sectn x = s.sectn x) ∧ (∀ x, u.bell x = s.bell x) ∧ (∀ x, w.bell x = v.bell x) ∧
      (∀ x, w.assembles x = u.assembles x) ∧ ∀ n, w.lever n = u.lever n := by
    rw [hse, hb, h]; exact ⟨rfl, fun _ => rfl, fun _ => rfl, fun _ => rfl, fun _ => rfl, fun _ => rfl⟩
  have fields : w.store = u.store ∧ w.tracks = u.tracks ∧ w.seqs = u.seqs ∧ w.locks = u.locks ∧ w.frame = u.frame ∧ w.faults = u.faults := by
    rw [hse, hb]; exact ⟨rfl, rfl, rfl, rfl, rfl, rfl⟩
  obtain ⟨now, sectn, bell, bell', assembles, levers⟩ := own
  obtain ⟨store, tracks, seqs, locks, frame, faults⟩ := fields
  rw [store, tracks, seqs, locks, frame, faults]
  refine ⟨by rw [h], by rw [h], by rw [h], by rw [h], by rw [h], by rw [h], by rw [h], fun x => ⟨by rw [sections, sectn], ?_⟩,
    fun n hn => (levers n).trans (released n hn)⟩
  rw [bell', bells, bell, now, assembles]

end State

/-- R171: a write that can still complete. -/
theorem State.writeOpen_eq {s : State} : s.writeOpen =
    if s.store.part = .storing ∧ s.now ≤ s.store.entered + 2000 then s.store.buffer else none := by
  unfold State.writeOpen State.isStoring
  exact if_congr (by rw [Bool.and_eq_true, beq_iff_eq, decide_eq_true_eq]; rfl) rfl rfl

/-- R40: the flags and the inputs of a lever carried over a commission. -/
theorem LeverState.carried_started (fitted locked k : Bool) (now : Time) (l : LeverState) :
    let r := LeverState.carried fitted locked l (l.started now k)
    r.contactActive = (fitted && positionOf l.normalMade l.reverseMade == .contactFault) ∧
    r.stuckActive = (l.stuckActive && locked && l.readback) ∧ r.forcedActive = false ∧ r.driveActive = false ∧
    r.command = .held ∧ r.readback = l.readback ∧ r.position = positionOf l.normalMade l.reverseMade := by
  dsimp only
  unfold LeverState.carried State.contactFound LeverState.started; dsimp only
  split
  · rename_i h; exact ⟨h.symm, rfl, rfl, rfl, rfl, rfl, rfl⟩
  · rename_i h; exact ⟨(Bool.eq_false_of_not_eq_true h).symm, rfl, rfl, rfl, rfl, rfl, rfl⟩

theorem storeWrite_completes (s : State) (tb : Table) (hp : s.store.part = .storing) (hb : s.store.buffer = some tb)
    (ht : s.now ≤ s.store.entered + 2000) : exec .storeWriteComplete s = .next (s.writeComplete tb) := by
  have writes : s.writeOpen = some tb := by rw [State.writeOpen_eq, if_pos ⟨hp, ht⟩, hb]
  refine congrArg Host.Outcome.next ?_
  rw [writes]

/-- R171: a completion that cannot be taken. -/
theorem storeWrite_stands {s : State} (h : s.writeOpen = none) : exec .storeWriteComplete s = .next s := by
  refine congrArg Host.Outcome.next ?_
  rw [h]

theorem storeWrite_fails (s : State) : exec .storeWriteFailed s = .next (if s.store.part = .storing then s.writeFail else s) := by
  unfold exec execStoreWriteFailed State.isStoring
  exact congrArg Host.Outcome.next (if_congr beq_iff_eq rfl rfl)

/-- Settles O24. -/
theorem storeWrite : Obligations.StoreWrite := by
  refine ⟨fun s tb hp hb ht => ⟨s.writeComplete tb, storeWrite_completes s tb hp hb ht, ?_⟩, fun s h => storeWrite_stands ?_,
    fun s => ⟨fun hp => ⟨by rw [storeWrite_fails, if_neg hp], storeWrite_stands ?_⟩, fun hp =>
      ⟨s.writeFail, by rw [storeWrite_fails, if_pos hp], ?_⟩⟩⟩
  · beta_reduce
    obtain ⟨store, tracks, seqs, low, supply, records⟩ := s.writeComplete_records tb
    obtain ⟨masked, cut, frozen, failed, on⟩ := s.writeComplete_registered tb
    refine ⟨store, tracks, seqs, frozen, failed, masked, cut, on, fun x => ?_, fun x => ?_, low, supply, ⟨fun n hn => ?_, fun hs =>
      s.writeComplete_conditionsEnd tb hs⟩, fun n hn => ?_, fun a rec hr ha => s.writeComplete_lockn tb ha hr⟩
    · obtain ⟨sectn, bell⟩ := records x
      rw [sectn, bell]; exact ⟨rfl, rfl, rfl, rfl, rfl, rfl⟩
    · rw [(records x).2, BellState.started_eq]
    · obtain ⟨v, b, k, lever⟩ := s.writeComplete_lever tb hn
      obtain ⟨contact, stuck, forced, drive, -⟩ := (s.lever n).carried_started (leverOf n tb.records).isSome
        ((leverOf n tb.records).any LeverRec.lockFitted) k s.now
      have crossed : ∀ a b : Bool, (positionOf a b == .contactFault) = true ↔ a = true ∧ b = true := by decide
      rw [lever]
      refine ⟨(Bool.eq_iff_iff.1 contact).trans ?_, (Bool.eq_iff_iff.1 stuck).trans ?_, forced, drive, (s.writeComplete_leverFaults tb hn).1⟩
      · rw [Bool.and_eq_true, Option.isSome_iff_exists]
        exact and_congr_right fun _ => crossed _ _
      · rw [Bool.and_eq_true, Bool.and_eq_true, LeverRec.lockFitted_iff]
        exact ⟨fun ⟨⟨h1, h2⟩, h3⟩ => ⟨h3, h1, h2⟩, fun ⟨h3, h1, h2⟩ => ⟨⟨h1, h2⟩, h3⟩⟩
    · obtain ⟨v, b, k, lever⟩ := s.writeComplete_lever tb hn
      obtain ⟨-, -, -, -, rest⟩ := (s.lever n).carried_started (leverOf n tb.records).isSome
        ((leverOf n tb.records).any LeverRec.lockFitted) k s.now
      rw [lever]; exact rest
  · rw [State.writeOpen_eq]
    obtain h | h := h
    · rw [h, ite_self]
    · exact if_neg fun hc => absurd hc.2 (Nat.not_le.2 h)
  · rw [State.writeOpen_eq, if_neg fun hc => hp hc.1]
  · beta_reduce
    obtain ⟨store, tracks, seqs, locks, low, supply, faults, records, levers⟩ := s.writeFail_records
    obtain ⟨tells, masked⟩ := s.conditionsDropped_onlyEnds
    have ended := s.conditionsDropped_end
    unfold State.Tells at tells
    unfold State.conditionsEnd State.faultOver at ended
    generalize s.conditionsDropped.faults = f at faults tells masked ended
    refine ⟨store, tracks, seqs, locks, by rw [faults], by rw [faults], by rw [faults]; exact masked, by rw [faults]; exact tells,
      fun x => ?_, fun x => ?_, low, supply, fun _ => ?_, fun n hn => ?_⟩
    · rw [(records x).1]; exact ⟨rfl, rfl, rfl⟩
    · rw [(records x).2, BellState.started_eq]
    · unfold State.conditionsEnd State.faultOver
      rw [faults]; exact ended
    · rw [levers n hn]; exact ⟨rfl, rfl, rfl, rfl, rfl, rfl⟩

/-! ### O19: what the steps of a box reset keep -/

namespace State

/-- R31: the LOCK_DRIVE that a lever holds is shown. -/
def DriveShown (n : Nat) (s : State) : Prop := (s.lever n).driveActive = true → s.faultShown .lockDrive n

theorem DriveShown.setCommand {n : Nat} (cause : LockCause) (m : Nat) (c : LockCommand) {s : State} (h : s.DriveShown n) :
    (s.setCommand cause m c).DriveShown n := by
  unfold State.setCommand; dsimp only; split
  · exact h
  · intro hd
    rw [State.endIf_lever, State.report_lever, State.lever_updLever] at hd
    have told : ∀ {u : State}, u.faultShown .lockDrive n → (¬(n = m) ∨ ((c == .held) && (s.lever m).driveActive) = false) →
        (u.endIf ((c == .held) && (s.lever m).driveActive) .lockDrive m).faultShown .lockDrive n := fun hu hc => by
      unfold State.endIf; split
      · rename_i he
        exact endFault_keeps_shown (fun h => hc.elim (fun hn => hn h.2) fun hb => nomatch he.symm.trans hb) hu
      · exact hu
    split at hd
    · rename_i hm
      obtain ⟨active, free⟩ := Bool.and_eq_true_iff.1 hd
      refine told ((report_faultShown _ _ _ _ _).2 (h (hm.1 ▸ active))) (.inr ?_)
      cases c with
      | free => rfl
      | held => exact nomatch free
    · rename_i hm
      by_cases hn : n = m
      · have out : ¬(1 ≤ m ∧ m ≤ 48) := fun hb => hm ⟨hn, hb⟩
        have rest : s.lever m = default := lever_of_not_ok fun hk => out (by simpa [leverOk] using hk)
        refine told ((report_faultShown _ _ _ _ _).2 (h hd)) (.inr ?_)
        rw [rest]; exact Bool.and_false _
      · exact told ((report_faultShown _ _ _ _ _).2 (h hd)) (.inl hn)

/-- R31: an evaluation clears the LOCK_DRIVE that it ends. -/
theorem DriveShown.evaluate {n : Nat} (cause : LockCause) {s : State} (h : s.DriveShown n) : (s.evaluate cause).DriveShown n := by
  refine forEach_inv (P := DriveShown n) (fun m u hu => ?_) _ s h
  have judged : (u.updLever m (LeverState.judged (u.verdictOf m))).DriveShown n := fun hd => by
    refine hu ?_
    rw [State.lever_updLever] at hd
    split at hd
    · rename_i hm; rw [hm.1]; exact hd
    · exact hd
  unfold State.refreshLever
  exact ite_keeps (P := DriveShown n) (ite_keeps (P := DriveShown n) (judged.setCommand _ _ _) judged) hu

end State

/-- What the lifts of a box reset do to the sections of `Z` and the circuits of `T`. -/
structure Resets (Z : SectionId → Prop) (T : Nat → Prop) (P : State → Prop) : Prop where
  report : ∀ c o e d s, P s → P (s.report c o e d)
  evaluate : ∀ c s, P s → P (s.evaluate c)
  supply : ∀ s, P s → P { s with frame := { s.frame with supplyOn := true } }
  sect : ∀ x f s, Z x → (∀ r : SectionState, (f r).mismatch = true → r.mismatch = true) → P s → P (s.updSect x f)
  ended : ∀ x s, Z x → (s.sectn x).mismatch = false → P s → P (s.endFault .indicatorMismatch (secCode x).toNat)
  notice : ∀ c q s, P s → P (s.sendNotice c q)
  lift : ∀ t f s, T t → TrackLift s t (f (s.track t)) → P s → P (s.updTrack t f)
  irregular : ∀ x s, Z x → P s → P (s.irregular x)

namespace Resets

variable {Z : SectionId → Prop} {T : Nat → Prop} {P : State → Prop} (h : Resets Z T P) {s : State} {x : SectionId} (hx : Z x)
include h

theorem sectReports (rows : List (Nat × List Byte)) : ∀ {s : State}, P s → P (s.sectReports x rows) := by
  induction rows with
  | nil => exact id
  | cons r rows ih => exact fun hs => ih (h.report _ _ _ _ _ hs)

include hx

/-- An update of a section that no cause of INDICATOR_MISMATCH comes from. -/
theorem quiet {f : SectionState → SectionState} (hf : ∀ r : SectionState, (f r).mismatch = r.mismatch) (hs : P s) : P (s.updSect x f) :=
  h.sect x f s hx (fun r hr => (hf r).symm.trans hr) hs

theorem correspond (hs : P s) : P (s.correspond x) := by
  have put : ∀ b, P (s.updSect x fun y => { y with outOfCorr := b }) := fun b => h.quiet hx (fun _ => rfl) hs
  unfold State.correspond; dsimp only; split
  · exact hs
  · split
    · exact hs
    · exact ite_keeps (ite_keeps (h.report _ _ _ _ _ (put false)) hs) (h.report _ _ _ _ _ (put true))

theorem enterState (b : BlockState) (w : StateCause) (rs : List (Nat × List Byte)) (hs : P s) : P (s.enterState x b w rs) := by
  have entered : P (s.updSect x fun r => { (r.entering b).driven (driveOf (some b)) with state := some b, retest := false }) :=
    h.sect x _ s hx (fun r hr => (State.entered_eq b r).2 hr) hs
  rw [State.enterState_eq]
  refine h.evaluate _ _ (h.correspond hx (h.sectReports _ (h.report _ _ _ _ _ ?_)))
  unfold State.endIf; split
  · rename_i he
    exact h.ended x _ hx (by simpa using (Bool.and_eq_true_iff.1 he).2) entered
  · exact entered

theorem followPolarity (c : Bool) (hs : P s) : P (s.followPolarity x c) :=
  State.followPolarity_keeps (P := P) (fun _ _ _ hu => h.report _ _ _ _ _ hu) (fun _ _ hu => h.quiet hx (fun _ => rfl) hu)
    (fun b w rs hu => h.enterState hx b w rs hu) c hs

theorem holdHandle (b : Bool) (hs : P s) : P (s.holdHandle x b) := h.report _ _ _ _ _ (h.quiet hx (fun _ => rfl) hs)

theorem blockBackTest (hs : P s) : P (s.blockBackTest x) := by
  rcases State.blockBackTest_cases x s with he | ⟨rec, -, -, he⟩ <;> rw [he]
  · exact hs
  · exact h.notice _ _ _ (h.quiet hx (fun _ => rfl) hs)

theorem handleMove (b : BlockState) (hs : P s) : P (s.handleMove x b) := by
  unfold State.handleMove; split
  · exact ite_keeps (h.enterState hx _ _ _ hs) (h.holdHandle hx _ hs)
  · exact h.enterState hx _ _ _ hs
  · exact ite_keeps (h.enterState hx _ _ _ hs) (h.holdHandle hx _ hs)
  · exact h.blockBackTest hx (h.holdHandle hx _ hs)
  · exact h.holdHandle hx _ hs

theorem handleEvent (hs : P s) : P (s.handleEvent x) := by
  cases hb : (s.sectn x).state with
  | none => rw [State.handleEvent_unstated hb]; exact hs
  | some b =>
    cases hz : (s.sectn x).frozen with
    | true => rw [State.handleEvent_frozen hb hz]; exact h.report _ _ _ _ _ hs
    | false =>
      by_cases hh : (s.sectn x).handle = handleFor b
      · rw [State.handleEvent_corresponds hb hz hh]; exact h.correspond hx hs
      · cases hst : s.isStoring with
        | true => rw [State.handleEvent_storing hb hz hh hst]; exact h.holdHandle hx _ hs
        | false => rw [State.handleEvent_moves hb hz hh hst]; exact h.handleMove hx b hs

theorem handleHeld (hs : P s) : P (s.handleHeld x) := by
  unfold State.handleHeld; dsimp only; split
  · exact hs
  · exact ite_keeps (h.report _ _ _ _ _ hs) (h.holdHandle hx _ hs)

theorem unfreeze (hs : P s) : P (s.unfreeze x) := by
  have thawed := h.followPolarity hx false (h.evaluate .verdict _ (h.report .sec (secCode x).toNat 8 [1] _
    (h.quiet (f := fun r => { r with frozen := false }) hx (fun _ => rfl) hs)))
  unfold State.unfreeze; split
  · dsimp only; split
    · exact h.handleHeld hx thawed
    · exact h.handleHeld hx thawed
    · exact h.handleEvent hx thawed
    · exact h.handleEvent hx thawed
    · exact h.handleEvent hx thawed
  · exact hs

end Resets

theorem Resets.liftTrack {Z : SectionId → Prop} {T : Nat → Prop} {P : State → Prop} (h : Resets Z T P) {t : Nat} (ht : T t) {s : State}
    (hs : P s) : P (s.liftTrack t) :=
  State.liftTrack_cases t (fun f hf _ => h.report _ _ _ _ _ (h.lift t f s ht hf hs)) hs

/-- R164: what the lifts keep. -/
theorem Resets.sendLifts {secs : BitVec 4} {trks : BitVec 24} {P : State → Prop}
    (h : Resets (fun x => secs.getLsbD (secCode x).toNat = true) (fun t => trks.getLsbD (t - 1) = true) P) (frame : Bool) {s : State}
    (hs : P s) : P (s.sendLifts frame secs trks) := by
  have restored : P (if frame then s.restoreFrame else s) := ite_keeps (h.evaluate _ _ (h.report _ _ _ _ _ (h.supply s hs))) hs
  refine forEach_inv_mem (P := P) _ (fun y hy _ hv => ?_) _ (forEach_inv (P := P) (fun n v hv => ?_) _ _
    (forEach_inv_mem (P := P) _ (fun y hy _ hv => ?_) _ restored))
  · exact h.irregular y _ (List.mem_filter.1 (List.mem_filter.1 hy).1).2 hv
  · split
    · rename_i hb; exact h.liftTrack hb hv
    · exact hv
  · exact h.unfreeze (List.mem_filter.1 hy).2 hv

/-- What a press of the box reset key leaves of the conditions that the owners hold, and of what the rules read. -/
structure Untouched (s t : State) : Prop where
  lever : ∀ n, (t.lever n).contactActive = (s.lever n).contactActive ∧ (t.lever n).forcedActive = (s.lever n).forcedActive ∧
    (t.lever n).stuckActive = (s.lever n).stuckActive ∧ (t.lever n).position = (s.lever n).position
  lockSupply : t.frame.lockSupply = s.frame.lockSupply
  latch : ∀ q, (t.seqn q).latch = (s.seqn q).latch
  bells : t.bells = s.bells
  store : t.store = s.store
  epoch : t.epoch = s.epoch
  track : ∀ m, (t.track m).channelFault = (s.track m).channelFault ∧ (t.track m).degraded = (s.track m).degraded
  notices : ∀ n ∈ s.notices, n ∈ t.notices

namespace Untouched

variable {s t u : State}

theorem refl (s : State) : Untouched s s :=
  ⟨fun _ => ⟨rfl, rfl, rfl, rfl⟩, rfl, fun _ => rfl, rfl, rfl, rfl, fun _ => ⟨rfl, rfl⟩, fun _ => id⟩

theorem trans (h : Untouched s t) (g : Untouched t u) : Untouched s u where
  lever n := by
    obtain ⟨h1, h2, h3, h4⟩ := h.lever n
    obtain ⟨g1, g2, g3, g4⟩ := g.lever n
    exact ⟨g1.trans h1, g2.trans h2, g3.trans h3, g4.trans h4⟩
  lockSupply := g.lockSupply.trans h.lockSupply
  latch q := (g.latch q).trans (h.latch q)
  bells := g.bells.trans h.bells
  store := g.store.trans h.store
  epoch := g.epoch.trans h.epoch
  track m := ⟨(g.track m).1.trans (h.track m).1, (g.track m).2.trans (h.track m).2⟩
  notices n hn := g.notices n (h.notices n hn)

theorem onlyFaults (h : OnlyFaults s t) : Untouched s t := by
  obtain ⟨_, _, rfl⟩ := h
  exact ⟨fun _ => ⟨rfl, rfl, rfl, rfl⟩, rfl, fun _ => rfl, rfl, rfl, rfl, fun _ => ⟨rfl, rfl⟩, fun _ => id⟩

theorem updSect (x : SectionId) (f : SectionState → SectionState) (s : State) : Untouched s (s.updSect x f) :=
  ⟨fun _ => ⟨rfl, rfl, rfl, rfl⟩, rfl, fun _ => rfl, rfl, rfl, rfl, fun _ => ⟨rfl, rfl⟩, fun _ => id⟩

theorem evaluate (cause : LockCause) (s : State) : Untouched s (s.evaluate cause) := by
  obtain ⟨l, f, fr, h⟩ := State.evaluate_only cause s
  have lockSupply : (s.evaluate cause).frame.lockSupply = s.frame.lockSupply :=
    State.evaluate_keeps (P := fun u => u.frame.lockSupply = s.frame.lockSupply)
      (fun _ _ _ _ u hu => by rw [State.report_frame]; exact hu)
      (fun o u hu => by rw [(State.endFault_only _ o u).frame_eq]; exact hu) (fun _ _ _ hu => hu) cause rfl
  refine ⟨fun n => ?_, lockSupply, fun q => by rw [h]; rfl, by rw [h], by rw [h], by rw [h], fun m => by rw [h]; exact ⟨rfl, rfl⟩,
    fun n hn => by rw [h]; exact hn⟩
  obtain ⟨_, _, _, _, _, _, lever⟩ := State.evaluate_lever_same cause s n
  rw [lever]; exact ⟨rfl, rfl, rfl, rfl⟩

theorem updTrack (m : Nat) {f : TrackState → TrackState}
    (hf : (f (s.track m)).channelFault = (s.track m).channelFault ∧ (f (s.track m)).degraded = (s.track m).degraded) :
    Untouched s (s.updTrack m f) where
  lever _ := ⟨rfl, rfl, rfl, rfl⟩
  lockSupply := rfl
  latch _ := rfl
  bells := rfl
  store := rfl
  epoch := rfl
  track k := by
    rw [State.track_updTrack]; split
    · rename_i h; rw [h.1]; exact hf
    · exact ⟨rfl, rfl⟩
  notices _ := id

theorem updSeq (q : Nat) {f : SequenceState → SequenceState} (hf : ∀ r, (f r).latch = r.latch) : Untouched s (s.updSeq q f) where
  lever _ := ⟨rfl, rfl, rfl, rfl⟩
  lockSupply := rfl
  latch k := by
    rw [State.seqn_updSeq]; split
    · rename_i h; rw [hf, h.1]
    · rfl
  bells := rfl
  store := rfl
  epoch := rfl
  track _ := ⟨rfl, rfl⟩
  notices _ := id

theorem freezeSection (x : SectionId) (s : State) : Untouched s (s.freezeSection x) := by
  have frozen : Untouched s (s.updSect x fun r => { r with frozen := true }) := updSect x _ s
  unfold State.freezeSection
  exact ite_keeps (P := Untouched s) (refl s) ((frozen.trans (onlyFaults (State.report_only _ _ _ _ _).faults)).trans (evaluate _ _))

end Untouched

/-- What the raises of a box reset do, each with the order it sends. -/
structure Hands (P : State → Prop) : Prop where
  report : ∀ c o e d s, P s → P (State.report c o e d s)
  evaluate : ∀ c s, P s → P (State.evaluate c s)
  enter : ∀ c o s, P s → P (State.enterRaise c o false s)
  register : ∀ r o s, P s → P (State.register r o s)
  cut : ∀ s, P s → P { s with frame := { s.frame with supplyOn := false } }
  fail : ∀ t s, (s.track t).state = .clear ∨ (s.track t).state = .occupied → P s → P (s.updTrack t TrackState.failedBy)
  mark : ∀ t s, (s.track t).state = .outOfUse → P s → P (s.updTrack t TrackState.markedBy)
  broken : ∀ q s, P s → P (s.updSeq q fun r => { r with step := 0, stepTime := none })
  freeze : ∀ x s, (s.sectn x).frozen = false → P s → P (s.updSect x SectionState.frozenBy)

namespace Hands

variable {P : State → Prop} (h : Hands P) {s : State}
include h

theorem entryHanded (t : Nat) (w : BreakCause) (hs : P s) : P (s.entryHanded t w) := by
  refine forEach_inv (P := P) (fun q u hu => ?_) _ s hs
  unfold State.entrySeq; split
  · exact hu
  · exact ite_keeps (h.report _ _ _ _ _ (h.broken q u hu)) hu

theorem deliver (r : Order) (o : Nat) (hs : P s) : P (s.deliver r o) := by
  cases r with
  | frameCut => exact ite_keeps (P := P) (h.report _ _ _ _ _ (h.evaluate _ _ (h.cut s hs))) hs
  | fail =>
    simp only [State.deliver]
    unfold State.failTrack; dsimp only; split
    · exact hs
    · rename_i ho; exact h.report _ _ _ _ _ (h.mark o s ho hs)
    · rename_i ho; exact h.entryHanded _ _ (h.evaluate _ _ (h.report _ _ _ _ _ (h.fail o s (.inl ho) hs)))
    · rename_i ho; exact h.entryHanded _ _ (h.report _ _ _ _ _ (h.fail o s (.inr ho) hs))
  | freeze =>
    simp only [State.deliver]; split
    · exact hs
    · rename_i x _
      unfold State.freezeSection; split
      · exact hs
      · rename_i hz
        exact h.evaluate _ _ (h.report _ _ _ _ _ (h.freeze x s (by simpa using hz) hs))

theorem raise (c : FaultClass) (o : Nat) (hs : P s) : P (s.raise c o) := by
  have entered := h.enter c o s hs
  unfold State.raise State.raiseWith; dsimp only; split
  · exact entered
  · exact ite_keeps (h.deliver _ _ (h.register _ _ _ entered)) entered

end Hands

theorem untouched_hands (s : State) : Hands (Untouched s) where
  report _ _ _ _ _ h := h.trans (.onlyFaults (State.report_only _ _ _ _ _).faults)
  evaluate _ _ h := h.trans (.evaluate _ _)
  enter _ _ _ h := h.trans (.onlyFaults (State.enterRaise_only _ _ _ _))
  register _ _ _ h := h.trans (.onlyFaults (State.register_only _ _ _))
  cut _ h := h.trans ⟨fun _ => ⟨rfl, rfl, rfl, rfl⟩, rfl, fun _ => rfl, rfl, rfl, rfl, fun _ => ⟨rfl, rfl⟩, fun _ => id⟩
  fail _ _ _ h := h.trans (.updTrack _ ⟨rfl, rfl⟩)
  mark _ _ _ h := h.trans (.updTrack _ ⟨rfl, rfl⟩)
  broken _ _ h := h.trans (.updSeq _ fun _ => rfl)
  freeze _ _ _ h := h.trans (.updSect _ _ _)

theorem untouched_resets (Z : SectionId → Prop) (T : Nat → Prop) (s : State) : Resets Z T (Untouched s) where
  report _ _ _ _ _ h := h.trans (.onlyFaults (State.report_only _ _ _ _ _).faults)
  evaluate _ _ h := h.trans (.evaluate _ _)
  supply _ h := h.trans ⟨fun _ => ⟨rfl, rfl, rfl, rfl⟩, rfl, fun _ => rfl, rfl, rfl, rfl, fun _ => ⟨rfl, rfl⟩, fun _ => id⟩
  sect _ _ _ _ _ h := h.trans (.updSect _ _ _)
  ended _ _ _ _ h := h.trans (.onlyFaults (State.endFault_only _ _ _))
  notice _ _ _ h := h.trans ⟨fun _ => ⟨rfl, rfl, rfl, rfl⟩, rfl, fun _ => rfl, rfl, rfl, rfl, fun _ => ⟨rfl, rfl⟩,
    fun _ hn => List.mem_append_left _ hn⟩
  lift t f u _ hf h := by
    refine h.trans (.updTrack t ?_)
    obtain ⟨rec, -, -, ⟨-, hf⟩ | ⟨-, hf⟩⟩ := hf <;> rw [hf] <;> exact ⟨rfl, rfl⟩
  irregular x u _ h := by
    have entered : Untouched u (u.enterRaise .blockIrregular (secCode x).toNat true) := .onlyFaults (State.enterRaise_only _ _ _ _)
    have ordered : ∀ v : State, Untouched v ((v.register .freeze (secCode x).toNat).deliver .freeze (secCode x).toNat) := fun v => by
      refine (Untouched.onlyFaults (State.register_only .freeze (secCode x).toNat v)).trans ?_
      simp only [State.deliver]; split
      · exact .refl _
      · exact .freezeSection _ _
    refine h.trans ?_
    unfold State.irregular State.raiseAndEnd State.raiseWith
    exact ite_keeps (P := Untouched u) (entered.trans (ordered _)) entered

/-! ### The fault list under a box reset (R163, R164) -/

/-- An ACTIVE entry that passes a test. -/
def Supervisor.Stands (p : FaultEntry → Prop) (f : Supervisor) : Prop := ∃ e ∈ f.entries, e.active = true ∧ p e

/-- A predicate of the list that the ends and the momentary raises of the lifts of the sections of `Z` keep. -/
structure LiftKept (Z : SectionId → Prop) (P : Supervisor → Prop) : Prop where
  drive : ∀ o s, P (State.faults s) → P (s.endFault .lockDrive o).faults
  mismatch : ∀ x s, Z x → P (State.faults s) → P (s.endFault .indicatorMismatch (secCode x).toNat).faults
  entered : ∀ x now u f, Z x → P f → P (f.entered .blockIrregular (secCode x).toNat now u true)
  sounded : ∀ now u f, P f → P (f.sounded .blockIrregular now u)
  freeze : ∀ x f, Z x → P f → P { f with frozenSet := f.frozenSet ||| (1#4 <<< (secCode x).toNat) }

namespace LiftKept

variable {Z : SectionId → Prop} {P : Supervisor → Prop} (h : LiftKept Z P)
include h

theorem irregular {x : SectionId} (hx : Z x) {s : State} (hs : P s.faults) : P (s.irregular x).faults := by
  have entered : P (s.enterRaise .blockIrregular (secCode x).toNat true).faults := by
    rw [State.enterRaise_faults]; exact h.sounded _ _ _ (h.entered x _ _ _ hx hs)
  unfold State.irregular State.raiseAndEnd State.raiseWith
  exact ite_keeps (P := fun u : State => P u.faults) (State.deliver_keeps (P := fun u : State => P u.faults) h.drive
    (fun _ _ hf hu => by rw [hf]; exact hu) _ _ (h.freeze x _ hx entered)) entered

theorem resets (T : Nat → Prop) : Resets Z T fun s => P s.faults where
  report _ _ _ _ _ hs := by rw [State.report_faults]; exact hs
  evaluate c s hs := State.evaluate_keeps (P := fun u : State => P u.faults)
    (fun _ _ _ _ _ hu => by rw [State.report_faults]; exact hu) h.drive (fun _ _ _ hu => hu) c hs
  supply _ hs := hs
  sect _ _ _ _ _ hs := hs
  ended x s hx _ hs := h.mismatch x s hx hs
  notice _ _ _ hs := hs
  lift _ _ _ _ _ hs := hs
  irregular _ _ hx hs := h.irregular hx hs

end LiftKept

theorem Listed.liftKept {P : Supervisor → Prop} (h : Listed P) (Z : SectionId → Prop) : LiftKept Z P where
  drive o s := h.endFault .lockDrive o s
  mismatch _ s _ := h.endFault _ _ s
  entered _ _ _ _ _ := h.entered _ _ _ _ _ _
  sounded _ _ _ := h.sounded _ _ _ _
  freeze x f _ hf := h.register .freeze (secCode x).toNat (({} : State).setFaults f) hf

/-- R159: the entries after an end. -/
theorem State.endFault_entries (c : FaultClass) (o : Nat) (s : State) :
    (s.endFault c o).faults.entries = s.faults.entries ∨
    (s.endFault c o).faults.entries = s.faults.entries.map (FaultEntry.endedBy c o) := by
  unfold State.endFault; split
  · exact .inl rfl
  · split
    · rw [State.report_faults]; exact .inr rfl
    · exact .inl rfl

theorem FaultEntry.active_of_endedBy {c : FaultClass} {o : Nat} {e : FaultEntry} (h : (e.endedBy c o).active = true) :
    e.endedBy c o = e := by
  unfold FaultEntry.endedBy at h ⊢; split at h
  · cases h
  · rename_i hc; exact if_neg hc

namespace Supervisor

variable {p : FaultEntry → Prop} {c : FaultClass} {o : Nat}

theorem Stands.of_endFault {s : State} (h : (s.endFault c o).faults.Stands p) : s.faults.Stands p := by
  obtain ⟨e, he, ha, hp⟩ := h
  rcases s.endFault_entries c o with h | h
  · exact ⟨e, h ▸ he, ha, hp⟩
  · rw [h] at he
    obtain ⟨g, hg, rfl⟩ := List.mem_map.1 he
    have same := FaultEntry.active_of_endedBy ha
    exact ⟨g, hg, same ▸ ha, same ▸ hp⟩

theorem Stands.endFault (other : ∀ e, p e → e.is c o = false) {s : State} (h : s.faults.Stands p) : (s.endFault c o).faults.Stands p := by
  obtain ⟨e, he, ha, hp⟩ := h
  rcases s.endFault_entries c o with h | h
  · exact ⟨e, by rw [h]; exact he, ha, hp⟩
  · have same : e.endedBy c o = e := if_neg (by rw [other e hp]; exact Bool.false_ne_true)
    exact ⟨e, by rw [h]; exact List.mem_map.2 ⟨e, he, same⟩, ha, hp⟩

theorem Stands.of_entered {now : Time} {u : Bool} {f : Supervisor} (h : (f.entered c o now u true).Stands p) : f.Stands p := by
  have last : ∀ {es : List FaultEntry}, (∀ e ∈ es, e ∈ f.entries) → (∃ e ∈ es ++ [newEntry c o now u true], e.active = true ∧ p e) →
      f.Stands p := fun {es} hes ⟨e, he, ha, hp⟩ => by
    rcases List.mem_append.1 he with he | he
    · exact ⟨e, hes e he, ha, hp⟩
    · rw [List.mem_singleton.1 he] at ha; cases ha
  unfold Supervisor.entered at h; split at h
  · obtain ⟨e, he, ha, hp⟩ := h
    obtain ⟨g, hg, rfl⟩ := List.mem_map.1 he
    split at ha
    · cases ha
    · rename_i hc; rw [if_neg hc] at hp; exact ⟨g, hg, ha, hp⟩
  · split at h
    · exact last (fun _ => id) h
    · split at h
      · exact last (fun _ => List.mem_of_mem_eraseP) h
      · exact h

theorem Stands.entered (other : ∀ e, p e → e.is c o = false) {now : Time} {u m : Bool} {f : Supervisor} (h : f.Stands p) :
    (f.entered c o now u m).Stands p := by
  obtain ⟨e, he, ha, hp⟩ := h
  unfold Supervisor.entered; split
  · refine ⟨e, List.mem_map.2 ⟨e, he, if_neg ?_⟩, ha, hp⟩
    rw [other e hp]; exact Bool.false_ne_true
  · split
    · exact ⟨e, List.mem_append_left _ he, ha, hp⟩
    · split
      · exact ⟨e, List.mem_append_left _ ((List.mem_eraseP_of_neg (by simp [ha])).2 he), ha, hp⟩
      · exact ⟨e, he, ha, hp⟩

/-- R158, R159: the lifts make no entry ACTIVE. -/
theorem not_stands_liftKept (Z : SectionId → Prop) (p : FaultEntry → Prop) : LiftKept Z fun f => ¬f.Stands p where
  drive _ _ h hn := h hn.of_endFault
  mismatch _ _ _ h hn := h hn.of_endFault
  entered _ _ _ _ _ h hn := h hn.of_entered
  sounded _ _ _ h := h
  freeze _ _ _ h := h

/-- R158, R159: the lifts leave an ACTIVE entry of another class, or of a section that is not lifted. -/
theorem stands_liftKept {Z : SectionId → Prop} {p : FaultEntry → Prop} (drive : ∀ e, p e → e.cls ≠ .lockDrive)
    (sections : ∀ e x, p e → Z x → e.object = (secCode x).toNat → e.cls ≠ .indicatorMismatch ∧ e.cls ≠ .blockIrregular) :
    LiftKept Z (Stands p) where
  drive o _ h := h.endFault fun e hp => Bool.eq_false_of_not_eq_true fun hc => drive e hp ((FaultEntry.is_iff _ _ e).1 hc).1
  mismatch x _ hx h := h.endFault fun e hp => Bool.eq_false_of_not_eq_true fun hc => by
    obtain ⟨hcls, ho⟩ := (FaultEntry.is_iff _ _ e).1 hc
    exact (sections e x hp hx ho).1 hcls
  entered x _ _ _ hx h := h.entered fun e hp => Bool.eq_false_of_not_eq_true fun hc => by
    obtain ⟨hcls, ho⟩ := (FaultEntry.is_iff _ _ e).1 hc
    exact (sections e x hp hx ho).2 hcls
  sounded _ _ _ h := h
  freeze _ _ _ h := h

end Supervisor

/-- R158, R160: the overflow flag stands only with a full list. -/
def Supervisor.OverflowFull (f : Supervisor) : Prop := f.overflow = true → 16 ≤ f.entries.length

theorem listed_overflowFull : Listed Supervisor.OverflowFull where
  endFault c o s h := by
    obtain ⟨g, -, he⟩ := s.endFault_faults c o
    unfold Supervisor.OverflowFull; rw [he, List.length_map]; exact h
  entered c o now u m f h := by
    unfold Supervisor.OverflowFull Supervisor.entered; split
    · rw [List.length_map]; exact h
    · split
      · rename_i hl
        exact fun ho => absurd hl (Nat.not_lt.2 (h ho))
      · rename_i hl
        split
        · rename_i d hd
          intro _
          have found : (fun x : FaultEntry => !x.active) d = true := List.find?_some (p := fun x : FaultEntry => !x.active) hd
          rw [List.length_append, List.length_eraseP_of_mem (List.mem_of_find?_eq_some hd) found, List.length_singleton]
          omega
        · exact fun _ => Nat.not_lt.1 hl
  sounded _ _ _ _ h := h
  register r o s h := by cases r <;> exact h

/-- R163: after the ENDED entries are removed, no entry is ENDED until a lock goes to HELD (R31). -/
def Supervisor.Fresh (f : Supervisor) : Prop := ∀ e ∈ f.entries, e.cls = .lockDrive ∨ e.active = true

theorem Supervisor.Fresh.endDrive {s : State} (h : s.faults.Fresh) (o : Nat) : (s.endFault .lockDrive o).faults.Fresh := by
  unfold Supervisor.Fresh
  rcases s.endFault_entries .lockDrive o with he | he
  · rw [he]; exact h
  · rw [he]
    intro e hm
    obtain ⟨g, hg, rfl⟩ := List.mem_map.1 hm
    unfold FaultEntry.endedBy; split
    · rename_i hc; exact .inl ((FaultEntry.is_iff _ _ g).1 hc).1
    · exact h g hg

theorem Supervisor.Fresh.entered {f : Supervisor} (h : f.Fresh) (c : FaultClass) (o : Nat) (now : Time) (u : Bool) :
    (f.entered c o now u false).Fresh := by
  have last : ∀ {es : List FaultEntry}, (∀ e ∈ es, e ∈ f.entries) → ∀ e ∈ es ++ [newEntry c o now u false],
      e.cls = .lockDrive ∨ e.active = true := fun hes e he => (List.mem_append.1 he).elim (fun he => h e (hes e he)) fun he => by
    rw [List.mem_singleton.1 he]; exact .inr rfl
  unfold Supervisor.Fresh Supervisor.entered; split
  · intro e he
    obtain ⟨g, hg, rfl⟩ := List.mem_map.1 he
    split
    · exact .inr rfl
    · exact h g hg
  · split
    · exact last fun _ => id
    · split
      · exact last fun _ => List.mem_of_mem_eraseP
      · exact h

theorem Supervisor.Fresh.raise {s : State} (h : s.faults.Fresh) (c : FaultClass) (o : Nat) : (s.raise c o).faults.Fresh := by
  refine State.raiseWith_keeps (P := fun u => u.faults.Fresh) (fun o u hu => hu.endDrive o) (fun _ _ hf hu => by rw [hf]; exact hu)
    (fun r _ _ hu => by cases r <;> exact hu) false c o ?_
  rw [State.enterRaise_faults]; exact h.entered c o _ _

/-- R163, step 3: what each raise keeps, the conditions handed again keep. -/
theorem State.handAll_keeps {P : State → Prop} (raise : ∀ c o s, P s → P (State.raise c o s)) {s : State} (hs : P s) : P s.handAll := by
  have again : ∀ b c o (u : State), P u → P (u.handAgain b c o) := fun b c o u hu => ite_keeps (raise c o u hu) hu
  exact forEach_inv (P := P) (fun _ _ hu => again _ _ _ _ (again _ _ _ _ hu)) _ _ (forEach_inv (P := P) (fun _ _ hu => again _ _ _ _ hu) _ _
    (forEach_inv (P := P) (fun _ _ hu => again _ _ _ _ (again _ _ _ _ hu)) _ _ (again _ _ _ _ (forEach_inv (P := P)
      (fun _ _ hu => again _ _ _ _ (again _ _ _ _ (again _ _ _ _ (again _ _ _ _ hu)))) _ s hs))))

/-! ### R163, step 3: the conditions shown -/

theorem secCode_toNat_inj {x y : SectionId} (h : (secCode x).toNat = (secCode y).toNat) : x = y :=
  Option.some.inj (((secOfCode_toNat _ x).2 rfl).symm.trans ((secOfCode_toNat _ y).2 (BitVec.eq_of_toNat_eq h)))

namespace State

variable {s u : State}

theorem raise_keeps_shown {d : FaultClass} {p : Nat} (hd : d ≠ .lockDrive) (c : FaultClass) (o : Nat) (h : s.faultShown d p) :
    (s.raise c o).faultShown d p := raiseWith_keeps_shown (.inl hd) (enterRaise_keeps_shown nofun h)

theorem shown_resets {Z : SectionId → Prop} {T : Nat → Prop} {c : FaultClass} (o : Nat)
    (hc : c ≠ .lockDrive ∧ c ≠ .indicatorMismatch ∧ c ≠ .blockIrregular) : Resets Z T (State.faultShown c o) where
  report _ _ _ _ _ h := (report_faultShown _ _ _ _ _).2 h
  evaluate k _ h := evaluate_keeps_shown k hc.1 h
  supply _ h := h
  sect _ _ _ _ _ h := h
  ended _ _ _ _ h := endFault_keeps_shown (fun he => hc.2.1 he.1) h
  notice _ _ _ h := h
  lift _ _ _ _ _ h := h
  irregular _ _ _ h := raiseWith_keeps_shown (.inl hc.1) (enterRaise_keeps_shown (fun _ he => hc.2.2 he.1) h)

/-- R31: what changes the records of no lever leaves its LOCK_DRIVE shown, where the list still shows it. -/
theorem DriveShown.onlyFaults {n : Nat} {t : State} (h : s.DriveShown n) (only : OnlyFaults s t)
    (shown : s.faultShown .lockDrive n → t.faultShown .lockDrive n) : t.DriveShown n := fun hd => by
  rw [lever_of_onlyFaults only] at hd; exact shown (h hd)

theorem driveShown_hands (n : Nat) : Hands (DriveShown n) where
  report _ _ _ _ _ h := h.onlyFaults (State.report_only _ _ _ _ _).faults (report_faultShown _ _ _ _ _).2
  evaluate c _ h := h.evaluate c
  enter _ _ _ h := h.onlyFaults (State.enterRaise_only _ _ _ _) (enterRaise_keeps_shown nofun)
  register r o _ h := h.onlyFaults (State.register_only r o _) fun hs => by cases r <;> exact hs
  cut _ h := h
  fail _ _ _ h := h
  mark _ _ _ h := h
  broken _ _ h := h
  freeze _ _ _ h := h

theorem driveShown_resets (Z : SectionId → Prop) (T : Nat → Prop) (n : Nat) : Resets Z T (DriveShown n) where
  report := (driveShown_hands n).report
  evaluate := (driveShown_hands n).evaluate
  supply _ h := h
  sect _ _ _ _ _ h := h
  ended _ _ _ _ h := h.onlyFaults (State.endFault_only _ _ _) (endFault_keeps_shown fun he => absurd he.1 (by decide))
  notice _ _ _ h := h
  lift _ _ _ _ _ h := h
  irregular x u _ h := by
    have entered : (u.enterRaise .blockIrregular (secCode x).toNat true).DriveShown n :=
      h.onlyFaults (State.enterRaise_only _ _ _ _) fun hs => enterRaise_keeps_shown (fun _ he => nomatch he.1) hs
    unfold State.irregular State.raiseAndEnd State.raiseWith
    exact ite_keeps (P := DriveShown n) ((driveShown_hands n).deliver .freeze _ ((driveShown_hands n).register .freeze _ _ entered)) entered

/-- R148: the INDICATOR_MISMATCH that a section holds is shown. -/
def MismatchShown (x : SectionId) (s : State) : Prop :=
  (s.sectn x).mismatch = true → s.faultShown .indicatorMismatch (secCode x).toNat

theorem MismatchShown.of_same {x : SectionId} {t : State} (h : s.MismatchShown x) (same : (t.sectn x).mismatch = (s.sectn x).mismatch)
    (shown : s.faultShown .indicatorMismatch (secCode x).toNat → t.faultShown .indicatorMismatch (secCode x).toNat) :
    t.MismatchShown x := fun hm => shown (h (same ▸ hm))

theorem MismatchShown.onlyEval {x : SectionId} {t : State} (h : s.MismatchShown x) (only : OnlyEval s t)
    (shown : s.faultShown .indicatorMismatch (secCode x).toNat → t.faultShown .indicatorMismatch (secCode x).toNat) :
    t.MismatchShown x := h.of_same (by rw [only.sectn_eq]) shown

theorem MismatchShown.updSect {x y : SectionId} {f : SectionState → SectionState}
    (hf : ∀ r : SectionState, (f r).mismatch = true → r.mismatch = true) (h : s.MismatchShown x) : (s.updSect y f).MismatchShown x := by
  intro hm
  refine h ?_
  rw [State.sectn_updSect] at hm
  split at hm
  · rename_i hxy; rw [hxy]; exact hf _ hm
  · exact hm

theorem mismatchShown_hands (x : SectionId) : Hands (MismatchShown x) where
  report _ _ _ _ _ h := h.onlyEval (State.report_only _ _ _ _ _).eval (report_faultShown _ _ _ _ _).2
  evaluate c _ h := h.onlyEval (State.evaluate_only c _) (evaluate_keeps_shown c nofun)
  enter _ _ _ h := h.onlyEval (State.enterRaise_only _ _ _ _).eval (enterRaise_keeps_shown nofun)
  register r o _ h := h.onlyEval (State.register_only r o _).eval fun hs => by cases r <;> exact hs
  cut _ h := h
  fail _ _ _ h := h
  mark _ _ _ h := h
  broken _ _ h := h
  freeze _ _ _ h := h.updSect fun _ hr => hr

theorem mismatchShown_resets (Z : SectionId → Prop) (T : Nat → Prop) (x : SectionId) : Resets Z T (MismatchShown x) where
  report := (mismatchShown_hands x).report
  evaluate := (mismatchShown_hands x).evaluate
  supply _ h := h
  sect _ _ _ _ hf h := h.updSect hf
  ended y u _ hm h := by
    by_cases hy : x = y
    · subst hy
      intro hmm
      rw [(State.endFault_only _ _ _).eval.sectn_eq, hm] at hmm; cases hmm
    · refine h.onlyEval (State.endFault_only _ _ _).eval (endFault_keeps_shown fun he => hy ?_)
      exact secCode_toNat_inj he.2
  notice _ _ _ h := h
  lift _ _ _ _ _ h := h
  irregular y u _ h := by
    refine h.of_same ?_ fun hs => raiseWith_keeps_shown (.inl nofun) (enterRaise_keeps_shown (fun _ he => nomatch he.1) hs)
    rw [State.irregular_sectn]; split
    · rename_i hy; rw [hy.1]; rfl
    · rfl

/-! What is handed again. -/

theorem handAgain_of_not {held : Bool} (h : held = false) (c : FaultClass) (o : Nat) (s : State) : s.handAgain held c o = s := by
  unfold State.handAgain; rw [h]; rfl

theorem handAgain_shown {held : Bool} (h : held = true) (c : FaultClass) (o : Nat) (s : State) : (s.handAgain held c o).faultShown c o := by
  unfold State.handAgain; rw [h, Bool.true_and]
  split
  · exact raise_shown c o s
  · rename_i hn
    have active : (s.faults.entryOf c o).any (·.active) = true := by simpa using hn
    obtain ⟨e, he, ha⟩ := (Option.any_eq_true _ _).1 active
    obtain ⟨hc, ho⟩ := (FaultEntry.is_iff c o e).1 (List.find?_some he)
    exact .inl ⟨e, List.mem_of_find?_eq_some he, hc, ho, ha⟩

theorem handAgain_keeps {P : State → Prop} (raise : ∀ c o s, P s → P (State.raise c o s)) (held : Bool) (c : FaultClass) (o : Nat)
    {s : State} (hs : P s) : P (s.handAgain held c o) := ite_keeps (raise c o s hs) hs

/-- R163: the conditions of lever `n` in `s` are shown in `u`. -/
structure LeverShown (s : State) (n : Nat) (u : State) : Prop where
  contact : (s.lever n).contactActive = true → u.faultShown .leverContact n
  forced : (s.lever n).forcedActive = true → u.faultShown .leverForced n
  drive : u.DriveShown n
  stuck : (s.lever n).stuckActive = true → u.faultShown .lockStuckFree n

theorem handLever_shown (n : Nat) (h : Untouched s u) : LeverShown s n (u.handLever n) := by
  have untouched := untouched_hands s
  unfold State.handLever; dsimp only
  have h1 := handAgain_keeps (fun c o _ => untouched.raise c o) (u.lever n).contactActive .leverContact n h
  have contact : (s.lever n).contactActive = true → (u.handAgain (u.lever n).contactActive .leverContact n).faultShown .leverContact n :=
    fun hc => handAgain_shown ((h.lever n).1.trans hc) _ _ _
  generalize u.handAgain (u.lever n).contactActive .leverContact n = v at h1 contact ⊢
  have h2 := handAgain_keeps (fun c o _ => untouched.raise c o) (v.lever n).forcedActive .leverForced n h1
  have forced : (s.lever n).forcedActive = true → (v.handAgain (v.lever n).forcedActive .leverForced n).faultShown .leverForced n :=
    fun hc => handAgain_shown ((h1.lever n).2.1.trans hc) _ _ _
  have contact := fun hc => handAgain_keeps (fun c o _ => raise_keeps_shown (d := .leverContact) (p := n) (by decide) c o)
    (v.lever n).forcedActive .leverForced n (contact hc)
  generalize v.handAgain (v.lever n).forcedActive .leverForced n = w at h2 contact forced ⊢
  have h3 := handAgain_keeps (fun c o _ => untouched.raise c o) (w.lever n).driveActive .lockDrive n h2
  have drive : (w.handAgain (w.lever n).driveActive .lockDrive n).DriveShown n := by
    cases hd : (w.lever n).driveActive with
    | false => rw [handAgain_of_not rfl]; exact fun ha => nomatch hd.symm.trans ha
    | true => exact fun _ => handAgain_shown rfl _ _ _
  have contact := fun hc => handAgain_keeps (fun c o _ => raise_keeps_shown (d := .leverContact) (p := n) (by decide) c o)
    (w.lever n).driveActive .lockDrive n (contact hc)
  have forced := fun hc => handAgain_keeps (fun c o _ => raise_keeps_shown (d := .leverForced) (p := n) (by decide) c o)
    (w.lever n).driveActive .lockDrive n (forced hc)
  generalize w.handAgain (w.lever n).driveActive .lockDrive n = z at h3 contact forced drive ⊢
  exact ⟨fun hc => handAgain_keeps (fun c o _ => raise_keeps_shown (by decide) c o) _ _ _ (contact hc),
    fun hc => handAgain_keeps (fun c o _ => raise_keeps_shown (by decide) c o) _ _ _ (forced hc),
    handAgain_keeps (fun c o _ => (driveShown_hands n).raise c o) _ _ _ drive,
    fun hc => handAgain_shown ((h3.lever n).2.2.1.trans hc) _ _ _⟩

theorem LeverShown.raise {n : Nat} (h : LeverShown s n u) (c : FaultClass) (o : Nat) : LeverShown s n (u.raise c o) :=
  ⟨fun hc => raise_keeps_shown (by decide) c o (h.contact hc), fun hc => raise_keeps_shown (by decide) c o (h.forced hc),
    (driveShown_hands n).raise c o h.drive, fun hc => raise_keeps_shown (by decide) c o (h.stuck hc)⟩

/-- R163: the conditions of the other units in `s` are shown in `u`. -/
structure OwnersShown (s : State) (u : State) : Prop where
  supply : s.frame.lockSupply = true → u.faultShown .lockSupply 0
  channel : ∀ m, 1 ≤ m → m ≤ 24 → (s.track m).channelFault = true → u.faultShown .trackChannel m
  degraded : ∀ m, 1 ≤ m → m ≤ 24 → (s.track m).degraded = true → u.faultShown .trackDegraded m
  mismatch : ∀ x, u.MismatchShown x
  crossed : ∀ x, s.sectionFitted x = true → (s.bell x).crossed = true → u.faultShown .bellCrossed (secCode x).toNat
  ring : ∀ x, s.sectionFitted x = true → s.ringStands x = true → u.faultShown .heldRing (secCode x).toNat

theorem OwnersShown.keep {f : State → State} (shown : ∀ {d : FaultClass} {p : Nat}, d ≠ .lockDrive → d ≠ .indicatorMismatch →
    d ≠ .blockIrregular → u.faultShown d p → (f u).faultShown d p) (mismatch : ∀ x, u.MismatchShown x → (f u).MismatchShown x)
    (h : OwnersShown s u) : OwnersShown s (f u) :=
  ⟨fun hc => shown (by decide) (by decide) (by decide) (h.supply hc),
    fun m h1 h24 hc => shown (by decide) (by decide) (by decide) (h.channel m h1 h24 hc),
    fun m h1 h24 hc => shown (by decide) (by decide) (by decide) (h.degraded m h1 h24 hc), fun x => mismatch x (h.mismatch x),
    fun x hf hc => shown (by decide) (by decide) (by decide) (h.crossed x hf hc),
    fun x hf hc => shown (by decide) (by decide) (by decide) (h.ring x hf hc)⟩

/-- R163, step 3: of a run of hands, each for its own object, the object's own leaves its condition shown. -/
theorem forEach_hands {α : Type} {R : State → Prop} {f : α → State → State} (xs : List α) (hn : xs.Nodup) {y : α} (hy : y ∈ xs)
    (keeps : ∀ x u, R u → R (f x u)) (untouched : ∀ x u, Untouched s u → Untouched s (f x u)) (own : ∀ u, Untouched s u → R (f y u))
    (h : Untouched s u) : R (forEach xs f u) :=
  forEach_once (I := Untouched s) (R := R) xs hn hy untouched own (fun x v _ _ hr => keeps x v hr) u h

theorem handLever_keeps {P : State → Prop} (raise : ∀ c o s, P s → P (State.raise c o s)) (n : Nat) (hu : P u) : P (u.handLever n) :=
  handAgain_keeps raise _ _ _ (handAgain_keeps raise _ _ _ (handAgain_keeps raise _ _ _ (handAgain_keeps raise _ _ _ hu)))

theorem handTrack_keeps {P : State → Prop} (raise : ∀ c o s, P s → P (State.raise c o s)) (m : Nat) (hu : P u) : P (u.handTrack m) :=
  handAgain_keeps raise _ _ _ (handAgain_keeps raise _ _ _ hu)

theorem handSection_keeps {P : State → Prop} (raise : ∀ c o s, P s → P (State.raise c o s)) (x : SectionId) (hu : P u) :
    P (u.handSection x) := handAgain_keeps raise _ _ _ hu

theorem handBell_keeps {P : State → Prop} (raise : ∀ c o s, P s → P (State.raise c o s)) (x : SectionId) (hu : P u) : P (u.handBell x) :=
  handAgain_keeps raise _ _ _ (handAgain_keeps raise _ _ _ hu)

theorem handTrack_shown (m : Nat) (h : Untouched s u) :
    ((s.track m).channelFault = true → (u.handTrack m).faultShown .trackChannel m) ∧
    ((s.track m).degraded = true → (u.handTrack m).faultShown .trackDegraded m) := by
  unfold State.handTrack; dsimp only
  have h1 := handAgain_keeps (fun c o _ => (untouched_hands s).raise c o) (u.track m).channelFault .trackChannel m h
  refine ⟨fun hc => handAgain_keeps (fun c o _ => raise_keeps_shown (by decide) c o) _ _ _ (handAgain_shown ((h.track m).1.trans hc) _ _ _),
    fun hc => handAgain_shown ((h1.track m).2.trans hc) _ _ _⟩

theorem handSection_shown (x : SectionId) (u : State) : (u.handSection x).MismatchShown x := by
  unfold State.handSection
  cases hm : (u.sectn x).mismatch with
  | false => rw [handAgain_of_not rfl]; exact fun ha => nomatch hm.symm.trans ha
  | true => exact fun _ => handAgain_shown rfl _ _ _

theorem untouched_bell (h : Untouched s u) (x : SectionId) : u.bell x = s.bell x ∧ u.bellFaults x = s.sectionFitted x ∧
    u.ringStands x = s.ringStands x := by
  have bell : ∀ y, u.bell y = s.bell y := bell_of_bells h.bells
  refine ⟨bell x, ?_, ?_⟩
  · unfold State.bellFaults State.sectionFitted State.sectionRec State.table; rw [h.store]
  · unfold State.ringStands; rw [bell]

theorem handBell_shown (x : SectionId) (h : Untouched s u) :
    (s.sectionFitted x = true → (s.bell x).crossed = true → (u.handBell x).faultShown .bellCrossed (secCode x).toNat) ∧
    (s.sectionFitted x = true → s.ringStands x = true → (u.handBell x).faultShown .heldRing (secCode x).toNat) := by
  unfold State.handBell; dsimp only
  have h1 := handAgain_keeps (fun c o _ => (untouched_hands s).raise c o) (u.bellFaults x && (u.bell x).crossed) .bellCrossed
    (secCode x).toNat h
  refine ⟨fun hf hc => handAgain_keeps (fun c o _ => raise_keeps_shown (by decide) c o) _ _ _ (handAgain_shown ?_ _ _ _),
    fun hf hc => handAgain_shown ?_ _ _ _⟩
  · obtain ⟨bell, fitted, -⟩ := untouched_bell h x; rw [bell, fitted, hf, hc]; rfl
  · obtain ⟨-, fitted, ring⟩ := untouched_bell h1 x; rw [fitted, ring, hf, hc]; rfl

/-- R163, step 3: every condition that an owner holds active is shown. -/
theorem handAll_shown (s : State) : (∀ n, leverOk n = true → LeverShown s n s.handAll) ∧ OwnersShown s s.handAll := by
  have untouched := fun c o (v : State) => (untouched_hands s).raise c o (s := v)
  have lever := fun n c o (v : State) (h : LeverShown s n v) => h.raise c o
  have kept : ∀ {d : FaultClass} {p : Nat}, d ≠ .lockDrive → ∀ c o (v : State), v.faultShown d p → (v.raise c o).faultShown d p :=
    fun hd c o _ => raise_keeps_shown hd c o
  have mismatch := fun x c o (v : State) => (mismatchShown_hands x).raise c o (s := v)
  have levers : ∀ n, leverOk n = true → LeverShown s n (forEach allLevers handLever s) := fun n hn =>
    forEach_hands allLevers (by decide) (mem_allLevers.2 hn) (fun m _ hu => handLever_keeps (lever n) m hu)
      (fun m _ hu => handLever_keeps untouched m hu) (fun _ hu => handLever_shown n hu) (.refl s)
  have h1 : Untouched s (forEach allLevers handLever s) := forEach_inv (P := Untouched s) (fun m _ hu => handLever_keeps untouched m hu) _ _ (.refl s)
  unfold State.handAll; dsimp only
  generalize forEach allLevers handLever s = u1 at levers h1 ⊢
  have levers := fun n hn => handAgain_keeps (lever n) u1.frame.lockSupply .lockSupply 0 (levers n hn)
  have h2 := handAgain_keeps untouched u1.frame.lockSupply .lockSupply 0 h1
  have supply : s.frame.lockSupply = true → (u1.handAgain u1.frame.lockSupply .lockSupply 0).faultShown .lockSupply 0 := fun hc =>
    handAgain_shown (h1.lockSupply.trans hc) _ _ _
  generalize u1.handAgain u1.frame.lockSupply .lockSupply 0 = u2 at levers h2 supply ⊢
  have levers := fun n hn => forEach_inv (P := LeverShown s n) (fun m _ hu => handTrack_keeps (lever n) m hu) allTracks _ (levers n hn)
  have supply := fun hc => forEach_inv (P := State.faultShown .lockSupply 0)
    (fun m _ hu => handTrack_keeps (kept (by decide)) m hu) allTracks _ (supply hc)
  have tracks : ∀ m, 1 ≤ m → m ≤ 24 → ((s.track m).channelFault = true → (forEach allTracks handTrack u2).faultShown .trackChannel m) ∧
      ((s.track m).degraded = true → (forEach allTracks handTrack u2).faultShown .trackDegraded m) := fun m k1 k24 => by
    refine forEach_hands (R := fun v => ((s.track m).channelFault = true → v.faultShown .trackChannel m) ∧
      ((s.track m).degraded = true → v.faultShown .trackDegraded m)) allTracks (by decide) (mem_allTracks.2 ⟨k1, k24⟩)
      (fun k _ hu => ⟨fun hc => handTrack_keeps (kept (by decide)) k (hu.1 hc), fun hc => handTrack_keeps (kept (by decide)) k (hu.2 hc)⟩)
      (fun k _ hu => handTrack_keeps untouched k hu) (fun _ hu => handTrack_shown m hu) h2
  have h3 := forEach_inv (P := Untouched s) (fun m _ hu => handTrack_keeps untouched m hu) allTracks _ h2
  generalize forEach allTracks handTrack u2 = u3 at levers supply tracks h3 ⊢
  have sections : ∀ x, (forEach allSections handSection u3).MismatchShown x := fun x =>
    forEach_hands allSections (by decide) (mem_allSections x) (fun y _ hu => handSection_keeps (mismatch x) y hu)
      (fun y _ hu => handSection_keeps untouched y hu) (fun v _ => handSection_shown x v) h3
  have levers := fun n hn => forEach_inv (P := LeverShown s n) (fun y _ hu => handSection_keeps (lever n) y hu) allSections _ (levers n hn)
  have keep3 : ∀ {d : FaultClass} {p : Nat}, d ≠ .lockDrive → u3.faultShown d p → (forEach allSections handSection u3).faultShown d p :=
    fun hd h => forEach_inv (P := State.faultShown _ _) (fun y _ hu => handSection_keeps (kept hd) y hu) allSections _ h
  have h4 := forEach_inv (P := Untouched s) (fun y _ hu => handSection_keeps untouched y hu) allSections _ h3
  generalize forEach allSections handSection u3 = u4 at levers keep3 sections h4 ⊢
  have keep4 : ∀ {d : FaultClass} {p : Nat}, d ≠ .lockDrive → u4.faultShown d p → (forEach allSections handBell u4).faultShown d p :=
    fun hd h => forEach_inv (P := State.faultShown _ _) (fun y _ hu => handBell_keeps (kept hd) y hu) allSections _ h
  have bells : ∀ x, (s.sectionFitted x = true → (s.bell x).crossed = true → (forEach allSections handBell u4).faultShown .bellCrossed (secCode x).toNat) ∧
      (s.sectionFitted x = true → s.ringStands x = true → (forEach allSections handBell u4).faultShown .heldRing (secCode x).toNat) := fun x => by
    refine forEach_hands (R := fun v => (s.sectionFitted x = true → (s.bell x).crossed = true → v.faultShown .bellCrossed (secCode x).toNat) ∧
      (s.sectionFitted x = true → s.ringStands x = true → v.faultShown .heldRing (secCode x).toNat)) allSections (by decide) (mem_allSections x)
      (fun y _ hu => ⟨fun hf hc => handBell_keeps (kept (by decide)) y (hu.1 hf hc), fun hf hc => handBell_keeps (kept (by decide)) y (hu.2 hf hc)⟩)
      (fun y _ hu => handBell_keeps untouched y hu) (fun _ hu => handBell_shown x hu) h4
  exact ⟨fun n hn => forEach_inv (P := LeverShown s n) (fun y _ hu => handBell_keeps (lever n) y hu) allSections _ (levers n hn),
    fun hc => keep4 (by decide) (keep3 (by decide) (supply hc)),
    fun m k1 k24 hc => keep4 (by decide) (keep3 (by decide) ((tracks m k1 k24).1 hc)),
    fun m k1 k24 hc => keep4 (by decide) (keep3 (by decide) ((tracks m k1 k24).2 hc)),
    fun x => forEach_inv (P := MismatchShown x) (fun y _ hu => handBell_keeps (mismatch x) y hu) allSections _ (sections x),
    fun x => (bells x).1, fun x => (bells x).2⟩

/-- R163: the lifts leave every condition shown that is so. -/
theorem sendLifts_shown {t : State} (frame : Bool) (secs : BitVec 4) (trks : BitVec 24)
    (h : (∀ n, leverOk n = true → LeverShown s n t) ∧ OwnersShown s t) :
    (∀ n, leverOk n = true → LeverShown s n (t.sendLifts frame secs trks)) ∧ OwnersShown s (t.sendLifts frame secs trks) := by
  have shown : ∀ {d : FaultClass} {p : Nat}, d ≠ .lockDrive → d ≠ .indicatorMismatch → d ≠ .blockIrregular → t.faultShown d p →
      (t.sendLifts frame secs trks).faultShown d p := fun h1 h2 h3 hs => (shown_resets _ ⟨h1, h2, h3⟩).sendLifts frame hs
  exact ⟨fun n hn => ⟨fun hc => shown (by decide) (by decide) (by decide) ((h.1 n hn).contact hc),
    fun hc => shown (by decide) (by decide) (by decide) ((h.1 n hn).forced hc), (driveShown_resets _ _ n).sendLifts frame (h.1 n hn).drive,
    fun hc => shown (by decide) (by decide) (by decide) ((h.1 n hn).stuck hc)⟩,
    h.2.keep (f := fun u => u.sendLifts frame secs trks) shown fun x hm => (mismatchShown_resets _ _ x).sendLifts frame hm⟩

end State

/-! ### R163, R164: what a press has handed again, and what it lifts -/

namespace State

/-- R163, steps 1 to 3: the list as a press leaves it before it lifts an order. -/
def handed (s : State) : State := s.silence.restoreOverflow

/-- R164: the register as a press leaves it, before the orders are sent. -/
def lifting (s : State) (d : List Byte) : State :=
  (s.clearRegister s.liftsFrame s.liftSections s.liftTracks).report .fault 0 7 d

theorem boxReset_eq (s : State) : ∃ d, s.boxReset =
    (s.handed.lifting d).sendLifts s.handed.liftsFrame s.handed.liftSections s.handed.liftTracks := ⟨_, rfl⟩

theorem lifting_only (s : State) (d : List Byte) : ∃ l, s.lifting d =
    { s with link := l, faults := { s.faults with frameCut := s.faults.frameCut && !s.liftsFrame
                                                  frozenSet := s.faults.frozenSet &&& ~~~s.liftSections
                                                  failedSet := s.faults.failedSet &&& ~~~s.liftTracks } } :=
  (report_only .fault 0 7 d _ : OnlyLink (s.clearRegister s.liftsFrame s.liftSections s.liftTracks) _)

theorem lifting_faults (s : State) (d : List Byte) : (s.lifting d).faults =
    { s.faults with frameCut := s.faults.frameCut && !s.liftsFrame, frozenSet := s.faults.frozenSet &&& ~~~s.liftSections
                    failedSet := s.faults.failedSet &&& ~~~s.liftTracks } := by
  obtain ⟨l, h⟩ := s.lifting_only d; rw [h]

theorem lifting_onlyFaults (s : State) (d : List Byte) : OnlyFaults s (s.lifting d) := by
  obtain ⟨l, h⟩ := s.lifting_only d; exact ⟨l, _, h⟩

theorem liftSections_bit (s : State) (x : SectionId) : s.liftSections.getLsbD (secCode x).toNat = s.liftsSection x := by
  unfold State.liftSections
  rw [BitVec.getLsbD_ofNat, flagBits_testBit]
  cases x <;> rfl

theorem liftTracks_bit (s : State) {n : Nat} (h1 : 1 ≤ n) (h24 : n ≤ 24) : s.liftTracks.getLsbD (n - 1) = s.liftsTrack n := by
  have at' : (allTracks.map s.liftsTrack).getD (n - 1) false = s.liftsTrack n := by
    have bound : n - 1 < 24 := by omega
    have elem : 1 + (n - 1) = n := by omega
    unfold allTracks
    rw [List.getD_eq_getElem?_getD, List.getElem?_map, List.getElem?_range' bound, Nat.one_mul, elem]; rfl
  have small : decide (n - 1 < 24) = true := decide_eq_true (by omega)
  unfold State.liftTracks
  rw [BitVec.getLsbD_ofNat, flagBits_testBit, at', small, Bool.true_and]

theorem silence_onlyFaults (s : State) : OnlyFaults s s.silence := setFaults_only _ s

/-- R163, steps 1 and 2: of the entries only those that are ACTIVE stay. -/
theorem silence_mem {s : State} {e : FaultEntry} : e ∈ s.silence.faults.entries ↔
    ∃ g ∈ s.faults.entries, g.active = true ∧ { g with alarmPending := false } = e := by
  change e ∈ (s.faults.entries.filter (·.active)).map (fun g => { g with alarmPending := false }) ↔ _
  rw [List.mem_map]
  exact exists_congr fun g => by rw [List.mem_filter, and_assoc]

theorem silence_fresh (s : State) : s.silence.faults.Fresh := fun e he => by
  obtain ⟨g, -, ha, rfl⟩ := silence_mem.1 he
  exact .inr ha

theorem silence_stands {s : State} {p : FaultEntry → Prop} (hp : ∀ e : FaultEntry, p { e with alarmPending := false } ↔ p e) :
    s.silence.faults.Stands p ↔ s.faults.Stands p := by
  refine ⟨fun ⟨e, he, _, hpe⟩ => ?_, fun ⟨e, he, ha, hpe⟩ => ⟨_, silence_mem.2 ⟨e, he, ha, rfl⟩, ha, (hp e).2 hpe⟩⟩
  obtain ⟨g, hg, ha, rfl⟩ := silence_mem.1 he
  exact ⟨g, hg, ha, (hp g).1 hpe⟩

theorem handed_of_noOverflow {s : State} (h : s.faults.overflow = false) : s.handed = s.silence :=
  if_neg (by rw [show s.silence.faults.overflow = s.faults.overflow from rfl, h]; exact Bool.false_ne_true)

theorem handed_of_overflow {s : State} (h : s.faults.overflow = true) :
    s.handed = (s.silence.setFaults { s.silence.faults with overflow := false, overflowAlarm := false }).handAll :=
  if_pos h

/-- What the removal of entries, the flag and the raises keep. -/
theorem handed_keeps {P : State → Prop} {s : State} (silent : P s.silence)
    (cleared : P s.silence → P (s.silence.setFaults { s.silence.faults with overflow := false, overflowAlarm := false }))
    (raise : ∀ c o u, P u → P (State.raise c o u)) : P s.handed := by
  unfold State.handed State.restoreOverflow
  exact ite_keeps (P := P) (handAll_keeps raise (cleared silent)) silent

theorem handed_untouched (s : State) : Untouched s s.handed :=
  handed_keeps (P := Untouched s) (.onlyFaults (silence_onlyFaults s)) (fun h => h.trans (.onlyFaults (setFaults_only _ _)))
    fun c o _ hu => (untouched_hands s).raise c o hu

theorem handed_fresh (s : State) : s.handed.faults.Fresh :=
  handed_keeps (P := fun u => u.faults.Fresh) (silence_fresh s) (fun h => h) fun c o _ hu => hu.raise c o

theorem listed_raise {P : Supervisor → Prop} (h : Listed P) (c : FaultClass) (o : Nat) {s : State} (hs : P s.faults) :
    P (s.raise c o).faults :=
  raiseWith_keeps (P := fun u => P u.faults) (fun o u => h.endFault _ o u) (fun _ _ hf hu => by rw [hf]; exact hu) h.register false c o
    (h.enterRaise c o false hs)

end State

namespace State

/-- What an end, a raise and the register keep of the orders registered. -/
theorem listed_of_register {P : Supervisor → Prop}
    (same : ∀ f g : Supervisor, g.frameCut = f.frameCut ∧ g.frozenSet = f.frozenSet ∧ g.failedSet = f.failedSet → P f → P g)
    (register : ∀ r o s, P (State.faults s) → P (s.register r o).faults) : Listed P where
  endFault c o s hs := by
    obtain ⟨g, -, h⟩ := s.endFault_faults c o
    exact same s.faults _ (by rw [h]; exact ⟨rfl, rfl, rfl⟩) hs
  entered c o now u m f hf := same f _ (f.entered_register c o now u m) hf
  sounded _ _ _ f hf := same f _ ⟨rfl, rfl, rfl⟩ hf
  register := register

theorem listed_frameCut : Listed fun f => f.frameCut = true :=
  listed_of_register (fun _ _ h hf => h.1.trans hf) fun r _ s hs => by
    cases r with
    | frameCut => rfl
    | fail => exact hs
    | freeze => exact hs

theorem or_getLsbD {w : Nat} (a b : BitVec w) {i : Nat} (h : a.getLsbD i = true) : (a ||| b).getLsbD i = true := by
  rw [BitVec.getLsbD_or, h, Bool.true_or]

theorem listed_frozen (i : Nat) : Listed fun f => f.frozenSet.getLsbD i = true :=
  listed_of_register (fun _ _ h hf => by rw [h.2.1]; exact hf) fun r _ s hs => by
    cases r with
    | freeze => exact or_getLsbD _ _ hs
    | frameCut => exact hs
    | fail => exact hs

theorem listed_failed (i : Nat) : Listed fun f => f.failedSet.getLsbD i = true :=
  listed_of_register (fun _ _ h hf => by rw [h.2.2]; exact hf) fun r _ s hs => by
    cases r with
    | fail => exact or_getLsbD _ _ hs
    | frameCut => exact hs
    | freeze => exact hs

/-- What a list keeps through ends, raises and orders, it keeps through the hands of a press. -/
theorem listed_handed {P : Supervisor → Prop} (h : Listed P) {s : State} (silent : P s.silence.faults)
    (cleared : P s.silence.faults → P { s.silence.faults with overflow := false, overflowAlarm := false }) : P s.handed.faults :=
  handed_keeps (P := fun u => P u.faults) silent cleared fun c o _ hu => listed_raise h c o hu

theorem handed_masked (s : State) : s.handed.faults.masked = s.faults.masked :=
  listed_handed (listed_masked s.faults.masked) rfl fun h => h

theorem handed_frameCut {s : State} (h : s.faults.frameCut = true) : s.handed.faults.frameCut = true :=
  listed_handed listed_frameCut h fun h => h

theorem handed_frozen {s : State} {i : Nat} (h : s.faults.frozenSet.getLsbD i = true) : s.handed.faults.frozenSet.getLsbD i = true :=
  listed_handed (listed_frozen i) h fun h => h

theorem handed_failed {s : State} {i : Nat} (h : s.faults.failedSet.getLsbD i = true) : s.handed.faults.failedSet.getLsbD i = true :=
  listed_handed (listed_failed i) h fun h => h

theorem handed_overflowFull {s : State} (h : s.faults.overflow = true) : s.handed.faults.OverflowFull := by
  rw [handed_of_overflow h]
  exact handAll_keeps (P := fun u => u.faults.OverflowFull) (fun c o _ hu => listed_raise listed_overflowFull c o hu)
    (fun ho => nomatch (ho : false = true))

/-- R144: a raise leaves a frozen section as it is. -/
theorem frozenStays_hands {x : SectionId} {r : SectionState} (hr : r.frozen = true) : Hands fun s => s.sectn x = r where
  report _ _ _ _ s h := ((State.report_only _ _ _ _ s).eval.sectn_eq x).trans h
  evaluate c s h := ((State.evaluate_only c s).sectn_eq x).trans h
  enter c o s h := ((State.enterRaise_only c o false s).eval.sectn_eq x).trans h
  register r o s h := ((State.register_only r o s).eval.sectn_eq x).trans h
  cut _ h := h
  fail _ _ _ h := h
  mark _ _ _ h := h
  broken _ _ h := h
  freeze y s hz h := by
    rw [State.sectn_updSect, if_neg fun hy => ?_]
    · exact h
    · rw [← hy, h, hr] at hz; cases hz

theorem handed_sectn {s : State} {x : SectionId} (h : (s.sectn x).frozen = true) : s.handed.sectn x = s.sectn x :=
  handed_keeps (P := fun u => u.sectn x = s.sectn x) ((silence_onlyFaults s).eval.sectn_eq x) (fun hs => hs)
    fun c o _ hu => (frozenStays_hands h).raise c o hu

/-- R61: a raise leaves a circuit as it is that is FAILED, or OUT_OF_USE with its mark. -/
theorem failedStays_hands {n : Nat} {y : TrackState} (hy : y.failedMark = true) (hs : y.state = .failed ∨ y.state = .outOfUse) :
    Hands fun s => s.track n = y where
  report _ _ _ _ s h := ((State.report_only _ _ _ _ s).faults.track_eq n).trans h
  evaluate c s h := by obtain ⟨_, _, _, he⟩ := State.evaluate_only c s; rw [he]; exact h
  enter c o s h := ((State.enterRaise_only c o false s).track_eq n).trans h
  register r o s h := ((State.register_only r o s).track_eq n).trans h
  cut _ h := h
  fail t s ht h := by
    rw [State.track_updTrack, if_neg fun hn => ?_]
    · exact h
    · obtain ⟨rfl, -⟩ := hn
      rw [h] at ht
      obtain hs | hs := hs <;> rw [hs] at ht <;> simp at ht
  mark t s _ h := by
    rw [State.track_updTrack]; split
    · rename_i hn
      obtain ⟨rfl, -⟩ := hn
      rw [h]; unfold TrackState.markedBy; rw [← hy]
    · exact h
  broken _ _ h := h
  freeze _ _ _ h := h

theorem handed_track {s : State} {n : Nat} (hm : (s.track n).failedMark = true)
    (hs : (s.track n).state = .failed ∨ (s.track n).state = .outOfUse) : s.handed.track n = s.track n :=
  handed_keeps (P := fun u => u.track n = s.track n) ((silence_onlyFaults s).track_eq n) (fun hs => hs)
    fun c o _ hu => (failedStays_hands hm hs).raise c o hu

/-! What stands in the list (R164). -/

/-- R164: while no entry is ENDED but of LOCK_DRIVE, an entry of another class is standing as it is ACTIVE. -/
theorem standing_iff {s : State} (h : s.faults.Fresh) {p : FaultEntry → Bool} (hp : ∀ e, p e = true → e.cls ≠ .lockDrive) :
    s.standing p = true ↔ s.faults.Stands fun e => p e = true := by
  unfold State.standing
  rw [List.any_eq_true]
  exact ⟨fun ⟨e, he, hpe⟩ => ⟨e, he, (h e he).resolve_left (hp e hpe), hpe⟩, fun ⟨e, he, _, hpe⟩ => ⟨e, he, hpe⟩⟩

end State

/-- R164: an ACTIVE unmasked entry of a circuit. -/
def trackTold (n : Nat) (e : FaultEntry) : Prop :=
  e.unmasked = true ∧ e.object = n ∧ (e.cls = .trackChannel ∨ e.cls = .trackDegraded)

/-- R164: an ACTIVE unmasked entry of a section. -/
def sectionTold (x : SectionId) (e : FaultEntry) : Prop :=
  e.unmasked = true ∧ e.object = (secCode x).toNat ∧ (e.cls = .indicatorMismatch ∨ e.cls = .blockIrregular)

/-- R164: an entry under which the frame supply stays cut. -/
def frameTold (e : FaultEntry) : Prop := e.cls = .leverForced ∨ e.cls = .lockStuckFree

namespace State

variable {s : State}

theorem liftsTrack_iff (h : s.faults.Fresh) (n : Nat) :
    s.liftsTrack n = true ↔ s.faults.failedSet.getLsbD (n - 1) = true ∧ ¬s.faults.Stands (trackTold n) := by
  unfold State.liftsTrack
  rw [Bool.and_eq_true, Bool.not_eq_true', ← Bool.not_eq_true, standing_iff h fun e he => ?_]
  · refine and_congr_right fun _ => not_congr (exists_congr fun e => and_congr_right fun _ => and_congr_right fun _ => ?_)
    unfold trackTold
    simp only [Bool.and_eq_true, Bool.or_eq_true, beq_iff_eq]
    exact ⟨fun ⟨⟨h1, h2⟩, h3⟩ => ⟨h1, h3, h2⟩, fun ⟨h1, h3, h2⟩ => ⟨⟨h1, h2⟩, h3⟩⟩
  · simp only [Bool.and_eq_true, Bool.or_eq_true, beq_iff_eq] at he
    obtain ⟨⟨-, hc⟩, -⟩ := he
    obtain hc | hc := hc <;> rw [hc] <;> decide

theorem liftsSection_iff (h : s.faults.Fresh) (x : SectionId) :
    s.liftsSection x = true ↔ s.faults.frozenSet.getLsbD (secCode x).toNat = true ∧ ¬s.faults.Stands (sectionTold x) := by
  unfold State.liftsSection
  rw [Bool.and_eq_true, Bool.not_eq_true', ← Bool.not_eq_true, standing_iff h fun e he => ?_]
  · refine and_congr_right fun _ => not_congr (exists_congr fun e => and_congr_right fun _ => and_congr_right fun _ => ?_)
    unfold sectionTold
    simp only [Bool.and_eq_true, Bool.or_eq_true, beq_iff_eq]
    exact ⟨fun ⟨⟨h1, h2⟩, h3⟩ => ⟨h1, h3, h2⟩, fun ⟨h1, h3, h2⟩ => ⟨⟨h1, h2⟩, h3⟩⟩
  · simp only [Bool.and_eq_true, Bool.or_eq_true, beq_iff_eq] at he
    obtain ⟨⟨-, hc⟩, -⟩ := he
    obtain hc | hc := hc <;> rw [hc] <;> decide

theorem liftsFrame_iff (h : s.faults.Fresh) : s.liftsFrame = true ↔ s.faults.frameCut = true ∧ ¬s.faults.Stands frameTold := by
  unfold State.liftsFrame
  rw [Bool.and_eq_true, Bool.not_eq_true', ← Bool.not_eq_true, standing_iff h fun e he => ?_]
  · refine and_congr_right fun _ => not_congr (exists_congr fun e => and_congr_right fun _ => and_congr_right fun _ => ?_)
    unfold frameTold
    simp only [Bool.or_eq_true, beq_iff_eq]
  · simp only [Bool.or_eq_true, beq_iff_eq] at he
    obtain hc | hc := he <;> rw [hc] <;> decide

end State

/-! ### R164: what the lifts leave -/

/-- R164: what the lifts keep from the frame supply's restoration on. -/
theorem Resets.sendLifts_from {secs : BitVec 4} {trks : BitVec 24} {P : State → Prop}
    (h : Resets (fun x => secs.getLsbD (secCode x).toNat = true) (fun t => trks.getLsbD (t - 1) = true) P) (frame : Bool) {s : State}
    (restored : P (if frame then s.restoreFrame else s)) : P (s.sendLifts frame secs trks) := by
  refine forEach_inv_mem (P := P) _ (fun y hy _ hv => ?_) _ (forEach_inv (P := P) (fun n v hv => ?_) _ _
    (forEach_inv_mem (P := P) _ (fun y hy _ hv => ?_) _ restored))
  · exact h.irregular y _ (List.mem_filter.1 (List.mem_filter.1 hy).1).2 hv
  · split
    · rename_i hb; exact h.liftTrack hb hv
    · exact hv
  · exact h.unfreeze (List.mem_filter.1 hy).2 hv

/-- R156: the order of an irregular working is that of its section's freeze. -/
theorem State.irregular_inv {P : State → Prop} {x : SectionId} {s : State}
    (entered : P (s.enterRaise .blockIrregular (secCode x).toNat true))
    (frozen : ∀ u, P u → P ((u.register .freeze (secCode x).toNat).freezeSection x)) : P (s.irregular x) := by
  have code : secOfCode (secCode x).toNat = some x := (secOfCode_toNat _ x).2 rfl
  unfold State.irregular State.raiseAndEnd State.raiseWith
  refine ite_keeps (P := P) ?_ entered
  simp only [State.deliver, code]
  exact frozen _ entered

namespace State

variable {s : State}

theorem irregular_onlySections (x : SectionId) (s : State) : OnlySections s (s.irregular x) :=
  irregular_inv (P := OnlySections s) (State.enterRaise_only _ _ _ _).eval.sections
    fun _ hu => (hu.trans (State.register_only _ _ _).eval.sections).trans (freezeSection_onlySections x _)

/-- What depends on neither the list, the link, the frame unit, the sections nor the notifications. -/
theorem resets_of_apart {α : Type} (get : State → α) (apart : ∀ s t, OnlyAsked s t → get t = get s) (a : α) (Z : SectionId → Prop) :
    Resets Z (fun _ => False) fun s => get s = a where
  report _ _ _ _ s h := (apart s _ (State.report_only _ _ _ _ s).records.sections.asked).trans h
  evaluate c s h := (apart s _ (State.evaluate_only c s).sections.asked).trans h
  supply s h := (apart s _ ⟨s.sections, s.notices, s.link, s.faults, _, rfl⟩).trans h
  sect x f s _ _ h := (apart s _ (onlyRecords_updSect x f s).sections.asked).trans h
  ended _ s _ _ h := (apart s _ (State.endFault_only _ _ s).eval.sections.asked).trans h
  notice c q s h := (apart s (s.sendNotice c q) ⟨s.sections, (s.sendNotice c q).notices, s.link, s.faults, s.frame, rfl⟩).trans h
  lift _ _ _ ht _ _ := ht.elim
  irregular _ _ _ h := (apart _ _ (irregular_onlySections _ _).asked).trans h


end State

/-- R62: a circuit's record after the lift order. -/
def TrackState.liftedBy (rec : Option TrackRec) (y : TrackState) : TrackState :=
  match rec with
  | none => y
  | some rec =>
    match y.failedMark, y.state with
    | true, .failed => { y.recover rec.clearCount.toNat with failedMark := false }
    | true, .outOfUse => { y with failedMark := false }
    | _, _ => y

/-- R62: a circuit lifted, by its state. -/
theorem TrackState.liftedBy_marked {y : TrackState} (hm : y.failedMark = true) (rec : TrackRec) :
    (y.state = .failed → y.liftedBy (some rec) =
      { y with state := .occupied, acc := min y.acc (rec.clearCount.toNat / 2), failedMark := false }) ∧
    (y.state = .outOfUse → y.liftedBy (some rec) = { y with failedMark := false }) := by
  unfold TrackState.liftedBy
  rw [hm]
  exact ⟨fun h => by rw [h]; rfl, fun h => by rw [h]⟩

theorem TrackState.liftedBy_rest {y : TrackState} (failed : y.failedMark = true → y.state = .failed → False)
    (outOfUse : y.failedMark = true → y.state = .outOfUse → False) (rec : TrackRec) : y.liftedBy (some rec) = y := by
  unfold TrackState.liftedBy; dsimp only; split
  · rename_i hm hs; exact (failed hm hs).elim
  · rename_i hm hs; exact (outOfUse hm hs).elim
  · rfl

namespace State

variable {s : State}

theorem liftTrack_track (t n : Nat) (s : State) : (s.liftTrack t).track n =
    if n = t ∧ 1 ≤ t ∧ t ≤ 24 then (s.track n).liftedBy (s.trackRec n) else s.track n := by
  have told : ∀ (f : TrackState → TrackState) a, ((s.updTrack t f).trackReport t 6 a (s.track t).state).track n =
      if n = t ∧ 1 ≤ t ∧ t ≤ 24 then f (s.track t) else s.track n := fun f a => by
    rw [← State.track_updTrack]; exact (State.report_only _ _ _ _ _).faults.track_eq n
  by_cases h : n = t ∧ 1 ≤ t ∧ t ≤ 24
  · obtain ⟨rfl, hb⟩ := h
    rw [if_pos ⟨rfl, hb⟩]
    unfold State.liftTrack
    cases s.trackRec n with
    | none => rfl
    | some rec =>
      dsimp only; split
      · rename_i hm hs; rw [told, if_pos ⟨rfl, hb⟩, (TrackState.liftedBy_marked hm rec).1 hs]; rfl
      · rename_i hm hs; rw [told, if_pos ⟨rfl, hb⟩, (TrackState.liftedBy_marked hm rec).2 hs]
      · rename_i failed outOfUse; exact (TrackState.liftedBy_rest failed outOfUse rec).symm
  · rw [if_neg h]
    exact liftTrack_cases (P := fun u => u.track n = s.track n) t (fun f _ a => (told f a).trans (if_neg h)) rfl

theorem liftTrack_trackRec (t : Nat) (s : State) : (s.liftTrack t).trackRec = s.trackRec := by
  obtain ⟨_, _, _, _, _, _, h⟩ := liftTrack_only t s
  rw [h]; rfl

/-- R62, R164: the circuits after the lifts. -/
theorem sendLifts_track (frame : Bool) (secs : BitVec 4) (trks : BitVec 24) (s : State) {n : Nat} (h1 : 1 ≤ n) (h24 : n ≤ 24) :
    (s.sendLifts frame secs trks).track n =
      if trks.getLsbD (n - 1) = true then (s.track n).liftedBy (s.trackRec n) else s.track n := by
  have apart : ∀ u v : State, OnlyAsked u v → (v.track, v.trackRec) = (u.track, u.trackRec) := fun u v h => by
    obtain ⟨_, _, _, _, _, rfl⟩ := h; rfl
  have resets := resets_of_apart (fun u : State => (u.track, u.trackRec)) apart (s.track, s.trackRec) (fun _ => True)
  have restored : ((if frame then s.restoreFrame else s).track, (if frame then s.restoreFrame else s).trackRec) = (s.track, s.trackRec) :=
    ite_keeps (P := fun u : State => (u.track, u.trackRec) = (s.track, s.trackRec))
      (resets.evaluate _ _ (resets.report _ _ _ _ _ (resets.supply s rfl))) rfl
  have thawed : ∀ xs : List SectionId, ((forEach xs unfreeze (if frame then s.restoreFrame else s)).track,
      (forEach xs unfreeze (if frame then s.restoreFrame else s)).trackRec) = (s.track, s.trackRec) := fun xs =>
    forEach_inv (P := fun u : State => (u.track, u.trackRec) = (s.track, s.trackRec)) (fun _ _ hu => resets.unfreeze trivial hu) xs _ restored
  have irregulars : ∀ (xs : List SectionId) (u : State), (forEach xs irregular u).track n = u.track n := fun xs u => by
    have own := resets_of_apart (fun u : State => u.track) (fun u v h => congrArg Prod.fst (apart u v h)) u.track (fun _ => True)
    exact congrFun (forEach_inv (P := fun v : State => v.track = u.track) (fun _ _ hv => own.irregular _ _ trivial hv) xs u rfl) n
  unfold State.sendLifts; dsimp only
  rw [irregulars]
  have before := thawed (allSections.filter fun x => secs.getLsbD (secCode x).toNat)
  generalize forEach _ unfreeze _ = u at before ⊢
  obtain ⟨track, rec⟩ := Prod.mk.inj before
  have lifted := forEach_get (get := State.track) (env := State.trackRec)
    (g := fun n e y => if trks.getLsbD (n - 1) = true then y.liftedBy (e n) else y)
    (f := fun n t => if trks.getLsbD (n - 1) then t.liftTrack n else t) allTracks (by decide) (fun m hm v k => by
      obtain ⟨m1, m24⟩ := mem_allTracks.1 hm
      split
      · rw [liftTrack_track]; simp only [m1, m24, and_self, and_true]
        split
        · rename_i hk; rw [hk]
        · rfl
      · split
        · rename_i hk; rw [hk]
        · rfl) (fun m _ v => by
      split
      · exact liftTrack_trackRec m v
      · rfl) u n
  rw [if_pos (mem_allTracks.2 ⟨h1, h24⟩)] at lifted
  rw [lifted, track, rec]

end State

namespace State

variable {s : State}

/-! The register and the frame supply under the lifts. -/

/-- What neither an end, a momentary raise nor the frozen set makes a difference to, the lifts keep. -/
theorem liftKept_of_register {P : Supervisor → Prop} {Z : SectionId → Prop}
    (same : ∀ f g : Supervisor, g.frameCut = f.frameCut ∧ g.frozenSet = f.frozenSet ∧ g.failedSet = f.failedSet → P f → P g)
    (freeze : ∀ x f, Z x → P f → P { f with frozenSet := f.frozenSet ||| (1#4 <<< (secCode x).toNat) }) : LiftKept Z P where
  drive o s hs := by
    obtain ⟨g, -, h⟩ := s.endFault_faults .lockDrive o
    exact same s.faults _ (by rw [h]; exact ⟨rfl, rfl, rfl⟩) hs
  mismatch x s _ hs := by
    obtain ⟨g, -, h⟩ := s.endFault_faults .indicatorMismatch (secCode x).toNat
    exact same s.faults _ (by rw [h]; exact ⟨rfl, rfl, rfl⟩) hs
  entered x now u f _ hf := same f _ (f.entered_register .blockIrregular (secCode x).toNat now u true) hf
  sounded _ _ f hf := same f _ ⟨rfl, rfl, rfl⟩ hf
  freeze := freeze

theorem failedSet_liftKept (v : BitVec 24) (Z : SectionId → Prop) : LiftKept Z fun f => f.failedSet = v :=
  liftKept_of_register (fun _ _ h hf => h.2.2.trans hf) fun _ _ _ hf => hf

theorem frameCut_liftKept (b : Bool) (Z : SectionId → Prop) : LiftKept Z fun f => f.frameCut = b :=
  liftKept_of_register (fun _ _ h hf => h.1.trans hf) fun _ _ _ hf => hf

theorem frozenSet_liftKept (i : Nat) (Z : SectionId → Prop) : LiftKept Z fun f => f.frozenSet.getLsbD i = true :=
  liftKept_of_register (fun _ _ h hf => by rw [h.2.1]; exact hf) fun _ _ _ hf => or_getLsbD _ _ hf

/-- R156, R164: no lift cuts the frame supply. -/
theorem supplyOn_resets (Z : SectionId → Prop) (T : Nat → Prop) : Resets Z T fun s => s.frame.supplyOn = true where
  report _ _ _ _ s h := by rw [State.report_frame]; exact h
  evaluate c _ h := (steady_supplyOn true).settling.evaluate c _ h
  supply _ _ := rfl
  sect _ _ _ _ _ h := h
  ended _ s _ _ h := (steady_supplyOn true).endFault _ _ s h
  notice _ _ _ h := h
  lift _ _ _ _ _ h := h
  irregular x s _ h := by
    refine irregular_inv (P := fun u => u.frame.supplyOn = true) ?_ fun u hu => ?_
    · rw [(State.enterRaise_only _ _ _ s).frame_eq]; exact h
    · unfold State.freezeSection
      exact ite_keeps (P := fun v : State => v.frame.supplyOn = true) hu ((steady_supplyOn true).settling.evaluate _ _
        ((steady_supplyOn true).report _ _ _ _ _ hu))

theorem restoreFrame_supplyOn (s : State) : s.restoreFrame.frame.supplyOn = true := by
  unfold State.restoreFrame
  generalize hu : ({ s with frame := { s.frame with supplyOn := true } } : State) = u
  have on : u.frame.supplyOn = true := by rw [← hu]
  exact (steady_supplyOn true).settling.evaluate .frameSupply _ ((steady_supplyOn true).report .lock 0 2 [1] u on)

theorem sendLifts_supplyOn (secs : BitVec 4) (trks : BitVec 24) (s : State) : (s.sendLifts true secs trks).frame.supplyOn = true := by
  have resets := supplyOn_resets (fun x => secs.getLsbD (secCode x).toNat = true) fun t => trks.getLsbD (t - 1) = true
  have restored := s.restoreFrame_supplyOn
  exact resets.sendLifts_from true (by rw [if_pos rfl]; exact restored)

/-! A press that lifts nothing. -/

theorem sendLifts_none (s : State) : s.sendLifts false 0#4 0#24 = s := by
  have none : (allSections.filter fun x => (0#4).getLsbD (secCode x).toNat) = [] :=
    List.filter_eq_nil_iff.2 fun x _ => by rw [BitVec.getLsbD_zero]; exact Bool.false_ne_true
  have stays : forEach allTracks (fun n t => if (0#24).getLsbD (n - 1) then t.liftTrack n else t) s = s :=
    forEach_inv (P := fun u => u = s) (fun n u hu => by rw [BitVec.getLsbD_zero, if_neg Bool.false_ne_true]; exact hu) allTracks s rfl
  unfold State.sendLifts; dsimp only
  rw [none, List.filter_nil, if_neg Bool.false_ne_true]
  simp only [forEach, List.foldl_nil]
  exact stays

theorem clearRegister_none (s : State) : s.clearRegister false 0#4 0#24 = s := by
  unfold State.clearRegister
  rw [Bool.not_false, Bool.and_true, BitVec.not_zero, BitVec.and_allOnes, BitVec.not_zero, BitVec.and_allOnes]; rfl

theorem lifts_none (cut : s.faults.frameCut = false) (frozen : s.faults.frozenSet = 0#4) (failed : s.faults.failedSet = 0#24) :
    s.liftsFrame = false ∧ s.liftSections = 0#4 ∧ s.liftTracks = 0#24 := by
  refine ⟨by unfold State.liftsFrame; rw [cut, Bool.false_and], ?_, ?_⟩
  · unfold State.liftSections
    rw [show s.liftsSection = fun _ => false from funext fun x => by
      unfold State.liftsSection; rw [frozen, BitVec.getLsbD_zero, Bool.false_and]]
    decide
  · unfold State.liftTracks
    rw [show s.liftsTrack = fun _ => false from funext fun n => by
      unfold State.liftsTrack; rw [failed, BitVec.getLsbD_zero, Bool.false_and]]
    decide

/-- R163: a press with no order in force and no overflow. -/
theorem boxReset_quiet (cut : s.faults.frameCut = false) (frozen : s.faults.frozenSet = 0#4) (failed : s.faults.failedSet = 0#24)
    (overflow : s.faults.overflow = false) : s.boxReset =
      State.report .fault 0 7 [byte (s.faults.entries.filter fun e => !e.active).length, 0, 0, 0, 0, 0, 0]
        { s with faults := { s.faults with
                   entries := (s.faults.entries.filter fun e => e.active).map fun e => { e with alarmPending := false }
                   shortAlarm := none } } := by
  have none := lifts_none (s := s.silence) cut frozen failed
  obtain ⟨frame, secs, trks⟩ := none
  have unfolded : s.boxReset = ((s.handed.clearRegister s.handed.liftsFrame s.handed.liftSections s.handed.liftTracks).report .fault 0 7
      (byte (s.faults.entries.filter fun e => !e.active).length :: flag s.faults.overflow :: flag s.handed.liftsFrame ::
        (trackSetBytes s.handed.liftTracks ++ [s.handed.liftSections.setWidth 8]))).sendLifts
        s.handed.liftsFrame s.handed.liftSections s.handed.liftTracks := rfl
  rw [unfolded, handed_of_noOverflow overflow, frame, secs, trks, sendLifts_none, clearRegister_none, overflow]
  rfl

end State

/-! ### O19: the frame supply, the conditions and the circuits after a press -/

theorem exec_boxResetKey_press {s : State} (h : s.resetKey = false) :
    exec (.boxResetKey true) s = .next ({ s with resetKey := true } : State).boxReset :=
  congrArg Host.Outcome.next (if_neg (by rw [h]; exact Bool.false_ne_true))

namespace State

variable {s : State}

theorem handed_only (s : State) : OnlyField s s.handed :=
  handed_keeps (P := OnlyField s) (silence_onlyFaults s).eval.orders.field (fun h => h.trans (setFaults_only _ _).eval.orders.field)
    fun c o u hu => hu.trans (State.raise_only c o u).field

theorem boxReset_only (s : State) : OnlyField s s.boxReset := by
  obtain ⟨d, h⟩ := s.boxReset_eq
  rw [h]
  exact (s.handed_only.trans (s.handed.lifting_onlyFaults d).eval.orders.field).trans (sendLifts_only _ _ _ _)

theorem lifting_stands (s : State) (d : List Byte) (p : FaultEntry → Prop) : (s.lifting d).faults.Stands p ↔ s.faults.Stands p := by
  unfold Supervisor.Stands; rw [lifting_faults]

theorem lifting_shown {c : FaultClass} {o : Nat} (d : List Byte) (h : s.faultShown c o) : (s.lifting d).faultShown c o := by
  unfold State.faultShown at h ⊢; rw [lifting_faults]; exact h

/-- R164: what stands before a press lifts stands after it, but for what it takes from the sections it lifts. -/
theorem boxReset_stands {p : FaultEntry → Prop} (drive : ∀ e, p e → e.cls ≠ .lockDrive)
    (sections : ∀ e x, p e → s.handed.liftSections.getLsbD (secCode x).toNat = true → e.object = (secCode x).toNat →
      e.cls ≠ .indicatorMismatch ∧ e.cls ≠ .blockIrregular) (h : s.handed.faults.Stands p) : s.boxReset.faults.Stands p := by
  obtain ⟨d, he⟩ := s.boxReset_eq
  rw [he]
  exact ((Supervisor.stands_liftKept drive sections).resets _).sendLifts _ ((lifting_stands _ d p).2 h)

/-- R158: what stands after a press stood before it lifted. -/
theorem boxReset_stands_of {p : FaultEntry → Prop} (h : s.boxReset.faults.Stands p) : s.handed.faults.Stands p := by
  by_contra hn
  obtain ⟨d, he⟩ := s.boxReset_eq
  refine ((Supervisor.not_stands_liftKept _ p).resets _).sendLifts s.handed.liftsFrame (secs := s.handed.liftSections)
    (trks := s.handed.liftTracks) (s := s.handed.lifting d) (mt (lifting_stands _ d p).1 hn) ?_
  rw [he] at h; exact h

/-- R158, R160: a press without overflow raises nothing that stays ACTIVE. -/
theorem handed_stands (h : s.faults.overflow = false) {p : FaultEntry → Prop}
    (hp : ∀ e : FaultEntry, p { e with alarmPending := false } ↔ p e) : s.handed.faults.Stands p ↔ s.faults.Stands p := by
  rw [handed_of_noOverflow h]; exact silence_stands hp

/-- R36, R164: the frame supply is restored where no LEVER_FORCED or LOCK_STUCK_FREE stands. -/
theorem boxReset_restores (cut : s.faults.frameCut = true) (none : ¬s.handed.faults.Stands frameTold) :
    s.boxReset.frame.supplyOn = true ∧ s.boxReset.faults.frameCut = false := by
  have lifts : s.handed.liftsFrame = true := (liftsFrame_iff s.handed_fresh).2 ⟨handed_frameCut cut, none⟩
  obtain ⟨d, he⟩ := s.boxReset_eq
  have register : (s.handed.lifting d).faults.frameCut = false := by rw [lifting_faults, lifts]; exact Bool.and_false _
  rw [he, lifts]
  exact ⟨sendLifts_supplyOn _ _ _, ((frameCut_liftKept false _).resets _).sendLifts true register⟩

theorem frameTold_told : (∀ e, frameTold e → e.cls ≠ .lockDrive) ∧
    ∀ e, frameTold e → e.cls ≠ .indicatorMismatch ∧ e.cls ≠ .blockIrregular := by
  have classes : ∀ c : FaultClass, c = .leverForced ∨ c = .lockStuckFree →
      c ≠ .lockDrive ∧ c ≠ .indicatorMismatch ∧ c ≠ .blockIrregular := fun c h => by
    obtain rfl | rfl := h <;> decide
  exact ⟨fun e h => (classes _ h).1, fun e h => (classes _ h).2⟩

/-- R163, step 3: the conditions that the owners hold after a press with overflow. -/
theorem boxReset_shown (h : s.faults.overflow = true) : s.boxReset.activeShown := by
  obtain ⟨d, he⟩ := s.boxReset_eq
  have shown := handAll_shown (s.silence.setFaults { s.silence.faults with overflow := false, overflowAlarm := false })
  have untouched := handAll_keeps (P := Untouched (s.silence.setFaults { s.silence.faults with overflow := false, overflowAlarm := false }))
    (fun c o _ hu => (untouched_hands _).raise c o hu) (.refl _)
  rw [← handed_of_overflow h] at shown untouched
  generalize s.silence.setFaults _ = w at shown untouched
  have told : (∀ n, leverOk n = true → LeverShown w n (s.handed.lifting d)) ∧ OwnersShown w (s.handed.lifting d) := by
    have only := s.handed.lifting_onlyFaults d
    exact ⟨fun n hn => ⟨fun hc => lifting_shown d ((shown.1 n hn).contact hc), fun hc => lifting_shown d ((shown.1 n hn).forced hc),
      (shown.1 n hn).drive.onlyFaults only (lifting_shown d), fun hc => lifting_shown d ((shown.1 n hn).stuck hc)⟩,
      shown.2.keep (f := fun u => u.lifting d) (fun _ _ _ hs => lifting_shown d hs) fun x hm => hm.onlyEval (lifting_onlyFaults _ d).eval (lifting_shown d)⟩
  have after := sendLifts_shown s.handed.liftsFrame s.handed.liftSections s.handed.liftTracks told
  have same : Untouched w s.boxReset := by
    rw [he]
    exact (untouched_resets _ _ w).sendLifts _ (untouched.trans (.onlyFaults (s.handed.lifting_onlyFaults d)))
  rw [← he] at after
  obtain ⟨levers, owners⟩ := after
  have bell : ∀ x, s.boxReset.bell x = w.bell x := fun x => (untouched_bell same x).1
  refine ⟨fun n hn => ?_, fun hc => owners.supply (same.lockSupply ▸ hc), fun m h1 h24 => ?_, fun x => ⟨fun hc => owners.mismatch x ?_,
    fun hf hc => owners.crossed x ?_ (bell x ▸ hc), fun hf ⟨k, p, hp, hr⟩ => owners.ring x ?_ ?_⟩⟩
  · obtain ⟨contact, forced, stuck, -⟩ := same.lever n
    exact ⟨fun hc => (levers n hn).contact (contact ▸ hc), fun hc => (levers n hn).forced (forced ▸ hc), (levers n hn).drive,
      fun hc => (levers n hn).stuck (stuck ▸ hc)⟩
  · obtain ⟨channel, degraded⟩ := same.track m
    exact ⟨fun hc => owners.channel m h1 h24 (channel ▸ hc), fun hc => owners.degraded m h1 h24 (degraded ▸ hc)⟩
  · exact Bool.or_eq_true_iff.2 hc
  · exact (untouched_bell same x).2.1.symm.trans hf
  · exact (untouched_bell same x).2.1.symm.trans hf
  · exact (untouched_bell same x).2.2.symm.trans (ringStands_of hp hr)

theorem boxReset_overflowFull (h : s.faults.overflow = true) : s.boxReset.faults.OverflowFull := by
  obtain ⟨d, he⟩ := s.boxReset_eq
  have register : (s.handed.lifting d).faults.OverflowFull := by
    unfold Supervisor.OverflowFull; rw [lifting_faults]; exact handed_overflowFull h
  rw [he]
  exact ((listed_overflowFull.liftKept _).resets _).sendLifts _ register

theorem trackTold_told (n : Nat) : (∀ e, trackTold n e → e.cls ≠ .lockDrive) ∧
    ∀ e, trackTold n e → e.cls ≠ .indicatorMismatch ∧ e.cls ≠ .blockIrregular := by
  have classes : ∀ c : FaultClass, c = .trackChannel ∨ c = .trackDegraded →
      c ≠ .lockDrive ∧ c ≠ .indicatorMismatch ∧ c ≠ .blockIrregular := fun c h => by
    obtain rfl | rfl := h <;> decide
  exact ⟨fun e h => (classes _ h.2.2).1, fun e h => (classes _ h.2.2).2⟩

/-- R62, R164: a failed circuit after a press. -/
theorem boxReset_failedTrack {n : Nat} (h1 : 1 ≤ n) (h24 : n ≤ 24) (failed : s.faults.failedSet.getLsbD (n - 1) = true) :
    (s.boxReset.faults.Stands (trackTold n) ↔ s.handed.faults.Stands (trackTold n)) ∧
    (s.boxReset.faults.failedSet.getLsbD (n - 1) = true ↔ s.boxReset.faults.Stands (trackTold n)) ∧
    (s.boxReset.faults.Stands (trackTold n) → s.boxReset.track n = s.handed.track n) ∧
    (¬s.boxReset.faults.Stands (trackTold n) → s.boxReset.track n = (s.handed.track n).liftedBy (s.trackRec n)) := by
  have stands : s.boxReset.faults.Stands (trackTold n) ↔ s.handed.faults.Stands (trackTold n) :=
    ⟨boxReset_stands_of, boxReset_stands (trackTold_told n).1 fun e x he _ _ => (trackTold_told n).2 e he⟩
  have lifts : s.handed.liftTracks.getLsbD (n - 1) = true ↔ ¬s.handed.faults.Stands (trackTold n) := by
    rw [liftTracks_bit _ h1 h24, liftsTrack_iff s.handed_fresh]
    exact and_iff_right (handed_failed failed)
  obtain ⟨d, he⟩ := s.boxReset_eq
  have register : s.boxReset.faults.failedSet = (s.handed.lifting d).faults.failedSet := by
    rw [he]; exact ((failedSet_liftKept _ _).resets _).sendLifts _ rfl
  have track := sendLifts_track s.handed.liftsFrame s.handed.liftSections s.handed.liftTracks (s.handed.lifting d) h1 h24
  rw [← he] at track
  have same : (s.handed.lifting d).track n = s.handed.track n := (s.handed.lifting_onlyFaults d).track_eq n
  have record : (s.handed.lifting d).trackRec n = s.trackRec n := by
    obtain ⟨_, _, h⟩ := s.handed.lifting_onlyFaults d
    rw [h]; unfold State.trackRec State.table; rw [s.handed_untouched.store]
  rw [same, record] at track
  have small : decide (n - 1 < 24) = true := decide_eq_true (by omega)
  refine ⟨stands, ?_, fun hs => ?_, fun hs => ?_⟩
  · rw [register, lifting_faults]
    change (s.handed.faults.failedSet &&& ~~~s.handed.liftTracks).getLsbD (n - 1) = true ↔ _
    rw [BitVec.getLsbD_and, BitVec.getLsbD_not, handed_failed failed, small, Bool.true_and, Bool.true_and, Bool.not_eq_true',
      ← Bool.not_eq_true, lifts, not_not, stands]
  · rw [track, if_neg fun hb => lifts.1 hb (stands.1 hs)]
  · rw [track, if_pos (lifts.2 (mt stands.2 hs))]

end State

/-! ### O19: the sections after a press -/

/-- Of a run over distinct objects: what the others keep before, one step turns into what the others keep after. -/
theorem forEach_amid {α : Type} {I R : State → Prop} {f : α → State → State} (xs : List α) (hn : xs.Nodup) {y : α} (hy : y ∈ xs)
    (before : ∀ x s, x ≠ y → I s → I (f x s)) (own : ∀ s, I s → R (f y s)) (after : ∀ x s, x ≠ y → R s → R (f x s)) :
    ∀ s, I s → R (forEach xs f s) := by
  induction xs with
  | nil => cases hy
  | cons x xs ih =>
    obtain ⟨hx, hn⟩ := List.nodup_cons.1 hn
    intro s hi
    rcases List.mem_cons.1 hy with rfl | hy
    · exact forEach_inv_mem (P := R) xs (fun z hz u hu => after z u (fun h => hx (h ▸ hz)) hu) _ (own s hi)
    · exact ih hn hy _ (before x s (fun h => hx (h ▸ hy)) hi)

/-- R164: the sections but one. -/
abbrev Except (x : SectionId) : SectionId → Prop := fun y => y ≠ x

namespace State

variable {x : SectionId} {s : State}

theorem sectn_resets (x : SectionId) (T : Nat → Prop) (Q : SectionState → Prop) : Resets (Except x) T fun s => Q (s.sectn x) where
  report _ _ _ _ s h := by rw [(State.report_only _ _ _ _ s).eval.sectn_eq]; exact h
  evaluate c s h := by rw [(State.evaluate_only c s).sectn_eq]; exact h
  supply _ h := h
  sect y f s hy _ h := by rw [State.sectn_updSect, if_neg fun h => hy h.symm]; exact h
  ended y s _ _ h := by rw [(State.endFault_only _ _ s).eval.sectn_eq]; exact h
  notice _ _ _ h := h
  lift _ _ _ _ _ h := h
  irregular y s hy h := by rw [State.irregular_sectn, if_neg fun h => hy h.1.symm]; exact h

/-- What the record of the section and the notifications in flight say of it, the lifts of the others keep. -/
theorem asked_resets (x : SectionId) (T : Nat → Prop) (Q : SectionState → Prop) (n : Notice) :
    Resets (Except x) T fun s => Q (s.sectn x) ∧ n ∈ s.notices := by
  have q := sectn_resets x T Q
  have u := untouched_resets (Except x) T
  exact {
    report := fun c o e d s h => ⟨q.report c o e d s h.1, ((u s).report c o e d s (.refl s)).notices n h.2⟩
    evaluate := fun c s h => ⟨q.evaluate c s h.1, ((u s).evaluate c s (.refl s)).notices n h.2⟩
    supply := fun s h => ⟨q.supply s h.1, ((u s).supply s (.refl s)).notices n h.2⟩
    sect := fun y f s hy hf h => ⟨q.sect y f s hy hf h.1, ((u s).sect y f s hy hf (.refl s)).notices n h.2⟩
    ended := fun y s hy hm h => ⟨q.ended y s hy hm h.1, ((u s).ended y s hy hm (.refl s)).notices n h.2⟩
    notice := fun c k s h => ⟨q.notice c k s h.1, ((u s).notice c k s (.refl s)).notices n h.2⟩
    lift := fun t f s ht hf h => ⟨q.lift t f s ht hf h.1, ((u s).lift t f s ht hf (.refl s)).notices n h.2⟩
    irregular := fun y s hy h => ⟨q.irregular y s hy h.1, ((u s).irregular y s hy (.refl s)).notices n h.2⟩ }

/-- What the unfreeze of a section reads stands as it was. -/
structure Beside (x : SectionId) (s u : State) : Prop where
  sectn : u.sectn x = s.sectn x
  tracks : u.tracks = s.tracks
  rest : Untouched s u

theorem Beside.refl (s : State) : Beside x s s := ⟨rfl, rfl, .refl s⟩

theorem tracks_resets (Z : SectionId → Prop) (v : Bank TrackState 24) : Resets Z (fun _ => False) fun s => s.tracks = v :=
  resets_of_apart State.tracks (fun _ _ h => by obtain ⟨_, _, _, _, _, rfl⟩ := h; rfl) v Z

theorem Beside.unfreeze {u : State} (h : Beside x s u) {y : SectionId} (hy : y ≠ x) : Beside x s (u.unfreeze y) :=
  ⟨(sectn_resets x (fun _ => True) (· = s.sectn x)).unfreeze hy h.sectn, (tracks_resets (Except x) _).unfreeze hy h.tracks,
    (untouched_resets (Except x) (fun _ => True) s).unfreeze hy h.rest⟩

theorem Beside.restoreFrame (s : State) : Beside x s s.restoreFrame := by
  have only := restoreFrame_only s
  refine ⟨only.sectn_eq x, ?_, ?_⟩
  · obtain ⟨_, _, _, h⟩ := only; rw [h]
  · have resets := untouched_resets (fun _ => True) (fun _ => True) s
    exact resets.evaluate _ _ (resets.report _ _ _ _ _ (resets.supply s (.refl s)))

/-- R145, R164: what the unfreeze of a section makes of it, the lifts leave. -/
theorem sendLifts_lifted {secs : BitVec 4} (hx : secs.getLsbD (secCode x).toNat = true) {Q : State → Prop}
    (resets : Resets (Except x) (fun _ => True) Q) (irregular : ∀ u, Q u → Q (State.irregular x u))
    (own : ∀ u, Beside x s u → Q (u.unfreeze x)) (frame : Bool) (trks : BitVec 24) : Q (s.sendLifts frame secs trks) := by
  have restored : Beside x s (if frame then s.restoreFrame else s) := ite_keeps (P := Beside x s) (.restoreFrame s) (.refl s)
  have mem : x ∈ allSections.filter fun y => secs.getLsbD (secCode y).toNat := List.mem_filter.2 ⟨mem_allSections x, hx⟩
  have nodup : (allSections.filter fun y => secs.getLsbD (secCode y).toNat).Nodup := List.Nodup.filter _ (by decide)
  unfold State.sendLifts; dsimp only
  refine forEach_inv (P := Q) (fun y u hu => ?_) _ _ (forEach_inv (P := Q) (fun n u hu => ?_) _ _
    (forEach_amid _ nodup mem (fun y u hy hu => hu.unfreeze hy) own (fun y u hy hu => resets.unfreeze hy hu) _ restored))
  · by_cases hy : y = x
    · rw [hy]; exact irregular u hu
    · exact resets.irregular y u hy hu
  · exact ite_keeps (resets.liftTrack trivial hu) hu

end State

/-- R141: the state that a handle leaves; `out`: outside STORING, `accepts`: the test of a LINE CLEAR handle. -/
def handledTo (b : BlockState) (h : Handle) (out accepts cancel : Bool) : BlockState :=
  match b, h with
  | .offeredIn, .lineClear => if out && accepts then .clearIn else .offeredIn
  | .clearIn, .trainOnLine => if out then .onLineIn else .clearIn
  | .clearIn, .lineBlocked => if out && cancel then .blocked else .clearIn
  | b, _ => b

theorem handledTo_corresponding (b : BlockState) (out accepts cancel : Bool) : handledTo b (handleFor b) out accepts cancel = b := by
  cases b <;> rfl

theorem handledTo_storing (b : BlockState) (h : Handle) (accepts cancel : Bool) : handledTo b h false accepts cancel = b := by
  unfold handledTo; split <;> rfl

theorem handledTo_rest {b : BlockState} {h : Handle} (accept : b = .offeredIn → h = .lineClear → False)
    (enter : b = .clearIn → h = .trainOnLine → False) (cancelled : b = .clearIn → h = .lineBlocked → False) (out accepts cancel : Bool) :
    handledTo b h out accepts cancel = b := by
  unfold handledTo; split
  · exact (accept rfl rfl).elim
  · exact (enter rfl rfl).elim
  · exact (cancelled rfl rfl).elim
  · rfl

/-- R140, R142: the state of a section that is not frozen, and whether the handle corresponds to it. -/
def SectionState.At (b : BlockState) (h : Handle) (r : SectionState) : Prop :=
  r.state = some b ∧ r.outOfCorr = decide (h ≠ handleFor b) ∧ r.frozen = false

namespace State

variable {x : SectionId} {s : State}

theorem enterState_at (b : BlockState) (w : StateCause) (hz : (s.sectn x).frozen = false) (hm : (s.sectn x).handle ≠ .moving) :
    ((s.enterState x b w []).sectn x).At b (s.sectn x).handle := by
  rw [enterState_sectn_same]
  refine ⟨rfl, ?_, hz⟩
  unfold SectionState.entered; exact if_neg hm

theorem holdHandle_at {b : BlockState} (again : Bool) (hb : (s.sectn x).state = some b) (hz : (s.sectn x).frozen = false)
    (hh : (s.sectn x).handle ≠ handleFor b) : ((s.holdHandle x again).sectn x).At b (s.sectn x).handle := by
  rw [holdHandle_sectn, if_pos rfl]
  exact ⟨hb, (decide_eq_true hh).symm, hz⟩

theorem blockBackTest_at {b : BlockState} {h : Handle} (hs : (s.sectn x).At b h) : ((s.blockBackTest x).sectn x).At b h := by
  rcases blockBackTest_cases x s with he | ⟨rec, -, -, he⟩ <;> rw [he]
  · exact hs
  · rw [sectn_sendNotice, State.sectn_updSect_same]; exact hs

/-- R141, R142: the state that a handle taken leaves, and its correspondence to it. -/
theorem handleEvent_at {b : BlockState} (hb : (s.sectn x).state = some b) (hz : (s.sectn x).frozen = false)
    (hm : (s.sectn x).handle ≠ .moving) :
    ((s.handleEvent x).sectn x).At
      (handledTo b (s.sectn x).handle (!s.isStoring) (s.clearAllowed x) (s.sectn x).cancelReceived) (s.sectn x).handle := by
  by_cases hh : (s.sectn x).handle = handleFor b
  · rw [handleEvent_corresponds hb hz hh, State.correspond_sectn x x b s hb, if_pos rfl, hh, handledTo_corresponding]
    rw [hh] at hm
    exact ⟨hb, if_neg hm, hz⟩
  · cases hst : s.isStoring with
    | true => rw [handleEvent_storing hb hz hh hst, Bool.not_true, handledTo_storing]; exact holdHandle_at false hb hz hh
    | false =>
      rw [handleEvent_moves hb hz hh hst]
      have enter : ∀ a w, ((s.enterState x a w []).sectn x).At a (s.sectn x).handle := fun a w => enterState_at a w hz hm
      have hold : ∀ again, ((s.holdHandle x again).sectn x).At b (s.sectn x).handle := fun again => holdHandle_at again hb hz hh
      by_cases c1 : b = .offeredIn ∧ (s.sectn x).handle = .lineClear
      · obtain ⟨rfl, h⟩ := c1
        have move : s.handleMove x .offeredIn = if s.clearAllowed x then s.enterState x .clearIn .handle [] else s.holdHandle x true := by
          unfold handleMove; rw [h]
        rw [move, h]; rw [h] at enter hold
        cases s.clearAllowed x with
        | true => exact enter .clearIn .handle
        | false => exact hold true
      by_cases c2 : b = .clearIn ∧ (s.sectn x).handle = .trainOnLine
      · obtain ⟨rfl, h⟩ := c2
        have move : s.handleMove x .clearIn = s.enterState x .onLineIn .handle [] := by unfold handleMove; rw [h]
        rw [move, h]; rw [h] at enter
        exact enter .onLineIn .handle
      by_cases c3 : b = .clearIn ∧ (s.sectn x).handle = .lineBlocked
      · obtain ⟨rfl, h⟩ := c3
        have move : s.handleMove x .clearIn =
            if (s.sectn x).cancelReceived then s.enterState x .blocked .handle [] else s.holdHandle x true := by unfold handleMove; rw [h]
        rw [move, h]; rw [h] at enter hold
        cases (s.sectn x).cancelReceived with
        | true => exact enter .blocked .handle
        | false => exact hold true
      have stays : handledTo b (s.sectn x).handle (!false) (s.clearAllowed x) (s.sectn x).cancelReceived = b :=
        handledTo_rest (fun h g => c1 ⟨h, g⟩) (fun h g => c2 ⟨h, g⟩) (fun h g => c3 ⟨h, g⟩) _ _ _
      rw [stays]
      unfold handleMove; split
      · rename_i h; exact (c1 ⟨rfl, h⟩).elim
      · rename_i h; exact (c2 ⟨rfl, h⟩).elim
      · rename_i h; exact (c3 ⟨rfl, h⟩).elim
      · exact blockBackTest_at (hold true)
      · exact hold false

theorem handleHeld_at {b : BlockState} (hb : (s.sectn x).state = some b) (hz : (s.sectn x).frozen = false)
    (hh : (s.sectn x).handle ≠ handleFor b) : ((s.handleHeld x).sectn x).At b (s.sectn x).handle := by
  unfold State.handleHeld; dsimp only
  rw [hb]; dsimp only
  rw [hz, if_neg Bool.false_ne_true]
  exact holdHandle_at false hb hz hh

end State

theorem handledTo_congr {b : BlockState} {h : Handle} {out a a' c c' : Bool} (ha : b = .offeredIn → a = a') (hc : b = .clearIn → c = c') :
    handledTo b h out a c = handledTo b h out a' c' := by
  unfold handledTo; split
  · rw [ha rfl]
  · rfl
  · rw [hc rfl]
  · rfl

theorem handledTo_away {b : BlockState} {h : Handle} (hh : h = .moving ∨ h = .unreadable) (out a c : Bool) :
    handledTo b h out a c = b ∧ h ≠ handleFor b := by
  obtain rfl | rfl := hh <;> cases b <;> exact ⟨rfl, by decide⟩

/-- R137: no change of polarity leaves a section in a state in which it was not, of those that a handle moves on. -/
theorem polarityNext_stays {b : BlockState} {m : Polarity} (h : polarityNext b m = .offeredIn ∨ polarityNext b m = .clearIn) :
    polarityNext b m = b := by
  unfold polarityNext at h ⊢
  split at h <;> simp_all

/-- R137: what a section keeps of its record under a polarity that it follows without an entry into a state. -/
theorem SectionState.followed_stays {b : BlockState} {m : Polarity} (h : polarityNext b m = b) (r : SectionState) :
    (r.followed b m).offered = r.offered ∧ (r.followed b m).cancelReceived = r.cancelReceived ∧ (r.followed b m).state = r.state ∧
    (r.followed b m).outSent = r.outSent ∧ (r.followed b m).consumeAsked = r.consumeAsked := by
  unfold SectionState.followed; rw [if_pos h]; exact ⟨rfl, rfl, rfl, rfl, rfl⟩

theorem SectionState.followed_at {b : BlockState} (m : Polarity) {r : SectionState} (hb : r.state = some b) :
    (r.followed b m).state = some (polarityNext b m) ∧ (r.followed b m).handle = r.handle ∧ (r.followed b m).frozen = r.frozen := by
  by_cases h : polarityNext b m = b
  · unfold SectionState.followed; rw [if_pos h, h]; exact ⟨hb, rfl, rfl⟩
  · unfold SectionState.followed; rw [if_neg h]; exact ⟨rfl, rfl, rfl⟩

namespace State

variable {x : SectionId} {s : State}

/-- R145: the freeze ended. -/
def thawed (x : SectionId) (s : State) : State :=
  ((s.updSect x fun r => { r with frozen := false }).sectReport x 8 [1]).evaluate .verdict

theorem thawed_sectn (x : SectionId) (s : State) : (s.thawed x).sectn x = { s.sectn x with frozen := false } := by
  unfold State.thawed
  rw [(State.evaluate_only _ _).sectn_eq, (State.sectReport_only x 8 [1] _).sectn_eq,
    State.sectn_updSect_same]

theorem unfreeze_eq (hz : (s.sectn x).frozen = true) : s.unfreeze x =
    if (((s.thawed x).followPolarity x false).sectn x).handle = .moving ∨ (((s.thawed x).followPolarity x false).sectn x).handle = .unreadable
    then ((s.thawed x).followPolarity x false).handleHeld x else ((s.thawed x).followPolarity x false).handleEvent x := by
  unfold State.unfreeze; rw [if_pos hz]; dsimp only
  change (match (((s.thawed x).followPolarity x false).sectn x).handle with
    | .moving | .unreadable => ((s.thawed x).followPolarity x false).handleHeld x
    | .lineBlocked | .lineClear | .trainOnLine => ((s.thawed x).followPolarity x false).handleEvent x) = _
  cases (((s.thawed x).followPolarity x false).sectn x).handle <;> rfl

/-- R145: the section and what is about it, before the handle is taken. -/
theorem followed_beside {b : BlockState} (hb : (s.sectn x).state = some b) :
    (((s.thawed x).followPolarity x false).sectn x) = SectionState.followed b (s.sectn x).measured { s.sectn x with frozen := false } ∧
    ((s.thawed x).followPolarity x false).tracks = s.tracks ∧ Untouched s ((s.thawed x).followPolarity x false) := by
  have state : ((s.thawed x).sectn x).state = some b := by rw [thawed_sectn]; exact hb
  have thaw : ((s.thawed x).sectn x).frozen = false := by rw [thawed_sectn]
  have own := followPolarity_sectn state thaw false x
  rw [if_pos rfl, thawed_sectn] at own
  have tracks := tracks_resets (fun _ => True) s.tracks
  have rest := untouched_resets (fun _ => True) (fun _ => False) s
  refine ⟨own, tracks.followPolarity trivial _ (tracks.evaluate _ _ (tracks.report _ _ _ _ _ (tracks.quiet trivial (fun _ => rfl) rfl))),
    rest.followPolarity trivial _ (rest.evaluate _ _ (rest.report _ _ _ _ _ (rest.quiet trivial (fun _ => rfl) (.refl s))))⟩

theorem clearAllowed_congr {u : State} (store : u.store = s.store) (offered : (u.sectn x).offered = (s.sectn x).offered)
    (position : ∀ n, (u.lever n).position = (s.lever n).position) (tracks : u.tracks = s.tracks) : u.clearAllowed x = s.clearAllowed x := by
  have record : u.sectionRec x = s.sectionRec x := by unfold State.sectionRec State.table; rw [store]
  have track : ∀ n, u.track n = s.track n := fun n => by unfold State.track; rw [tracks]
  unfold State.clearAllowed
  rw [record, offered]
  cases s.sectionRec x with
  | none => rfl
  | some rec => dsimp only; rw [position, track]

theorem isStoring_congr {u : State} (store : u.store = s.store) : u.isStoring = s.isStoring := by unfold State.isStoring; rw [store]

/-- R145: the state that the unfreeze of a section leaves, and the handle's correspondence to it. -/
theorem unfreeze_at {b : BlockState} (hb : (s.sectn x).state = some b) (hz : (s.sectn x).frozen = true) :
    ((s.unfreeze x).sectn x).At (handledTo (polarityNext b (s.sectn x).measured) (s.sectn x).handle (!s.isStoring) (s.clearAllowed x)
      (s.sectn x).cancelReceived) (s.sectn x).handle := by
  obtain ⟨own, tracks, rest⟩ := followed_beside hb
  obtain ⟨state, handle, frozen⟩ := SectionState.followed_at (r := { s.sectn x with frozen := false }) (s.sectn x).measured hb
  have stays := fun h => SectionState.followed_stays (b := b) (m := (s.sectn x).measured) h { s.sectn x with frozen := false }
  rw [unfreeze_eq hz]
  rw [← own] at state handle frozen stays
  change _ = (s.sectn x).handle at handle
  change _ = false at frozen
  generalize (s.thawed x).followPolarity x false = u at tracks rest state handle frozen stays ⊢
  have accepts : polarityNext b (s.sectn x).measured = .offeredIn → u.clearAllowed x = s.clearAllowed x := fun h =>
    clearAllowed_congr rest.store (stays (polarityNext_stays (.inl h))).1 (fun n => (rest.lever n).2.2.2) tracks
  have cancel : polarityNext b (s.sectn x).measured = .clearIn → (u.sectn x).cancelReceived = (s.sectn x).cancelReceived := fun h =>
    (stays (polarityNext_stays (.inr h))).2.1
  split
  · rename_i ha
    obtain ⟨stands, away⟩ := handledTo_away (b := polarityNext b (s.sectn x).measured) (handle ▸ ha) (!s.isStoring) (s.clearAllowed x)
      (s.sectn x).cancelReceived
    rw [stands]
    have held := handleHeld_at state frozen (by rw [handle]; exact away)
    rw [handle] at held; exact held
  · rename_i ha
    have event := handleEvent_at state frozen fun h => ha (.inl h)
    rw [handle, isStoring_congr rest.store, handledTo_congr accepts cancel] at event
    exact event

end State

/-! ### R145, R164: what the unfreezes bring to the list -/

/-- A predicate of the list that an end keeps. -/
def EndKept (P : Supervisor → Prop) : Prop :=
  ∀ c o f, P f → P { f with entries := f.entries.map (FaultEntry.endedBy c o) }

theorem FaultEntry.endedBy_same (c : FaultClass) (o : Nat) (e : FaultEntry) : (e.endedBy c o).cls = e.cls ∧
    (e.endedBy c o).object = e.object ∧ (e.endedBy c o).unmasked = e.unmasked ∧ (e.active = false → (e.endedBy c o).active = false) := by
  unfold FaultEntry.endedBy; split
  · exact ⟨rfl, rfl, rfl, fun _ => rfl⟩
  · exact ⟨rfl, rfl, rfl, id⟩

namespace EndKept

variable {P : Supervisor → Prop} (h : EndKept P)
include h

theorem endFault (c : FaultClass) (o : Nat) (s : State) (hs : P s.faults) : P (s.endFault c o).faults := by
  unfold State.endFault; split
  · exact hs
  · split
    · rw [State.report_faults]; exact h c o s.faults hs
    · exact hs

theorem steady : Steady fun s => P s.faults where
  congr _ _ hf _ hs := by rw [hf]; exact hs
  endFault := h.endFault

theorem liftKept {Z : SectionId → Prop} (entered : ∀ x now u f, Z x → P f → P (f.entered .blockIrregular (secCode x).toNat now u true))
    (sounded : ∀ now u f, P f → P (f.sounded .blockIrregular now u))
    (freeze : ∀ x f, Z x → P f → P { f with frozenSet := f.frozenSet ||| (1#4 <<< (secCode x).toNat) }) : LiftKept Z P where
  drive o := h.endFault .lockDrive o
  mismatch _ s _ := h.endFault _ _ s
  entered := entered
  sounded := sounded
  freeze := freeze

/-- R155, R156: what the raise of BLOCK_IRREGULAR leaves in the list, its order leaves there. -/
theorem irregular {x : SectionId} {s : State} (sounded : ∀ now u f, P f → P (f.sounded .blockIrregular now u))
    (freeze : ∀ f, P f → P { f with frozenSet := f.frozenSet ||| (1#4 <<< (secCode x).toNat) })
    (entered : P (s.faults.entered .blockIrregular (secCode x).toNat s.now (s.faults.unmaskedFor .blockIrregular (secCode x).toNat) true)) :
    P (s.irregular x).faults := by
  have raised : P (s.enterRaise .blockIrregular (secCode x).toNat true).faults := by
    rw [State.enterRaise_faults]; exact sounded _ _ _ entered
  unfold State.irregular State.raiseAndEnd State.raiseWith
  exact ite_keeps (P := fun u : State => P u.faults) (State.deliver_keeps (P := fun u : State => P u.faults) (h.endFault .lockDrive)
    (fun _ _ hf hu => by rw [hf]; exact hu) _ _ (freeze _ raised)) raised

end EndKept

namespace Supervisor

variable {x : SectionId} {f : Supervisor}

/-- R155: the next BLOCK_IRREGULAR of the section is masked exactly where its class is, in the set `m`. -/
structure Ready (x : SectionId) (m : Bool) (f : Supervisor) : Prop where
  masked : f.masked.getLsbD FaultClass.blockIrregular.number = m
  entries : ∀ e ∈ f.entries, e.is .blockIrregular (secCode x).toNat = true → e.unmasked = false

theorem Ready.unmaskedFor {m : Bool} (h : f.Ready x m) : f.unmaskedFor .blockIrregular (secCode x).toNat = !m := by
  have entry : (f.entryOf .blockIrregular (secCode x).toNat).any (fun e => e.unmasked) = false := by
    cases he : f.entryOf .blockIrregular (secCode x).toNat with
    | none => rfl
    | some e =>
      exact h.entries e (List.mem_of_find?_eq_some he) (List.find?_some (p := FaultEntry.is .blockIrregular (secCode x).toNat) he)
  rw [Supervisor.unmaskedFor_eq, entry, h.masked]
  cases m <;> rfl

theorem ready_ended (x : SectionId) (m : Bool) : EndKept (Ready x m) := fun c o f h =>
  ⟨h.masked, fun e he hi => by
    obtain ⟨g, hg, rfl⟩ := List.mem_map.1 he
    rw [FaultEntry.endedBy_is] at hi
    exact (g.endedBy_same c o).2.2.1.trans (h.entries g hg hi)⟩

theorem is_of_other {x y : SectionId} (hy : y ≠ x) {e : FaultEntry} (he : e.is .blockIrregular (secCode y).toNat = true) :
    e.is .blockIrregular (secCode x).toNat = false :=
  Bool.eq_false_of_not_eq_true fun hx =>
    hy (secCode_toNat_inj (((FaultEntry.is_iff _ _ e).1 he).2.symm.trans ((FaultEntry.is_iff _ _ e).1 hx).2))

theorem newEntry_is (c : FaultClass) (o : Nat) (now : Time) (u m : Bool) : (newEntry c o now u m).is c o = true :=
  (FaultEntry.is_iff _ _ _).2 ⟨rfl, rfl⟩

/-- R157, R158: an entry of another object in the list after a raise stood there before. -/
theorem mem_of_mem_entered {c : FaultClass} {o : Nat} {now : Time} {u m : Bool} {e : FaultEntry} (he : e ∈ (f.entered c o now u m).entries)
    (hi : e.is c o = false) : e ∈ f.entries := by
  have last : ∀ {es : List FaultEntry}, (∀ g ∈ es, g ∈ f.entries) → e ∈ es ++ [newEntry c o now u m] → e ∈ f.entries := fun hes he =>
    (List.mem_append.1 he).elim (hes e) fun hn => by
      rw [List.mem_singleton.1 hn, newEntry_is] at hi; cases hi
  unfold Supervisor.entered at he; split at he
  · obtain ⟨g, hg, rfl⟩ := List.mem_map.1 he
    split at hi
    · rename_i hc; rw [FaultEntry.recur_is, hc] at hi; cases hi
    · rename_i hc; rw [if_neg hc]; exact hg
  · split at he
    · exact last (fun _ => id) he
    · split at he
      · exact last (fun _ => List.mem_of_mem_eraseP) he
      · exact he

theorem ready_liftKept (x : SectionId) (m : Bool) : LiftKept (Except x) (Ready x m) :=
  (ready_ended x m).liftKept (fun y now u f hy h => ⟨by rw [(f.entered_masked _ _ _ _ _).1]; exact h.masked, fun e he hi =>
    h.entries e (mem_of_mem_entered he (Bool.eq_false_of_not_eq_true fun hc => by rw [is_of_other hy hc] at hi; cases hi)) hi⟩)
    (fun _ _ _ h => ⟨h.masked, h.entries⟩) fun _ _ _ h => ⟨h.masked, h.entries⟩

/-- R156: the register's bit of the section. -/
abbrev FrozenBit (x : SectionId) (b : Bool) (f : Supervisor) : Prop := f.frozenSet.getLsbD (secCode x).toNat = b

theorem frozenBit_ended (x : SectionId) (b : Bool) : EndKept (FrozenBit x b) := fun _ _ _ h => h

theorem frozenBit_liftKept (x : SectionId) (b : Bool) : LiftKept (Except x) (FrozenBit x b) :=
  (frozenBit_ended x b).liftKept (fun y now u f _ h => by
      unfold FrozenBit; rw [(f.entered_register _ _ _ _ _).2.1]; exact h) (fun _ _ _ h => h) fun y f hy h => by
    have other : ((secCode x).toNat == (secCode y).toNat) = false :=
      beq_false_of_ne fun he => hy (secCode_toNat_inj he).symm
    change (f.frozenSet ||| 1#4 <<< (secCode y).toNat).getLsbD (secCode x).toNat = b
    rw [bit_or_shift _ _ _ (show (secCode x).toNat < 4 by cases x <;> decide), other, Bool.or_false]; exact h

/-- R157: the list has room for `n` further entries. -/
structure Room (n : Nat) (f : Supervisor) : Prop where
  length : f.entries.length + n ≤ 16
  overflow : f.overflow = false

/-- R158: the ENDED entry of a BLOCK_IRREGULAR of the section stands in a list with room for `n` further entries. -/
structure Logged (x : SectionId) (n : Nat) (f : Supervisor) : Prop where
  room : f.Room n
  entry : ∃ e ∈ f.entries, e.is .blockIrregular (secCode x).toNat = true ∧ e.active = false

theorem room_ended (n : Nat) : EndKept (Room n) := fun _ _ _ h => ⟨by rw [List.length_map]; exact h.length, h.overflow⟩

theorem logged_ended (x : SectionId) (n : Nat) : EndKept (Logged x n) := fun c o f h => by
  obtain ⟨e, he, hi, ha⟩ := h.entry
  exact ⟨room_ended n c o f h.room, _, List.mem_map.2 ⟨e, he, rfl⟩, (e.endedBy_is c _ o _).trans hi, (e.endedBy_same c o).2.2.2 ha⟩

theorem Room.entered {n : Nat} (h : f.Room (n + 1)) (c : FaultClass) (o : Nat) (now : Time) (u m : Bool) :
    (f.entered c o now u m).Room n := by
  have length := h.length
  unfold Supervisor.entered; split
  · exact ⟨by rw [List.length_map]; omega, h.overflow⟩
  · rw [if_pos (by omega)]
    exact ⟨by rw [List.length_append, List.length_singleton]; omega, h.overflow⟩

theorem Room.logged {n : Nat} (h : f.Room (n + 1)) (x : SectionId) (now : Time) (u : Bool) :
    (f.entered .blockIrregular (secCode x).toNat now u true).Logged x n := by
  have room := h.entered .blockIrregular (secCode x).toNat now u true
  rcases f.entered_shows .blockIrregular (secCode x).toNat now u true with ⟨e, he, hc, ho, ha⟩ | ho
  · exact ⟨room, e, he, (FaultEntry.is_iff _ _ e).2 ⟨hc, ho⟩, ha⟩
  · rw [room.overflow] at ho; cases ho

theorem Logged.entered {n : Nat} (h : f.Logged x (n + 1)) {y : SectionId} (hy : y ≠ x) (now : Time) (u m : Bool) :
    (f.entered .blockIrregular (secCode y).toNat now u m).Logged x n := by
  refine ⟨h.room.entered _ _ _ _ _, ?_⟩
  obtain ⟨e, he, hi, ha⟩ := h.entry
  have length := h.room.length
  unfold Supervisor.entered; split
  · refine ⟨e, List.mem_map.2 ⟨e, he, if_neg fun hc => ?_⟩, hi, ha⟩
    rw [is_of_other hy hc] at hi; cases hi
  · rw [if_pos (by omega)]
    exact ⟨e, List.mem_append_left _ he, hi, ha⟩

end Supervisor

/-- Of a run over distinct objects, with the number of steps still to come: what the steps before the one of `y` keep, it turns
into what the steps after it keep. -/
theorem forEach_amid_counted {α : Type} {I R : Nat → State → Prop} {f : α → State → State} {y : α}
    (before : ∀ x n s, x ≠ y → I (n + 1) s → I n (f x s)) (own : ∀ n s, I (n + 1) s → R n (f y s))
    (after : ∀ x n s, x ≠ y → R (n + 1) s → R n (f x s)) :
    ∀ (xs : List α), xs.Nodup → y ∈ xs → ∀ s, I xs.length s → R 0 (forEach xs f s) := by
  have rest : ∀ xs : List α, y ∉ xs → ∀ s, R xs.length s → R 0 (forEach xs f s) := fun xs => by
    induction xs with
    | nil => exact fun _ _ h => h
    | cons x xs ih =>
      exact fun hy s h => ih (fun hm => hy (List.mem_cons_of_mem _ hm)) _ (after x _ s (fun he => hy (he ▸ List.mem_cons_self)) h)
  intro xs
  induction xs with
  | nil => exact fun _ hy => by cases hy
  | cons x xs ih =>
    intro hn hy s hi
    obtain ⟨hx, hn⟩ := List.nodup_cons.1 hn
    rcases List.mem_cons.1 hy with rfl | hy
    · exact rest xs hx _ (own _ s hi)
    · exact ih hn hy _ (before x _ s (fun h => hx (h ▸ hy)) hi)

namespace Resets

variable {Z : SectionId → Prop} {T : Nat → Prop} {P : State → Prop}

theorem mono {Y : SectionId → Prop} (h : Resets Z T P) (hz : ∀ x, Y x → Z x) : Resets Y T P :=
  { h with
    sect := fun x f s hx => h.sect x f s (hz x hx)
    ended := fun x s hx => h.ended x s (hz x hx)
    irregular := fun x s hx => h.irregular x s (hz x hx) }

end Resets

namespace State

variable {x : SectionId} {s : State} {b : BlockState} {secs : BitVec 4}

/-- R164: the lifts, before the raises that the unfreezes lead to. -/
def thawLifts (frame : Bool) (secs : BitVec 4) (trks : BitVec 24) (s : State) : State :=
  forEach allTracks (fun n t => if trks.getLsbD (n - 1) then t.liftTrack n else t)
    (forEach (allSections.filter fun x => secs.getLsbD (secCode x).toNat) unfreeze (if frame then s.restoreFrame else s))

/-- R145: the sections whose unfreeze leads to a raise. -/
def raisers (secs : BitVec 4) (s : State) : List SectionId :=
  (allSections.filter fun x => secs.getLsbD (secCode x).toNat).filter s.unfreezeRaises

theorem sendLifts_eq (frame : Bool) (secs : BitVec 4) (trks : BitVec 24) (s : State) :
    s.sendLifts frame secs trks = forEach (s.raisers secs) irregular (s.thawLifts frame secs trks) := rfl

theorem raisers_nodup (secs : BitVec 4) (s : State) : (s.raisers secs).Nodup :=
  .filter _ (.filter _ (by decide))

theorem raisers_length (secs : BitVec 4) (s : State) : (s.raisers secs).length ≤ 4 :=
  ((List.length_filter_le _ _).trans (List.length_filter_le _ _)).trans (by decide)

theorem mem_raisers (hx : secs.getLsbD (secCode x).toNat = true) (hb : (s.sectn x).state = some b) (hz : (s.sectn x).frozen = true) :
    x ∈ s.raisers secs ↔ polarityIrregular b (s.sectn x).measured (s.sectn x).releaseUsed = true := by
  unfold raisers unfreezeRaises
  rw [List.mem_filter, polarityOutOfTurn_eq hb, hz, Bool.true_and]
  exact and_iff_right (List.mem_filter.2 ⟨mem_allSections x, hx⟩)

/-- What the ends keep of the list, the lifts keep before the raises. -/
theorem thawLifts_list {P : Supervisor → Prop} (h : EndKept P) (frame : Bool) (secs : BitVec 4) (trks : BitVec 24) (hs : P s.faults) :
    P (s.thawLifts frame secs trks).faults := by
  have steady := h.steady
  have restored : P (if frame then s.restoreFrame else s).faults := by
    refine ite_keeps (P := fun u : State => P u.faults) ?_ hs
    unfold restoreFrame
    generalize hu : ({ s with frame := { s.frame with supplyOn := true } } : State) = u
    have on : P u.faults := by rw [← hu]; exact hs
    exact steady.settling.evaluate .frameSupply _ (steady.report .lock 0 2 [1] u on)
  refine forEach_inv (P := fun u : State => P u.faults) (fun n u hu => ?_) _ _
    (forEach_inv (P := fun u : State => P u.faults) (fun y u hu => ?_) _ _ restored)
  · refine ite_keeps (P := fun u : State => P u.faults) (liftTrack_cases (P := fun u : State => P u.faults) n (fun f _ a => ?_) hu) hu
    exact steady.report _ _ _ _ (u.updTrack n f) hu
  · exact steady.settling.unfreeze y (fun _ => hu) fun _ => hu

/-- R145: before the raises the sections lifted are not frozen. -/
theorem thawLifts_unfrozen (hx : secs.getLsbD (secCode x).toNat = true) (hb : (s.sectn x).state = some b)
    (hz : (s.sectn x).frozen = true) (frame : Bool) (trks : BitVec 24) : ((s.thawLifts frame secs trks).sectn x).frozen = false := by
  have resets := sectn_resets x (fun _ => True) fun r => r.frozen = false
  have restored : Beside x s (if frame then s.restoreFrame else s) := ite_keeps (P := Beside x s) (.restoreFrame s) (.refl s)
  have mem : x ∈ allSections.filter fun y => secs.getLsbD (secCode y).toNat := List.mem_filter.2 ⟨mem_allSections x, hx⟩
  unfold thawLifts
  refine forEach_inv (P := fun u : State => (u.sectn x).frozen = false) (fun n u hu => ?_) _ _
    (forEach_amid (I := Beside x s) (R := fun u => (u.sectn x).frozen = false) _ (.filter _ (by decide)) mem (fun y u hy hu => Beside.unfreeze hu hy)
      (fun u hu => ?_) (fun y u hy hu => resets.unfreeze hy hu) _ restored)
  · exact ite_keeps (P := fun u : State => (u.sectn x).frozen = false) (resets.liftTrack trivial hu) hu
  · have own := hu.sectn
    exact (unfreeze_at (s := u) (x := x) (by rw [own]; exact hb) (by rw [own]; exact hz)).2.2

/-- R145, R155: a raise of BLOCK_IRREGULAR freezes the section again where it is unmasked. -/
theorem irregular_frozen {m : Bool} (ready : s.faults.Ready x m) (bit : s.faults.FrozenBit x false) (thawed : (s.sectn x).frozen = false) :
    ((s.irregular x).sectn x).frozen = !m ∧ (s.irregular x).faults.FrozenBit x (!m) := by
  have unmasked := ready.unmaskedFor
  rw [irregular_sectn, unmasked]
  cases m with
  | true =>
    refine ⟨by rw [if_neg fun h => Bool.false_ne_true h.2]; exact thawed, ?_⟩
    have stays : s.irregular x = s.enterRaise .blockIrregular (secCode x).toNat true := by
      unfold State.irregular State.raiseAndEnd State.raiseWith; rw [unmasked]; rfl
    unfold Supervisor.FrozenBit
    rw [stays, enterRaise_faults]
    exact (congrArg (fun v => v.getLsbD (secCode x).toNat) (s.faults.entered_register _ _ _ _ _).2.1).trans bit
  | false => exact ⟨by rw [if_pos ⟨rfl, rfl⟩]; rfl, freezeRaise_frozenSet (c := .blockIrregular) rfl true x s unmasked⟩

/-- R145, R155, R164: a section lifted is frozen again where its re-test is irregular and the class unmasked. -/
theorem sendLifts_again (hx : secs.getLsbD (secCode x).toNat = true) (hb : (s.sectn x).state = some b) (hz : (s.sectn x).frozen = true)
    {m : Bool} (ready : s.faults.Ready x m) (bit : s.faults.FrozenBit x false) (frame : Bool) (trks : BitVec 24) :
    ((s.sendLifts frame secs trks).sectn x).frozen =
      (polarityIrregular b (s.sectn x).measured (s.sectn x).releaseUsed && !m) ∧
    (s.sendLifts frame secs trks).faults.FrozenBit x (polarityIrregular b (s.sectn x).measured (s.sectn x).releaseUsed && !m) := by
  have thawed := thawLifts_unfrozen hx hb hz frame trks
  have ready := thawLifts_list (Supervisor.ready_ended x m) frame secs trks ready
  have bit := thawLifts_list (Supervisor.frozenBit_ended x false) frame secs trks bit
  have others : ∀ (a : Bool) y (u : State), y ≠ x → (u.sectn x).frozen = a ∧ u.faults.FrozenBit x a →
      ((u.irregular y).sectn x).frozen = a ∧ (u.irregular y).faults.FrozenBit x a := fun a y u hy hu =>
    ⟨(sectn_resets x (fun _ => True) fun r => r.frozen = a).irregular y u hy hu.1,
      (Supervisor.frozenBit_liftKept x a).irregular hy hu.2⟩
  have mem := mem_raisers hx hb hz
  rw [sendLifts_eq]
  generalize s.thawLifts frame secs trks = u at thawed ready bit
  cases out : polarityIrregular b (s.sectn x).measured (s.sectn x).releaseUsed with
  | true =>
    rw [Bool.true_and]
    refine forEach_amid (I := fun v => ((v.sectn x).frozen = false ∧ v.faults.FrozenBit x false) ∧ v.faults.Ready x m)
      (R := fun v => (v.sectn x).frozen = !m ∧ v.faults.FrozenBit x (!m)) _ (raisers_nodup secs s) (mem.2 out)
      (fun y v hy hv => ⟨others false y v hy hv.1, (Supervisor.ready_liftKept x m).irregular hy hv.2⟩)
      (fun v hv => irregular_frozen hv.2 hv.1.2 hv.1.1) (fun y v hy hv => others _ y v hy hv) _ ⟨⟨thawed, bit⟩, ready⟩
  | false =>
    rw [Bool.false_and]
    refine forEach_inv_mem (P := fun v => (v.sectn x).frozen = false ∧ v.faults.FrozenBit x false) _ (fun y hy v hv => ?_) u ⟨thawed, bit⟩
    refine others false y v (fun he => ?_) hv
    rw [he] at hy
    exact Bool.false_ne_true (out.symm.trans (mem.1 hy))

/-- R145, R158, R164: the BLOCK_IRREGULAR of a section that the re-test finds irregular stands ENDED in a list with room. -/
theorem sendLifts_logged (hx : secs.getLsbD (secCode x).toNat = true) (hb : (s.sectn x).state = some b) (hz : (s.sectn x).frozen = true)
    (out : polarityIrregular b (s.sectn x).measured (s.sectn x).releaseUsed = true) (room : s.faults.Room 4) (frame : Bool)
    (trks : BitVec 24) : ∃ e ∈ (s.sendLifts frame secs trks).faults.entries,
      e.is .blockIrregular (secCode x).toNat = true ∧ e.active = false := by
  have room := thawLifts_list (Supervisor.room_ended 4) frame secs trks room
  have length := raisers_length secs s
  rw [sendLifts_eq]
  generalize s.thawLifts frame secs trks = u at room
  have logged : (forEach (s.raisers secs) irregular u).faults.Logged x 0 :=
    forEach_amid_counted (f := irregular) (y := x) (I := fun n v => v.faults.Room n) (R := fun n v => v.faults.Logged x n)
      (fun y n v _ hv => (Supervisor.room_ended n).irregular (fun _ _ _ h => ⟨h.length, h.overflow⟩) (fun _ h => ⟨h.length, h.overflow⟩)
        (hv.entered _ _ _ _ _))
      (fun n v hv => (Supervisor.logged_ended x n).irregular (fun _ _ _ h => ⟨⟨h.room.length, h.room.overflow⟩, h.entry⟩)
        (fun _ h => ⟨⟨h.room.length, h.room.overflow⟩, h.entry⟩) (hv.logged x _ _))
      (fun y n v hy hv => (Supervisor.logged_ended x n).irregular (x := y) (fun _ _ _ h => ⟨⟨h.room.length, h.room.overflow⟩, h.entry⟩)
        (fun _ h => ⟨⟨h.room.length, h.room.overflow⟩, h.entry⟩) (hv.entered hy _ _ _))
      _ (raisers_nodup secs s) ((mem_raisers hx hb hz).2 out) u ⟨by have := room.length; omega, room.overflow⟩
  exact logged.entry

end State

namespace State

variable {x : SectionId} {s : State} {b : BlockState} {secs : BitVec 4}

/-- R145, R164: the state that a lifted section is left in, and the handle's correspondence to it. -/
theorem sendLifts_state (hx : secs.getLsbD (secCode x).toNat = true) (hb : (s.sectn x).state = some b) (hz : (s.sectn x).frozen = true)
    (frame : Bool) (trks : BitVec 24) {a : BlockState}
    (ha : a = handledTo (polarityNext b (s.sectn x).measured) (s.sectn x).handle (!s.isStoring) (s.clearAllowed x) (s.sectn x).cancelReceived) :
    ((s.sendLifts frame secs trks).sectn x).state = some a ∧
    ((s.sendLifts frame secs trks).sectn x).outOfCorr = decide ((s.sectn x).handle ≠ handleFor a) := by
  refine sendLifts_lifted (Q := fun v => (v.sectn x).state = some a ∧ (v.sectn x).outOfCorr = decide ((s.sectn x).handle ≠ handleFor a)) hx
    (sectn_resets x _ fun r => r.state = some a ∧ r.outOfCorr = decide ((s.sectn x).handle ≠ handleFor a)) (fun u hu => ?_) (fun u hu => ?_)
    frame trks
  · rw [irregular_sectn]; split
    · exact hu
    · exact hu
  · have own := hu.sectn
    have at' := unfreeze_at (s := u) (x := x) (by rw [own]; exact hb) (by rw [own]; exact hz)
    rw [own, clearAllowed_congr hu.rest.store (by rw [own]) (fun n => (hu.rest.lever n).2.2.2) hu.tracks, isStoring_congr hu.rest.store, ← ha]
      at at'
    exact ⟨at'.1, at'.2.1⟩

/-- R143, R145: the unfreeze of a section in ON_LINE_IN with its handle at LINE BLOCKED asks for the latch of its arrival sequence. -/
theorem unfreeze_asks {rec : SectionRec} (hr : s.sectionRec x = some rec) (hb : (s.sectn x).state = some .onLineIn)
    (hz : (s.sectn x).frozen = true) (handle : (s.sectn x).handle = .lineBlocked) (storing : s.isStoring = false)
    (out : (s.sectn x).outSent = true) (latch : (s.seqn rec.arrival.toNat).latch = true) (asked : (s.sectn x).consumeAsked = false) :
    ((s.unfreeze x).sectn x).consumeAsked = true ∧
    ({ consumer := .block x, seq := rec.arrival.toNat, epoch := s.epoch } : Notice) ∈ (s.unfreeze x).notices := by
  obtain ⟨own, -, rest⟩ := followed_beside hb
  have stays : polarityNext .onLineIn (s.sectn x).measured = .onLineIn := by cases (s.sectn x).measured <;> rfl
  obtain ⟨state, position, thaw⟩ := SectionState.followed_at (r := { s.sectn x with frozen := false }) (s.sectn x).measured hb
  obtain ⟨-, -, -, sent, asks⟩ := SectionState.followed_stays stays { s.sectn x with frozen := false }
  rw [unfreeze_eq hz]
  rw [← own] at state position thaw sent asks
  rw [stays] at state
  generalize (s.thawed x).followPolarity x false = u at rest state position thaw sent asks ⊢
  have position : (u.sectn x).handle = .lineBlocked := position.trans handle
  have moves : u.handleEvent x = (u.holdHandle x true).blockBackTest x := by
    rw [handleEvent_moves state thaw (by rw [position]; decide) ((isStoring_congr rest.store).trans storing)]
    unfold handleMove; rw [position]
  have only := holdHandle_onlyRecords x true u
  have held : (u.holdHandle x true).sectn x = (u.sectn x).held true := by rw [holdHandle_sectn, if_pos rfl]
  have kept := (untouched_resets (fun _ => True) (fun _ => True) s).holdHandle (x := x) trivial true rest
  have record : (u.holdHandle x true).sectionRec x = some rec := by
    rw [← hr]; unfold State.sectionRec State.table; rw [kept.store]
  have asking : (u.holdHandle x true).blockBack x rec := by
    unfold blockBack
    rw [held, kept.latch]
    exact ⟨sent.trans out, latch, asks.trans asked, thaw⟩
  have away : ¬((u.sectn x).handle = .moving ∨ (u.sectn x).handle = .unreadable) := by rw [position]; decide
  rw [if_neg away, moves, blockBackTest_of_asks record asking]
  refine ⟨by rw [sectn_sendNotice, State.sectn_updSect_same]; rfl, ?_⟩
  rw [← kept.epoch]
  exact List.mem_append_right _ (List.mem_singleton.2 rfl)

theorem sendLifts_asks {rec : SectionRec} (hx : secs.getLsbD (secCode x).toNat = true) (hr : s.sectionRec x = some rec)
    (hb : (s.sectn x).state = some .onLineIn) (hz : (s.sectn x).frozen = true) (handle : (s.sectn x).handle = .lineBlocked)
    (storing : s.isStoring = false) (out : (s.sectn x).outSent = true) (latch : (s.seqn rec.arrival.toNat).latch = true)
    (asked : (s.sectn x).consumeAsked = false) (frame : Bool) (trks : BitVec 24) :
    ((s.sendLifts frame secs trks).sectn x).consumeAsked = true ∧
    ({ consumer := .block x, seq := rec.arrival.toNat, epoch := s.epoch } : Notice) ∈ (s.sendLifts frame secs trks).notices := by
  refine sendLifts_lifted (Q := fun v => (v.sectn x).consumeAsked = true ∧ _ ∈ v.notices) hx
    (asked_resets x _ (fun r => r.consumeAsked = true) _) (fun u hu => ?_) (fun u hu => ?_) frame trks
  · refine ⟨?_, ((untouched_resets (fun _ => True) (fun _ => True) u).irregular x u trivial (.refl u)).notices _ hu.2⟩
    rw [irregular_sectn]; split
    · exact hu.1
    · exact hu.1
  · have own := hu.sectn
    have record : u.sectionRec x = some rec := by rw [← hr]; unfold State.sectionRec State.table; rw [hu.rest.store]
    have asks := unfreeze_asks (s := u) record (by rw [own]; exact hb) (by rw [own]; exact hz) (by rw [own]; exact handle)
      ((isStoring_congr hu.rest.store).trans storing) (by rw [own]; exact out) ((hu.rest.latch _).trans latch) (by rw [own]; exact asked)
    rw [hu.rest.epoch] at asks
    exact asks

/-- R164: a section that is not lifted stays as it is. -/
theorem sendLifts_stays (hx : secs.getLsbD (secCode x).toNat = false) (frame : Bool) (trks : BitVec 24) :
    (s.sendLifts frame secs trks).sectn x = s.sectn x := by
  have resets := (sectn_resets x (fun t => trks.getLsbD (t - 1) = true) (· = s.sectn x)).mono (Y := fun y => secs.getLsbD (secCode y).toNat = true)
    fun y hy => fun he => by rw [he, hx] at hy; cases hy
  exact resets.sendLifts frame rfl

end State

/-! ### O19: a frozen section after a press -/

namespace State

variable {s : State} {x : SectionId} {b : BlockState}

theorem lifting_frozen (hz : (s.sectn x).frozen = true) (d : List Byte) : (s.handed.lifting d).sectn x = s.sectn x :=
  ((s.handed.lifting_onlyFaults d).eval.sectn_eq x).trans (handed_sectn hz)

theorem lifting_untouched (s : State) (d : List Byte) : Untouched s (s.handed.lifting d) :=
  s.handed_untouched.trans (.onlyFaults (s.handed.lifting_onlyFaults d))

theorem handed_liftsSection (bit : s.faults.frozenSet.getLsbD (secCode x).toNat = true) :
    s.handed.liftSections.getLsbD (secCode x).toNat = true ↔ ¬s.handed.faults.Stands (sectionTold x) := by
  rw [liftSections_bit, liftsSection_iff s.handed_fresh]
  exact and_iff_right (handed_frozen bit)

theorem sectionTold_class {e : FaultEntry} (h : sectionTold x e) : e.cls ≠ .lockDrive := by
  obtain ⟨-, -, hc | hc⟩ := h <;> rw [hc] <;> decide

/-- R164: what stands of a frozen section after a press stood when it was lifted or not. -/
theorem boxReset_sectionTold (bit : s.faults.frozenSet.getLsbD (secCode x).toNat = true) :
    s.boxReset.faults.Stands (sectionTold x) ↔ s.handed.faults.Stands (sectionTold x) := by
  refine ⟨boxReset_stands_of, fun h => boxReset_stands (fun e he => sectionTold_class he) (fun e y he hy ho => ?_) h⟩
  obtain ⟨-, object, -⟩ := he
  rw [secCode_toNat_inj (ho.symm.trans object)] at hy
  exact ((handed_liftsSection bit).1 hy h).elim

/-- R164: a frozen section under an ACTIVE unmasked entry stays so. -/
theorem boxReset_frozenSection (hz : (s.sectn x).frozen = true) (bit : s.faults.frozenSet.getLsbD (secCode x).toNat = true)
    (h : s.boxReset.faults.Stands (sectionTold x)) :
    s.boxReset.sectn x = s.sectn x ∧ s.boxReset.faults.frozenSet.getLsbD (secCode x).toNat = true := by
  have stays : s.handed.liftSections.getLsbD (secCode x).toNat = false :=
    Bool.eq_false_of_not_eq_true fun hl => (handed_liftsSection bit).1 hl ((boxReset_sectionTold bit).1 h)
  obtain ⟨d, he⟩ := s.boxReset_eq
  have register : (s.handed.lifting d).faults.frozenSet.getLsbD (secCode x).toNat = true := by
    have small : decide ((secCode x).toNat < 4) = true := by cases x <;> rfl
    rw [lifting_faults]
    change (s.handed.faults.frozenSet &&& ~~~s.handed.liftSections).getLsbD (secCode x).toNat = true
    rw [BitVec.getLsbD_and, BitVec.getLsbD_not, handed_frozen bit, stays, small]; rfl
  rw [he]
  exact ⟨(sendLifts_stays stays _ _).trans (lifting_frozen hz d), ((frozenSet_liftKept _ _).resets _).sendLifts _ register⟩

section Lifted

variable (hb : (s.sectn x).state = some b) (hz : (s.sectn x).frozen = true) (bit : s.faults.frozenSet.getLsbD (secCode x).toNat = true)
  (free : ¬s.boxReset.faults.Stands (sectionTold x))
include bit free

theorem lifted_bit : s.handed.liftSections.getLsbD (secCode x).toNat = true :=
  (handed_liftsSection bit).2 (mt (boxReset_sectionTold bit).2 free)

include hb hz

/-- R145, R155, R164: a section unfrozen is frozen again where its re-test is irregular and the class unmasked. -/
theorem boxReset_again :
    (s.boxReset.sectn x).frozen = (polarityIrregular b (s.sectn x).measured (s.sectn x).releaseUsed &&
      !s.faults.masked.getLsbD FaultClass.blockIrregular.number) ∧
    s.boxReset.faults.frozenSet.getLsbD (secCode x).toNat = (polarityIrregular b (s.sectn x).measured (s.sectn x).releaseUsed &&
      !s.faults.masked.getLsbD FaultClass.blockIrregular.number) := by
  have lifts := lifted_bit bit free
  obtain ⟨d, he⟩ := s.boxReset_eq
  have own := lifting_frozen hz d
  have ready : (s.handed.lifting d).faults.Ready x (s.faults.masked.getLsbD FaultClass.blockIrregular.number) := by
    rw [lifting_faults]
    refine ⟨congrArg (fun v => v.getLsbD FaultClass.blockIrregular.number) s.handed_masked, fun e hm hi => ?_⟩
    obtain ⟨cls, object⟩ := (FaultEntry.is_iff _ _ e).1 hi
    have active : e.active = true := (s.handed_fresh e hm).resolve_left (by rw [cls]; decide)
    exact Bool.eq_false_of_not_eq_true fun hu =>
      free ((boxReset_sectionTold bit).2 ⟨e, hm, active, hu, object, .inr cls⟩)
  have cleared : (s.handed.lifting d).faults.FrozenBit x false := by
    rw [lifting_faults]
    change (s.handed.faults.frozenSet &&& ~~~s.handed.liftSections).getLsbD (secCode x).toNat = false
    rw [BitVec.getLsbD_and, BitVec.getLsbD_not, lifts, Bool.not_true, Bool.and_false, Bool.and_false]
  rw [he]
  have again := sendLifts_again lifts (by rw [own]; exact hb) (by rw [own]; exact hz) ready cleared s.handed.liftsFrame s.handed.liftTracks
  rw [own] at again
  exact again

/-- R158, R164: the BLOCK_IRREGULAR of the re-test. -/
theorem boxReset_logged (out : polarityIrregular b (s.sectn x).measured (s.sectn x).releaseUsed = true)
    (length : s.faults.entries.length < 13) (overflow : s.faults.overflow = false) :
    ∃ e ∈ s.boxReset.faults.entries, e.cls = .blockIrregular ∧ e.object = (secCode x).toNat ∧ e.active = false := by
  have lifts := lifted_bit bit free
  obtain ⟨d, he⟩ := s.boxReset_eq
  have own := lifting_frozen hz d
  have silent : s.silence.faults.entries.length ≤ s.faults.entries.length := by
    change ((s.faults.entries.filter (·.active)).map fun e => { e with alarmPending := false }).length ≤ _
    rw [List.length_map]; exact List.length_filter_le _ _
  have room : (s.handed.lifting d).faults.Room 4 := by
    rw [lifting_faults, handed_of_noOverflow overflow]
    exact ⟨show s.silence.faults.entries.length + 4 ≤ 16 by omega, overflow⟩
  have logged := sendLifts_logged lifts (by rw [own]; exact hb) (by rw [own]; exact hz) (by rw [own]; exact out) room s.handed.liftsFrame
    s.handed.liftTracks
  rw [← he] at logged
  obtain ⟨e, hm, hi, ha⟩ := logged
  obtain ⟨cls, object⟩ := (FaultEntry.is_iff _ _ e).1 hi
  exact ⟨e, hm, cls, object, ha⟩

/-- R145: the state of a section unfrozen, and its handle's correspondence. -/
theorem boxReset_state (known : s.faults.overflow = false ∨ polarityNext b (s.sectn x).measured ≠ .offeredIn) {a : BlockState}
    (ha : a = handledTo (polarityNext b (s.sectn x).measured) (s.sectn x).handle (!s.isStoring) (s.clearAllowed x)
      (s.sectn x).cancelReceived) :
    (s.boxReset.sectn x).state = some a ∧ (s.boxReset.sectn x).outOfCorr = decide ((s.sectn x).handle ≠ handleFor a) := by
  have lifts := lifted_bit bit free
  obtain ⟨d, he⟩ := s.boxReset_eq
  have own := lifting_frozen hz d
  have store := isStoring_congr (s.lifting_untouched d).store
  have accepts : polarityNext b (s.sectn x).measured = .offeredIn → (s.handed.lifting d).clearAllowed x = s.clearAllowed x := fun hn => by
    have only : OnlyFaults s (s.handed.lifting d) := by
      rw [handed_of_noOverflow (known.resolve_right fun h => h hn)]
      exact (silence_onlyFaults s).trans (s.silence.lifting_onlyFaults d)
    obtain ⟨_, _, same⟩ := only
    rw [same]; rfl
  have after := sendLifts_state lifts (s := s.handed.lifting d) (by rw [own]; exact hb) (by rw [own]; exact hz) s.handed.liftsFrame
    s.handed.liftTracks (a := a) (by rw [own, store, ha]; exact handledTo_congr (fun h => (accepts h).symm) fun _ => rfl)
  rw [own, ← he] at after
  exact after

omit hb in
/-- R143, R145: a section unfrozen in ON_LINE_IN asks for its latch. -/
theorem boxReset_asks {rec : SectionRec} (hr : s.sectionRec x = some rec) (hb : (s.sectn x).state = some .onLineIn)
    (handle : (s.sectn x).handle = .lineBlocked) (storing : s.isStoring = false) (out : (s.sectn x).outSent = true)
    (latch : (s.seqn rec.arrival.toNat).latch = true) (asked : (s.sectn x).consumeAsked = false) :
    (s.boxReset.sectn x).consumeAsked = true ∧
    ({ consumer := .block x, seq := rec.arrival.toNat, epoch := s.epoch } : Notice) ∈ s.boxReset.notices := by
  have lifts := lifted_bit bit free
  obtain ⟨d, he⟩ := s.boxReset_eq
  have own := lifting_frozen hz d
  have kept := s.lifting_untouched d
  have record : (s.handed.lifting d).sectionRec x = some rec := by rw [← hr]; unfold State.sectionRec State.table; rw [kept.store]
  have asks := sendLifts_asks lifts record (by rw [own]; exact hb) (by rw [own]; exact hz) (by rw [own]; exact handle)
    ((isStoring_congr kept.store).trans storing) (by rw [own]; exact out) ((kept.latch _).trans latch) (by rw [own]; exact asked)
    s.handed.liftsFrame s.handed.liftTracks
  rw [kept.epoch, ← he] at asks
  exact asks

end Lifted

end State

namespace State

/-- R36, R164: a press without overflow restores the frame supply where nothing ACTIVE holds it cut. -/
theorem boxReset_restored {s : State} (cut : s.faults.frameCut = true) (overflow : s.faults.overflow = false)
    (none : ∀ e ∈ s.faults.entries, e.active = true → e.cls ≠ .leverForced ∧ e.cls ≠ .lockStuckFree) :
    s.boxReset.frame.supplyOn = true ∧ s.boxReset.faults.frameCut = false := by
  refine boxReset_restores cut fun h => ?_
  obtain ⟨e, he, ha, hc⟩ := (handed_stands overflow (fun _ => Iff.rfl)).1 h
  exact hc.elim (none e he ha).1 (none e he ha).2

theorem boxReset_restored_of_none {s : State} (cut : s.faults.frameCut = true)
    (none : ∀ e ∈ s.boxReset.faults.entries, e.cls ≠ .leverForced ∧ e.cls ≠ .lockStuckFree) :
    s.boxReset.frame.supplyOn = true ∧ s.boxReset.faults.frameCut = false := by
  refine boxReset_restores cut fun h => ?_
  obtain ⟨e, he, -, hc⟩ := boxReset_stands frameTold_told.1 (fun e _ he _ _ => frameTold_told.2 e he) h
  exact hc.elim (none e he).1 (none e he).2

theorem resetKey_of_onlyField {s t : State} (h : OnlyField s t) : t.resetKey = s.resetKey := by
  obtain ⟨_, _, _, _, _, _, _, _, h⟩ := h; rw [h]

end State

namespace State

/-- R62, R164: what a press makes of a failed circuit. -/
theorem boxReset_circuit {s : State} {n : Nat} {rec : TrackRec} (hr : s.trackRec n = some rec) (h1 : 1 ≤ n) (h24 : n ≤ 24)
    (bit : s.faults.failedSet.getLsbD (n - 1) = true) (mark : (s.track n).failedMark = true) :
    (s.faults.overflow = false → (s.boxReset.faults.Stands (trackTold n) ↔ s.faults.Stands (trackTold n))) ∧
    (s.boxReset.faults.failedSet.getLsbD (n - 1) = true ↔ s.boxReset.faults.Stands (trackTold n)) ∧
    ((s.track n).state = .failed ∨ (s.track n).state = .outOfUse → s.boxReset.faults.Stands (trackTold n) →
      s.boxReset.track n = s.track n) ∧
    (¬s.boxReset.faults.Stands (trackTold n) → (s.track n).state = .failed → s.boxReset.track n =
      { s.track n with state := .occupied, acc := min (s.track n).acc (rec.clearCount.toNat / 2), failedMark := false }) ∧
    (¬s.boxReset.faults.Stands (trackTold n) → (s.track n).state = .outOfUse →
      s.boxReset.track n = { s.track n with failedMark := false }) := by
  obtain ⟨stands, register, held, lifted⟩ := boxReset_failedTrack h1 h24 bit
  rw [hr] at lifted
  have marked := TrackState.liftedBy_marked mark rec
  refine ⟨fun overflow => stands.trans (handed_stands overflow fun _ => Iff.rfl), register, fun hs ht => ?_, fun hn hs => ?_, fun hn hs => ?_⟩
  · exact (held ht).trans (handed_track mark hs)
  · rw [lifted hn, handed_track mark (.inl hs)]; exact marked.1 hs
  · rw [lifted hn, handed_track mark (.inr hs)]; exact marked.2 hs

/-- R145, R164: what a press makes of a frozen section. -/
theorem boxReset_section {s : State} {x : SectionId} {rec : SectionRec} {b a : BlockState} (hr : s.sectionRec x = some rec)
    (hb : (s.sectn x).state = some b) (hz : (s.sectn x).frozen = true) (bit : s.faults.frozenSet.getLsbD (secCode x).toNat = true)
    (ha : a = handledTo (polarityNext b (s.sectn x).measured) (s.sectn x).handle (!s.isStoring) (s.clearAllowed x)
      (s.sectn x).cancelReceived) :
    let out := polarityIrregular b (s.sectn x).measured (s.sectn x).releaseUsed
    let again := out && !s.faults.masked.getLsbD FaultClass.blockIrregular.number
    let t := s.boxReset
    (s.faults.overflow = false → (t.faults.Stands (sectionTold x) ↔ s.faults.Stands (sectionTold x))) ∧
    (t.faults.Stands (sectionTold x) → t.sectn x = s.sectn x ∧ t.faults.frozenSet.getLsbD (secCode x).toNat = true) ∧
    (¬t.faults.Stands (sectionTold x) →
      (t.sectn x).frozen = again ∧ t.faults.frozenSet.getLsbD (secCode x).toNat = again ∧
      (out = true → s.faults.entries.length < 13 → s.faults.overflow = false →
        ∃ e ∈ t.faults.entries, e.cls = .blockIrregular ∧ e.object = (secCode x).toNat ∧ e.active = false) ∧
      (s.faults.overflow = false ∨ polarityNext b (s.sectn x).measured ≠ .offeredIn →
        (t.sectn x).state = some a ∧ ((t.sectn x).outOfCorr = true ↔ (s.sectn x).handle ≠ handleFor a)) ∧
      (b = .onLineIn → (s.sectn x).handle = .lineBlocked → s.store.part ≠ .storing → (s.sectn x).outSent = true →
        (s.seqn rec.arrival.toNat).latch = true → (s.sectn x).consumeAsked = false →
        (t.sectn x).consumeAsked = true ∧
        ({ consumer := .block x, seq := rec.arrival.toNat, epoch := s.epoch } : Notice) ∈ t.notices)) := by
  intro out again t
  refine ⟨fun overflow => (boxReset_sectionTold bit).trans (handed_stands overflow fun _ => Iff.rfl), boxReset_frozenSection hz bit,
    fun free => ?_⟩
  obtain ⟨frozen, register⟩ := boxReset_again hb hz bit free
  refine ⟨frozen, register, boxReset_logged hb hz bit free, fun known => ?_, fun hl handle storing sent latch asked => ?_⟩
  · obtain ⟨state, corresponds⟩ := boxReset_state hb hz bit free known ha
    exact ⟨state, by rw [corresponds]; exact decide_eq_true_iff⟩
  · exact boxReset_asks hz bit free hr (hl ▸ hb) handle ((isStoring_eq_false s).2 storing) sent latch asked

end State

/-- Settles O19. -/
theorem boxResetKey : Obligations.BoxResetKey := by
  refine ⟨fun s => ⟨?_, fun h => ?_, fun h cut frozen failed overflow => ?_, fun h cut overflow none => ?_⟩, fun s h overflow => ?_,
    fun s n rec hr h1 h24 h bit mark => ?_, fun s x rec b hr hb hz h bit => ?_, fun s => ⟨fun d hd hn => ?_, fun hn => ?_⟩⟩
  · exact congrArg Host.Outcome.next (if_pos rfl)
  · exact congrArg Host.Outcome.next (if_neg (by rw [h]; decide))
  · rw [exec_boxResetKey_press h]
    exact congrArg Host.Outcome.next (State.boxReset_quiet (s := { s with resetKey := true }) cut frozen failed overflow)
  · have only := State.boxReset_only { s with resetKey := true }
    obtain ⟨supply, register⟩ := State.boxReset_restored (s := { s with resetKey := true }) cut overflow none
    exact ⟨_, exec_boxResetKey_press h, supply, register, State.resetKey_of_onlyField only, only⟩
  · exact ⟨_, exec_boxResetKey_press h, State.boxReset_shown overflow, State.boxReset_overflowFull overflow,
      fun cut none => State.boxReset_restored_of_none cut none, State.boxReset_only _⟩
  · intro stands
    obtain ⟨same, register, held, failed, outOfUse⟩ := State.boxReset_circuit (s := { s with resetKey := true }) hr h1 h24 bit mark
    refine ⟨_, exec_boxResetKey_press h, same, ?_, held, failed, outOfUse⟩
    rw [Bool.eq_iff_iff, decide_eq_true_iff]; exact register
  · intro obj stands b1 out again b2
    have state : b2 = handledTo b1 (s.sectn x).handle (!s.isStoring) (s.clearAllowed x) (s.sectn x).cancelReceived := by
      have storing : s.isStoring = false ↔ s.store.part ≠ .storing := State.isStoring_eq_false s
      dsimp only [b2]
      rw [State.acceptsTrain_eq s hr]
      clear_value b1
      generalize (s.sectn x).handle = g
      split
      · simp [storing, handledTo]
      · simp [storing, handledTo]
      · simp [storing, handledTo]
      · rename_i h1 h2 h3
        exact (handledTo_rest h1 h2 h3 _ _ _).symm
    exact ⟨_, exec_boxResetKey_press h, State.boxReset_section (s := { s with resetKey := true }) hr hb hz bit state⟩
  · have due : s.shortAlarmDue = true := by unfold State.shortAlarmDue; rw [hd]; exact decide_eq_true hn
    exact congrArg Host.Outcome.next (if_pos due)
  · have early : s.shortAlarmDue = false := by
      unfold State.shortAlarmDue
      obtain hd | ⟨d, hd, hn⟩ := hn <;> rw [hd]
      exact decide_eq_false (Nat.not_le.2 hn)
    exact congrArg Host.Outcome.next (if_neg (by rw [early]; exact Bool.false_ne_true))
end Sys2Proof.Machine
